-- ==== Sys2Proof/Word.lean ====
section
/-! DEFINITION. The one word type of the part: the byte that travels on the request port (R172). Every
quantity of the records is a whole number in a fixed unit (R47) and is held as a `Nat` or an `Int`. -/

namespace Sys2Proof

/-- A byte of the request port (R172, R175). -/
abbrev Byte := BitVec 8

end Sys2Proof
end

