-- ==== Sys2Proof/Syntax.lean ====
section
/-! DEFINITION. The commands of the part: one constructor of `Instr` for each row of the table of operations
and events (spec/opcode_table.json), with the row's operands. -/

namespace Sys2Proof

/-- Station numbers 0 to 15 (R172, R178). -/
abbrev StationNo := Fin 16
/-- Scale channels 0 to 2 (R62). -/
abbrev ChannelNo := Fin 3
/-- Bin numbers: storage bins 0 to 39, wet tanks 40 and 41 (R22). -/
abbrev BinNo := Fin 42
/-- Legs 0 to 3 (R103). -/
abbrev LegNo := Fin 4
/-- Berths: 0 is A, 1 is B (R175). -/
abbrev BerthNo := Fin 2
/-- Schedule entries 0 to 7 (R137). -/
abbrev EntryNo := Fin 8

/-- What a well-formed request frame carries beside its code (R172): the station, the tag the response echoes,
and the payload bytes. SYNC, LEN and CHECK are those the receiver has found right (R173). -/
structure Frame where
  station : StationNo
  tag : Byte
  payload : List Byte
  deriving DecidableEq, Repr

/-- The levels a start finds on the input lines (R169, R171, R192, R193): true is asserted or active. -/
structure Pins where
  estop : Bool
  reset : Bool
  backupLost : Bool
  presentA : Bool
  presentB : Bool
  mooredA : Bool
  mooredB : Bool
  buttonA : Bool
  buttonB : Bool
  deriving DecidableEq, Repr

/-- The commands: the requests (each a well-formed frame with that request's code, R177), the events of the
receiver (R173), the expiries on the timebase, the ends of a settings commit (R189), and the qualified changes of
the input lines and of main power (R171, R192). -/
inductive Instr where
  -- Lots
  | readLot (f : Frame)
  | findLots (f : Frame)
  | closeReceivingLot (f : Frame)
  | closeIpLot (f : Frame)
  | setLotHold (f : Frame)
  | clearLotHold (f : Frame)
  | amendLot (f : Frame)
  | retireLot (f : Frame)
  -- Bins and Layers
  | readBin (f : Frame)
  | readLayers (f : Frame)
  | setBinSettings (f : Frame)
  | setBinHold (f : Frame)
  | clearBinHold (f : Frame)
  | sweepClose (f : Frame)
  -- Intake Scales and Tickets
  | scaleSample (f : Frame)
  | setCalibration (f : Frame)
  | setScaleParameters (f : Frame)
  | zeroScale (f : Frame)
  | weighIn (f : Frame)
  | gradeReport (f : Frame)
  | assignDump (f : Frame)
  | dumpReport (f : Frame)
  | weighOut (f : Frame)
  | voidTicket (f : Frame)
  | forgetVehicle (f : Frame)
  | setIntakeSettings (f : Frame)
  | readScale (f : Frame)
  | readVehicle (f : Frame)
  | readTicket (f : Frame)
  | listTickets (f : Frame)
  | readIntakeStatus (f : Frame)
  -- The Dryer
  | startDryer (f : Frame)
  | stopDryer (f : Frame)
  | chargeBatch (f : Frame)
  | batchDried (f : Frame)
  | discharge (f : Frame)
  | suspendDryer (f : Frame)
  | resumeDryer (f : Frame)
  | dryerFault (f : Frame)
  | clearDryerFault (f : Frame)
  | setDryerSettings (f : Frame)
  | readDryer (f : Frame)
  -- Legs and Transfers
  | stageTransfer (f : Frame)
  | launch (f : Frame)
  | withdrawStaging (f : Frame)
  | flowReport (f : Frame)
  | abortTransfer (f : Frame)
  | clearLegFlags (f : Frame)
  | markLegClean (f : Frame)
  | setLegSettings (f : Frame)
  | readLeg (f : Frame)
  -- Bin Temperature and Rotation Schedules
  | temperatureReport (f : Frame)
  | setSchedule (f : Frame)
  | endSchedule (f : Frame)
  | setRotationSettings (f : Frame)
  | readSchedules (f : Frame)
  -- Berths and Barge Loading
  | acceptBarge (f : Frame)
  | setLoadOrder (f : Frame)
  | setPositionPlan (f : Frame)
  | setBerthEnable (f : Frame)
  | setSpoutPosition (f : Frame)
  | spoutArrived (f : Frame)
  | resumeBerth (f : Frame)
  | releaseBarge (f : Frame)
  | stageReading (f : Frame)
  | setRiverSettings (f : Frame)
  | readBerth (f : Frame)
  | readRiver (f : Frame)
  -- The Request Port and Stations
  | readStations (f : Frame)
  | setStation (f : Frame)
  | readEvents (f : Frame)
  | clearEvents (f : Frame)
  | setEventEnables (f : Frame)
  -- Settings, Time and Start-up
  | commitSettings (f : Frame)
  | setTime (f : Frame)
  | readTime (f : Frame)
  | resetPart (f : Frame)
  | setLotSize (f : Frame)
  -- the receiver
  /-- A well-formed frame whose code is not a request code (R177). -/
  | unknownRequest (code : Byte) (f : Frame)
  /-- The bytes of a frame that R173 discards, from SYNC on. -/
  | frameDiscarded (bytes : List Byte)
  /-- A gap of more than 4 ms, ended by the byte `next` (R173). -/
  | frameGapTimeout (next : Byte)
  /-- The last stop bit of the response has been sent (R173). `pins` are the levels found by the warm start that
  follows it when the response was the OK of Reset Part (R192). -/
  | responseSent (pins : Pins)
  -- expiries
  | signalExpiry (c : ChannelNo)
  | ticketExpiry (number : Nat)
  | warmUpExpiry
  | dryingTimerExpiry
  | cleanoutExpiry (leg : LegNo)
  | staleExpiry (bin : BinNo)
  | riverStaleExpiry
  | spoutTimerExpiry (berth : BerthNo)
  -- the settings store
  | commitDone
  | commitFailed
  -- lines and power
  | estopAsserted
  | estopReleased
  | resetAsserted (pins : Pins)
  | mainPowerReturn (pins : Pins)
  | backupLostChange (level : Bool)
  | presentChange (berth : BerthNo) (level : Bool)
  | mooredChange (berth : BerthNo) (level : Bool)
  | buttonPress (berth : BerthNo)
  | buttonRelease (berth : BerthNo)
  | mainPowerLoss
  | resetReleased
  deriving DecidableEq, Repr

end Sys2Proof
end

