-- ==== Sys2Proof/Config.lean ====
section
/-! DEFINITION. What the manual fixes once for every part (table sizes, fixed limits), and the free values:
constants with no body, for what the manual leaves open. -/

namespace Sys2Proof.Config

/-- The lot table holds up to 512 lot records (Lots, "The lot record"; R3). -/
def maxLots : Nat := 512
/-- The registry holds up to 64 vehicle entries (R68). -/
def maxVehicles : Nat := 64
/-- The ticket table holds up to 32 open tickets (R71). -/
def maxTickets : Nat := 32
/-- Ticket numbers run from 1 to 999,999 (R70). -/
def maxTicketNo : Nat := 999999
/-- Lot numbers and transfer ids run from 1 to 65,535 (R1, R104). -/
def maxShortNo : Nat := 65535
/-- The bound on received plus pending estimate (R3, R4). -/
def maxLotKg : Nat := 4000000000
/-- The largest quantity of a staged transfer, a charge or a pass (R88, R105, R140). -/
def maxTransferKg : Nat := 4000000
/-- A batch has at most 8 portions: the layer limit of the charge's plan (R88). -/
def maxPortions : Nat := 8
/-- The fixed minimum charge (R88, R100). -/
def minCharge : Nat := 1000
/-- A manifest holds at most 16 entries (R155, R157). -/
def maxManifest : Nat := 16
/-- The signal timer of a scale channel, in seconds of the timebase (R64). -/
def signalSeconds : Nat := 3
/-- A day in seconds (R61). -/
def daySeconds : Nat := 86400
/-- Terminal time is a 32-bit count (R191). -/
def timeModulus : Nat := 4294967296
/-- Image generations run from 1 to 4,294,967,295 (R189). -/
def maxGeneration : Nat := 4294967295
/-- A frame's payload holds at most 240 bytes (R172). -/
def maxPayload : Nat := 240

/-- FREE VALUE. What a field of an answer carries when its value does not fit the field's bytes (R175 gives
the widths and no rule gives such a value): a function of the width in bytes and the value (assumption log 9). -/
opaque oversizeField : Nat → Int → Nat

/-- FREE VALUE. Whether a settings commit that a start or a loss of power abandons has already spoilt the bank
being written: R189 leaves both open (assumption log 10). The argument counts the free values read so far. -/
opaque abandonedBankSpoilt : Nat → Bool

end Sys2Proof.Config
end

