-- ==== Sys2Proof/Machine/Types.lean ====
section
/-! DEFINITION. The record types of the part, as the chapters' field tables give them. Quantities are whole numbers
in the manual's units (R47): kilograms, tenths, centimetres, seconds (DEDUCED, assumption log 29). -/

namespace Sys2Proof.Machine

/-! ### Class and identity -/

/-- A class: commodity 0 to 15 with grade 0 to 7 (About this manual, "Class and identity"). -/
structure GrainClass where
  commodity : Fin 16
  grade : Fin 8
  deriving DecidableEq, Repr

/-- An identity: a class, and an IP lot number when there is one (R26). -/
structure Identity where
  cls : GrainClass
  ip : Option Nat
  deriving DecidableEq, Repr

/-! ### Status codes (The Request Port and Stations, "Status codes") -/

inductive Status where
  | ok | clamped | tareOnly
  | format | unknownRequest | notEnabled | notPermitted | noSuch
  | state | busy | full | protect | sequence | notOwner | motion | uncal | noSpace | spec | mismatch
  deriving DecidableEq, Repr

/-- What the owning block answers to a request: a status and the payload its rule gives (R174). -/
structure Answer where
  status : Status
  payload : List Byte
  deriving DecidableEq, Repr

/-! ### Lots -/

inductive LotKind where
  | receiving | ip
  deriving DecidableEq, Repr

inductive LotState where
  | opened | closed
  deriving DecidableEq, Repr

/-- Lot hold reasons, in the order of R15. -/
inductive LotHold where
  | quality | regulatory | claim
  deriving DecidableEq, Repr

/-- A lot record (Lots, "The lot record"). -/
structure Lot where
  no : Nat
  kind : LotKind
  cls : GrainClass
  state : LotState
  received : Nat
  waterLoss : Nat
  handlingLoss : Nat
  shipped : Nat
  writtenOff : Nat
  standing : Nat
  intakeMoisture : Nat
  pendingTickets : Nat
  pendingEstimate : Nat
  layerCount : Nat
  portionCount : Nat
  manifestRefs : Nat
  ticketCount : Nat
  firstTicket : Option Nat
  lastTicket : Option Nat
  owner : Option Nat
  contract : Option (List Byte)
  hold : Option LotHold
  deriving DecidableEq, Repr

/-! ### Bins and Layers -/

/-- A layer of a bin's stack. -/
structure Layer where
  lot : Nat
  kg : Nat
  moisture : Nat
  testWeight : Nat
  deriving DecidableEq, Repr

/-- Who holds a reservation (R29). -/
inductive HolderRef where
  | ticket (number : Nat)
  | batch
  | transfer (id : Nat)
  deriving DecidableEq, Repr

structure Holder where
  who : HolderRef
  kg : Nat
  slots : Nat
  deriving DecidableEq, Repr

/-- The fill owner of a bin (R30). -/
inductive FillOwner where
  | none | intake | dryer
  | transfer (id : Nat)
  deriving DecidableEq, Repr

/-- Bin hold reasons, in the order of R37. -/
inductive BinHold where
  | fumigation | quality | regulatory | maintenance
  deriving DecidableEq, Repr

/-- The temperature fields of a bin record (Bin Temperature and Rotation Schedules). -/
structure TempFields where
  lastReading : Option Int
  readingTime : Option Nat
  baseline : Option Int
  hot : Bool
  stale : Bool
  staleTimer : Option Nat
  lastTurned : Option Nat
  deriving DecidableEq, Repr

/-- The living state of a bin record. Reserved kg, reserved slots, the fill owner, contents and OVERFULL are read
from these fields (R23, R28, R29, R30). Number, kind and layer capacity are fixed by the number (R22). -/
structure Bin where
  identity : Option Identity
  layers : List Layer
  holders : List Holder
  claim : Option Nat
  hold : Option BinHold
  temp : TempFields
  deriving DecidableEq, Repr

/-! ### Intake -/

/-- Channel status, in the order of R63's table and then NO_SIGNAL (R64). -/
inductive ChannelStatus where
  | overload | underload | stable | motion | noSignal
  deriving DecidableEq, Repr

structure Sample where
  counts : Int
  weight : Int
  deriving DecidableEq, Repr

/-- The living state of a scale channel. The window is oldest first; `signal` is the signal timer (R64). -/
structure Channel where
  window : List Sample
  lastSample : Option Nat
  signal : Option Nat
  status : ChannelStatus
  deriving DecidableEq, Repr

structure StoredTare where
  kg : Nat
  stamp : Nat
  deriving DecidableEq, Repr

/-- A vehicle registry entry (R68, R69). -/
structure Vehicle where
  tag : List Byte
  cls : Fin 4
  tare : Option StoredTare
  openTicket : Option Nat
  lastSeen : Nat
  deriving DecidableEq, Repr

structure Grade where
  cls : GrainClass
  moisture : Nat
  testWeight : Nat
  foreign : Nat
  ip : Option Nat
  deriving DecidableEq, Repr

inductive TicketState where
  | weighedIn | graded | assigned | dumped
  deriving DecidableEq, Repr

/-- What a ticket holds in ASSIGNED and DUMPED: destination, lot and estimate. -/
structure Assignment where
  dest : BinNo
  lot : Nat
  estimate : Nat
  deriving DecidableEq, Repr

/-- An open ticket. The gross timebase second is an integer: a warm start carries an age that may exceed the new
timebase (R83). -/
structure Ticket where
  number : Nat
  tag : List Byte
  scale : ChannelNo
  gross : Nat
  grossTime : Nat
  grossBase : Int
  singlePass : Bool
  grade : Option Grade
  assignment : Option Assignment
  state : TicketState
  deriving DecidableEq, Repr

/-- Outcomes of a settled ticket, in the order of R78's table. -/
inductive TicketOutcome where
  | normal | storedTare | estimatedTare | negativeNet | rejected | voided | expired
  deriving DecidableEq, Repr

inductive TareSource where
  | weighed | stored | default
  deriving DecidableEq, Repr

/-- The record a close or void is settled into (R78, R80). -/
structure Settlement where
  number : Nat
  tag : List Byte
  outcome : TicketOutcome
  gross : Nat
  tare : Option Nat
  source : Option TareSource
  net : Option Nat
  dest : Option BinNo
  lot : Option Nat
  time : Nat
  deriving DecidableEq, Repr

/-! ### The dryer -/

inductive DryerState where
  | off | warming | ready | drying | dischargeWait | discharging | suspended | fault
  deriving DecidableEq, Repr

inductive Phase where
  | wet | dried
  deriving DecidableEq, Repr

/-- A portion of the batch, or a piece a draw returns (R36, R89). -/
structure Portion where
  lot : Nat
  kg : Nat
  moisture : Nat
  testWeight : Nat
  deriving DecidableEq, Repr

structure Batch where
  tank : BinNo
  dest : BinNo
  identity : Identity
  target : Nat
  phase : Phase
  wetTotal : Nat
  dryEstimate : Nat
  outlet : Option Nat
  portions : List Portion
  deriving DecidableEq, Repr

/-- The drying timer: it runs in DRYING and is frozen elsewhere (R90). -/
structure DryingTimer where
  remaining : Nat
  expired : Bool
  deriving DecidableEq, Repr

structure Dryer where
  state : DryerState
  returnMark : Bool
  autoDischarge : Bool
  stopPending : Bool
  warmUp : Option Nat
  drying : Option DryingTimer
  discharge : Option Nat
  batch : Option Batch
  deriving DecidableEq, Repr

/-! ### Legs and transfers -/

inductive Origin where
  | station (n : StationNo)
  | dryer
  | schedule (e : EntryNo)
  deriving DecidableEq, Repr

inductive Source where
  | bin (b : BinNo)
  | dryer
  deriving DecidableEq, Repr

inductive Dest where
  | bin (b : BinNo)
  | berth (k : BerthNo)
  deriving DecidableEq, Repr

inductive Attr where
  | ordinary | yield | priority
  deriving DecidableEq, Repr

/-- The state of a transfer follows its slot (Legs and Transfers, "The transfer record"). -/
inductive TransferState where
  | buffered
  | cleanout (remaining : Nat)
  | running
  | suspended
  deriving DecidableEq, Repr

/-- The clamp flags of a transfer, in the order of the transfer record's table. -/
structure ClampFlags where
  source : Bool
  space : Bool
  hold : Bool
  spec : Bool
  draft : Bool
  position : Bool
  order : Bool
  manifest : Bool
  deriving DecidableEq, Repr

inductive EndReason where
  | complete | sourceEmpty | aborted | estop | hold | overdraft | berthHalt | reset | spec
  deriving DecidableEq, Repr

/-- A transfer. What it still holds reserved at a destination bin stands in that bin's holder list (DEDUCED, assumption
log 21). -/
structure Transfer where
  id : Nat
  origin : Origin
  source : Source
  dest : Dest
  target : Nat
  delivered : Nat
  overrun : Nat
  identity : Identity
  attr : Attr
  state : TransferState
  clamps : ClampFlags
  originalRemaining : Option Nat
  deriving DecidableEq, Repr

/-- A staged request (R105). A malformed request is never staged, so the source is a bin and the destination a
storage bin or a berth. -/
structure Staging where
  owner : StationNo
  source : BinNo
  dest : Dest
  kg : Nat
  attr : Attr
  deriving DecidableEq, Repr

inductive LastCarried where
  | unknown | clean
  | carried (i : Identity)
  deriving DecidableEq, Repr

structure Summary where
  id : Nat
  reason : EndReason
  delivered : Nat
  overrun : Nat
  clamps : ClampFlags
  deriving DecidableEq, Repr

inductive Slot where
  | active | buffered | suspended
  deriving DecidableEq, Repr

/-- A leg record. Its cleanout time is a setting, and its flags are those of its event group (R126). -/
structure Leg where
  active : Option Transfer
  buffered : Option Transfer
  suspended : Option Transfer
  staging : Option Staging
  lastCarried : LastCarried
  lastEnded : Option Summary
  deriving DecidableEq, Repr

/-- The limit a refused launch names (R111, R112, R155), in the order the rules introduce them. -/
inductive Limit where
  | hold | source | space | slots | manifest | spec
  deriving DecidableEq, Repr

/-! ### Rotation -/

inductive Condition where
  | always | ifHot | ifHotRebase
  | ifAge (days : Nat)
  deriving DecidableEq, Repr

inductive EntryState where
  | waiting | launched | ended
  deriving DecidableEq, Repr

/-- End reasons of a schedule entry, in the order of the end reason table. -/
inductive EntryEnd where
  | done | ended | hold | empty | state | mismatch | noSpace | sourceEmpty | aborted | estop
  deriving DecidableEq, Repr

inductive EntryOrigin where
  | set | auto
  deriving DecidableEq, Repr

/-- A schedule entry that holds a schedule. `remaining` none is FOREVER. -/
structure Entry where
  source : BinNo
  dest : BinNo
  leg : LegNo
  kg : Nat
  remaining : Option Nat
  done : Nat
  condition : Condition
  state : EntryState
  reason : Option EntryEnd
  inFlight : Option Nat
  origin : EntryOrigin
  deriving DecidableEq, Repr

/-! ### Berths and river -/

inductive HaltCause where
  | present | moored | disabled | overdraft | estop | reset
  deriving DecidableEq, Repr

/-- The berth states; a halted berth records its cause. -/
inductive BerthState where
  | vacant | assigned | ready | loading
  | halted (cause : HaltCause)
  | complete
  deriving DecidableEq, Repr

structure Barge where
  name : List Byte
  lightDraft : Nat
  tpc : Nat
  maxDraft : Nat
  deriving DecidableEq, Repr

structure LoadOrder where
  cls : GrainClass
  maxMoisture : Nat
  minTestWeight : Nat
  target : Nat
  deriving DecidableEq, Repr

structure Position where
  planned : Nat
  loaded : Nat
  deriving DecidableEq, Repr

/-- A manifest entry. -/
structure Manifested where
  lot : Nat
  kg : Nat
  deriving DecidableEq, Repr

/-- The berth's cargo: mass Q, moisture sum S, test-weight sum T. -/
structure Cargo where
  q : Nat
  s : Nat
  t : Nat
  deriving DecidableEq, Repr

/-- A berth record. `current` and `commanded` count positions from 1; `spoutTimer` runs while a move is pending. -/
structure Berth where
  present : Bool
  moored : Bool
  button : Bool
  enabled : Bool
  state : BerthState
  barge : Option Barge
  loadLimit : Nat
  overLimit : Bool
  order : Option LoadOrder
  plan : Option (List Position)
  current : Option Nat
  commanded : Option Nat
  movePending : Bool
  timeoutSelect : Nat
  spoutTimer : Option Nat
  cargo : Cargo
  manifest : List Manifested
  claim : Option Nat
  deriving DecidableEq, Repr

/-- The river stage record (Berths and Barge Loading). -/
structure River where
  stage : Int
  readingTime : Nat
  known : Bool
  stale : Bool
  staleTimer : Option Nat
  deriving DecidableEq, Repr

/-! ### Settings -/

/-- Station classes, in the order of The Request Port and Stations, "The station table". -/
inductive StationClass where
  | supervisor | scale | grader | dryer | scanner | loadout | gauge
  deriving DecidableEq, Repr

structure Station where
  cls : StationClass
  enabled : Bool
  deriving DecidableEq, Repr

structure BinSettings where
  capacity : Nat
  restricted : Bool
  autoTurn : Bool
  hotLimit : Int
  riseLimit : Int
  deriving DecidableEq, Repr

structure Calibration where
  calibrated : Bool
  zero : Int
  span : Nat
  division : Nat
  capacity : Nat
  deriving DecidableEq, Repr

structure ScaleSettings where
  cal : Calibration
  n : Nat
  band : Nat
  deriving DecidableEq, Repr

structure IntakeSettings where
  dryLimit : Vector Nat 16
  defaultTare : Vector Nat 4
  tareValidity : Nat
  ticketTimeout : Nat
  autoAssign : Bool
  deriving DecidableEq, Repr

structure DryerSettings where
  warmUp : Nat
  batchMax : Nat
  maxDrying : Nat
  floor : Nat
  handling : Nat
  tolerance : Nat
  dischargeLeg : LegNo
  deriving DecidableEq, Repr

structure RotationSettings where
  staleTime : Nat
  autoTurnLeg : LegNo
  deriving DecidableEq, Repr

structure RiverSettings where
  channelDepth : Nat
  clearance : Nat
  staleMargin : Nat
  staleTime : Nat
  deriving DecidableEq, Repr

/-- The settings image, and the working copy of it (Settings, Time and Start-up, "The settings image"). -/
structure Settings where
  stations : Vector Station 16
  bins : Vector BinSettings 42
  scales : Vector ScaleSettings 3
  intake : IntakeSettings
  lotSize : Nat
  dryer : DryerSettings
  cleanout : Vector Nat 4
  rotation : RotationSettings
  river : RiverSettings
  deriving DecidableEq, Repr

/-- An image bank: an image with its generation and its stored CRC-32 (R189, R190). -/
structure Bank where
  generation : Nat
  image : Settings
  crc : BitVec 32
  deriving DecidableEq, Repr

/-- A settings commit: idle, or writing an image with a generation into a bank (R189). -/
inductive Commit where
  | idle
  | writing (bank : Fin 2) (generation : Nat) (image : Settings)
  deriving DecidableEq, Repr

inductive CommitResult where
  | done | failed
  deriving DecidableEq, Repr

inductive StartKind where
  | warm | cold
  deriving DecidableEq, Repr

/-! ### Port and events -/

/-- The receiver (R173). `inFrame` holds the bytes collected after SYNC. -/
inductive Receiver where
  | hunting
  | inFrame (collected : List Byte)
  | closed
  deriving DecidableEq, Repr

/-- The response being sent (R172, R174). -/
structure Response where
  station : StationNo
  tag : Byte
  code : Byte
  status : Status
  payload : List Byte
  deriving DecidableEq, Repr

/-- An event group: its flags and its enables, one bit per flag (R181). -/
structure EventGroup where
  flags : BitVec 16
  enables : BitVec 16
  deriving DecidableEq, Repr

/-- A berth lamp (R163). -/
inductive Lamp where
  | off | on | flashing
  deriving DecidableEq, Repr

end Sys2Proof.Machine
end

