-- ==== Sys2Proof/Machine/Factory.lean ====
section
/-! DEFINITION. The factory values of every setting (Settings, Time and Start-up, "The settings image"), and the
values the records take after a cold start. -/

namespace Sys2Proof.Machine

/-- The factory station table (R180). -/
def factoryStations : Vector Station 16 :=
  #v[⟨.supervisor, true⟩, ⟨.scale, false⟩, ⟨.scale, false⟩, ⟨.scale, false⟩, ⟨.grader, false⟩, ⟨.dryer, false⟩,
     ⟨.scanner, false⟩, ⟨.loadout, false⟩, ⟨.loadout, false⟩, ⟨.gauge, false⟩, ⟨.supervisor, false⟩,
     ⟨.supervisor, false⟩, ⟨.supervisor, false⟩, ⟨.supervisor, false⟩, ⟨.supervisor, false⟩, ⟨.supervisor, false⟩]

/-- The factory bin settings: 2,000,000 kg for a storage bin and 300,000 kg for a tank (R46). -/
def factoryBin (b : BinNo) : BinSettings :=
  { capacity := if b.val < 40 then 2000000 else 300000, restricted := false, autoTurn := false,
    hotLimit := 280, riseLimit := 60 }

/-- The factory scale settings: not CALIBRATED, N 6 and band 1. The figures of an uncalibrated channel are
DESIGN CHOICE (assumption log 7). -/
def factoryScale : ScaleSettings :=
  { cal := { calibrated := false, zero := 0, span := 0, division := 0, capacity := 0 }, n := 6, band := 1 }

/-- The factory intake settings (R81). -/
def factoryIntake : IntakeSettings :=
  { dryLimit := Vector.replicate 16 155, defaultTare := #v[8000, 12000, 14000, 16000], tareValidity := 30,
    ticketTimeout := 240, autoAssign := false }

/-- The factory dryer settings (R100). -/
def factoryDryer : DryerSettings :=
  { warmUp := 600, batchMax := 40000, maxDrying := 5400, floor := 100, handling := 50, tolerance := 10,
    dischargeLeg := 3 }

/-- The factory values of every setting (R46, R81, R100, R128, R135, R167, R180). -/
def Settings.factory : Settings :=
  { stations := factoryStations, bins := Vector.ofFn factoryBin, scales := Vector.replicate 3 factoryScale,
    intake := factoryIntake, lotSize := 1000000, dryer := factoryDryer, cleanout := Vector.replicate 4 120,
    rotation := { staleTime := 86400, autoTurnLeg := 2 },
    river := { channelDepth := 270, clearance := 30, staleMargin := 20, staleTime := 1800 } }

/-- A bank whose stored CRC is 0, which is not that of its image: a bank the start-up check finds bad (R190). -/
def Bank.blank : Bank := { generation := 0, image := Settings.factory, crc := 0#32 }

/-- The temperature fields after a cold start (R146). -/
def TempFields.cold : TempFields :=
  { lastReading := none, readingTime := none, baseline := none, hot := false, stale := false, staleTimer := none,
    lastTurned := none }

/-- A bin after a cold start (R46). -/
def Bin.cold : Bin :=
  { identity := none, layers := [], holders := [], claim := none, hold := none, temp := TempFields.cold }

/-- A channel after every start (R83, R84; the last sample time is DESIGN CHOICE, assumption log 24). -/
def Channel.started : Channel := { window := [], lastSample := none, signal := none, status := .noSignal }

/-- The dryer after a cold start (R102). -/
def Dryer.cold : Dryer :=
  { state := .off, returnMark := false, autoDischarge := false, stopPending := false, warmUp := none, drying := none,
    discharge := none, batch := none }

/-- A leg after a cold start (R131). -/
def Leg.cold : Leg :=
  { active := none, buffered := none, suspended := none, staging := none, lastCarried := .unknown, lastEnded := none }

/-- The cargo of a berth that nothing has been loaded into. -/
def Cargo.zero : Cargo := { q := 0, s := 0, t := 0 }

/-- A berth after a cold start, with its lines as the start found them (R170). -/
def Berth.cold (present moored button : Bool) : Berth :=
  { present := present, moored := moored, button := button, enabled := false, state := .vacant, barge := none,
    loadLimit := 0, overLimit := false, order := none, plan := none, current := none, commanded := none,
    movePending := false, timeoutSelect := 0, spoutTimer := none, cargo := Cargo.zero, manifest := [], claim := none }

/-- The river stage record after a cold start: unknown and FRESH (R170). The stage and reading time of an unknown
record are DESIGN CHOICE (assumption log 7). -/
def River.cold : River := { stage := 0, readingTime := 0, known := false, stale := false, staleTimer := none }

/-- How many flags each event group has (R181). -/
def groupSize (g : Fin 11) : Nat :=
  match g.val with
  | 0 => 5
  | 1 => 5
  | 2 => 4
  | 3 => 8
  | 8 => 8
  | 9 => 8
  | 10 => 2
  | _ => 5

/-- The flag set with every flag of group g (R181). -/
def groupMask (g : Fin 11) : BitVec 16 := BitVec.ofNat 16 (2 ^ groupSize g - 1)

end Sys2Proof.Machine
end

