-- ==== Sys2Proof/Machine/State.lean ====
section
/-! DEFINITION. The state of the part, the reasons a step can stop, and the state after reset. -/

namespace Sys2Proof.Machine

/-- Why the part would stop with a fault. No rule of the manual stops the part: no meaning raises one. -/
inductive Fault where
  /-- Raised by nobody: the manual names no fault of the part. Safe. -/
  | none
  deriving DecidableEq, Repr

/-- Why a command has no meaning. -/
inductive Refusal where
  /-- A command whose meaning is not written yet, by its mnemonic. Safe. -/
  | notModelled (mnemonic : String)
  deriving DecidableEq, Repr

/-- Everything the manual gives the part. Output lines (LEG_RUN, DRYER_RUN, the lamps, ATTN, TX_ENABLE) and
BUFFER_FREE are read from it, each "exactly when" its rule says (R85, R103, R117, R163, R174, R186; DEDUCED, assumption log 20). -/
structure State where
  /-- Main power is on (R189, R192). -/
  powered : Bool
  /-- The working copy of the settings (R189, R190). -/
  settings : Settings
  /-- The two image banks of the store. -/
  bank0 : Bank
  bank1 : Bank
  /-- The current bank, when there is one (R190). -/
  currentBank : Option (Fin 2)
  commit : Commit
  /-- The result of the last commit since the start (R191). -/
  commitResult : Option CommitResult
  startKind : StartKind
  /-- Whether the last start loaded factory values (R191). -/
  defaulted : Bool
  /-- Timebase seconds since the last start. -/
  timebase : Nat
  terminalTime : Nat
  timeValid : Bool
  /-- Lot records in ascending order of number. -/
  lots : List Lot
  /-- The last assigned number (R1). -/
  lastLot : Nat
  bins : Vector Bin 42
  channels : Vector Channel 3
  /-- The registry in order of registration (R68). -/
  vehicles : List Vehicle
  /-- Open tickets in ascending order of number. -/
  tickets : List Ticket
  nextTicket : Nat
  lastClosed : Option Settlement
  lastExpired : Option Settlement
  dryer : Dryer
  legs : Vector Leg 4
  /-- The transfer id counter (R104). -/
  nextTransfer : Nat
  /-- The schedule entries; a free entry is none. -/
  schedules : Vector (Option Entry) 8
  berths : Vector Berth 2
  river : River
  /-- The eleven event groups by number (R181). -/
  events : Vector EventGroup 11
  receiver : Receiver
  /-- The response being sent; TX_ENABLE is asserted while there is one (R174; DESIGN CHOICE, assumption log 2). -/
  response : Option Response
  /-- Reset Part has been answered OK: a warm start follows the answer's last stop bit (R192). -/
  resetPending : Bool
  /-- Last states of the input lines that no berth owns (R171). -/
  estop : Bool
  resetLine : Bool
  backupLost : Bool
  /-- The model's own: how many free values have been read (DESIGN CHOICE, assumption log 8). -/
  freeCount : Nat
  /-- The model's own: the commands that are waiting, first in, first out (DESIGN CHOICE, assumption log 1). -/
  pending : List Instr
  deriving DecidableEq, Repr

/-- The flag sets after a cold start that loaded factory values: START_COLD and SETTINGS_DEFAULTED set, every
enable set (R187, R193). -/
def resetEvents : Vector EventGroup 11 :=
  Vector.ofFn fun g => { flags := if g.val = 0 then 6#16 else 0#16, enables := groupMask g }

/-- The part right after reset: a cold start of a part whose two banks are both found bad, with every input line
released or inactive but BACKUP_LOST, which a cold start finds asserted (R46, R84, R102, R131, R146, R170, R187,
R190 to R193). What the manual does not fix is DESIGN CHOICE (assumption
log 6 and 7). -/
def State.reset : State :=
  { powered := true, settings := Settings.factory, bank0 := Bank.blank, bank1 := Bank.blank, currentBank := none, commit := .idle,
    commitResult := none, startKind := .cold, defaulted := true, timebase := 0, terminalTime := 0, timeValid := false,
    lots := [], lastLot := 0, bins := Vector.replicate 42 Bin.cold, channels := Vector.replicate 3 Channel.started,
    vehicles := [], tickets := [], nextTicket := 1, lastClosed := none, lastExpired := none, dryer := Dryer.cold,
    legs := Vector.replicate 4 Leg.cold, nextTransfer := 1, schedules := Vector.replicate 8 none,
    berths := Vector.replicate 2 (Berth.cold false false false), river := River.cold, events := resetEvents,
    receiver := .hunting, response := none, resetPending := false, estop := false, resetLine := false,
    backupLost := true, freeCount := 0, pending := [] }

end Sys2Proof.Machine
end

