-- ==== Sys2Proof/Machine/Operands.lean ====
section
/-! DEFINITION. The field types of R175: how a value travels in an answer's payload, and how a request's payload is
decoded against its field list (R176). A decoder answers none where R176 answers FORMAT. -/

namespace Sys2Proof.Machine

/-! ### Values into bytes -/

/-- `w` bytes of `n`, least significant first (R172). -/
def le : Nat → Nat → List Byte
  | 0, _ => []
  | w + 1, n => BitVec.ofNat 8 n :: le w (n / 256)

/-- An unsigned field of `w` bytes. A value too large for the field is a free value (assumption log 9). -/
def unsigned (w n : Nat) : List Byte :=
  if n < 256 ^ w then le w n else le w (Config.oversizeField w n)

/-- A signed two's complement field of `w` bytes. A value outside it is a free value (assumption log 9). -/
def signed (w : Nat) (z : Int) : List Byte :=
  if -(256 ^ w : Nat) ≤ 2 * z ∧ 2 * z < (256 ^ w : Nat) then le w (z % (256 ^ w : Nat)).toNat
  else le w (Config.oversizeField w z)

/-- A count, a bin, leg, scale, station, entry, position or class part: 1 byte. -/
def small (n : Nat) : List Byte := unsigned 1 n
/-- Moisture, test weight, foreign material, draft, depth, days, minutes, owner account, layer count of a lot,
passes done, a lot number or a transfer id: 2 bytes. -/
def short (n : Nat) : List Byte := unsigned 2 n
/-- A mass: 4 bytes. -/
def mass (n : Nat) : List Byte := unsigned 4 n
/-- Seconds, terminal time, a ticket number, a ticket count or a span: 4 bytes. -/
def long (n : Nat) : List Byte := unsigned 4 n
/-- A temperature or a stage: signed, 2 bytes. -/
def degrees (z : Int) : List Byte := signed 2 z
/-- Scale counts and zero counts: signed, 3 bytes. -/
def counts (z : Int) : List Byte := signed 3 z
/-- A scale weight: signed, 4 bytes (assumption log 4). -/
def weight (z : Int) : List Byte := signed 4 z
/-- On/off, yes/no, present/absent: off, no and absent are 0. -/
def onOff (b : Bool) : List Byte := if b then [1#8] else [0#8]
/-- A flag set or an enable set: 2 bytes. -/
def flagSet (f : BitVec 16) : List Byte := le 2 f.toNat
/-- An optional field of `w` bytes: a presence byte, then the field, which is 0 when absent. -/
def optional {α : Type} (w : Nat) (f : α → List Byte) : Option α → List Byte
  | none => 0#8 :: le w 0
  | some a => 1#8 :: f a
/-- A list: a count, then the entries. -/
def listOf {α : Type} (f : α → List Byte) (xs : List α) : List Byte :=
  small xs.length ++ xs.flatMap f

/-! ### Enumerations, in the order their rules list the values (R175) -/

def Status.code : Status → Byte
  | .ok => 0x00#8 | .clamped => 0x01#8 | .tareOnly => 0x02#8
  | .format => 0x10#8 | .unknownRequest => 0x11#8 | .notEnabled => 0x12#8 | .notPermitted => 0x13#8
  | .noSuch => 0x14#8 | .state => 0x20#8 | .busy => 0x21#8 | .full => 0x22#8 | .protect => 0x23#8
  | .sequence => 0x24#8 | .notOwner => 0x25#8 | .motion => 0x26#8 | .uncal => 0x27#8 | .noSpace => 0x28#8
  | .spec => 0x29#8 | .mismatch => 0x2A#8

def LotKind.code : LotKind → Nat
  | .receiving => 0 | .ip => 1
def LotState.code : LotState → Nat
  | .opened => 0 | .closed => 1
def LotHold.code : LotHold → Nat
  | .quality => 0 | .regulatory => 1 | .claim => 2
def BinHold.code : BinHold → Nat
  | .fumigation => 0 | .quality => 1 | .regulatory => 2 | .maintenance => 3
def ChannelStatus.code : ChannelStatus → Nat
  | .overload => 0 | .underload => 1 | .stable => 2 | .motion => 3 | .noSignal => 4
def TicketState.code : TicketState → Nat
  | .weighedIn => 0 | .graded => 1 | .assigned => 2 | .dumped => 3
def TicketOutcome.code : TicketOutcome → Nat
  | .normal => 0 | .storedTare => 1 | .estimatedTare => 2 | .negativeNet => 3 | .rejected => 4 | .voided => 5
  | .expired => 6
def TareSource.code : TareSource → Nat
  | .weighed => 0 | .stored => 1 | .default => 2
def DryerState.code : DryerState → Nat
  | .off => 0 | .warming => 1 | .ready => 2 | .drying => 3 | .dischargeWait => 4 | .discharging => 5
  | .suspended => 6 | .fault => 7
def Phase.code : Phase → Nat
  | .wet => 0 | .dried => 1
def Attr.code : Attr → Nat
  | .ordinary => 0 | .yield => 1 | .priority => 2
def EndReason.code : EndReason → Nat
  | .complete => 0 | .sourceEmpty => 1 | .aborted => 2 | .estop => 3 | .hold => 4 | .overdraft => 5
  | .berthHalt => 6 | .reset => 7 | .spec => 8
def Slot.code : Slot → Nat
  | .active => 0 | .buffered => 1 | .suspended => 2
def Limit.code : Limit → Nat
  | .hold => 0 | .source => 1 | .space => 2 | .slots => 3 | .manifest => 4 | .spec => 5
def EntryState.code : EntryState → Nat
  | .waiting => 0 | .launched => 1 | .ended => 2
def EntryEnd.code : EntryEnd → Nat
  | .done => 0 | .ended => 1 | .hold => 2 | .empty => 3 | .state => 4 | .mismatch => 5 | .noSpace => 6
  | .sourceEmpty => 7 | .aborted => 8 | .estop => 9
def EntryOrigin.code : EntryOrigin → Nat
  | .set => 0 | .auto => 1
def HaltCause.code : HaltCause → Nat
  | .present => 0 | .moored => 1 | .disabled => 2 | .overdraft => 3 | .estop => 4 | .reset => 5
def BerthState.code : BerthState → Nat
  | .vacant => 0 | .assigned => 1 | .ready => 2 | .loading => 3 | .halted _ => 4 | .complete => 5
def Lamp.code : Lamp → Nat
  | .off => 0 | .on => 1 | .flashing => 2
def StationClass.code : StationClass → Nat
  | .supervisor => 0 | .scale => 1 | .grader => 2 | .dryer => 3 | .scanner => 4 | .loadout => 5 | .gauge => 6
def StartKind.code : StartKind → Nat
  | .warm => 0 | .cold => 1
def CommitResult.code : CommitResult → Nat
  | .done => 0 | .failed => 1

/-- A class travels as commodity then grade. -/
def encodeClass (c : GrainClass) : List Byte := small c.commodity.val ++ small c.grade.val
/-- An identity travels as a class followed by an IP lot number, 0 for none. -/
def encodeIdentity (i : Identity) : List Byte := encodeClass i.cls ++ short (i.ip.getD 0)
/-- A source byte: a bin number, or 0x40 for DRYER. -/
def encodeSource : Source → List Byte
  | .bin b => small b.val
  | .dryer => small 0x40
/-- A destination byte: a bin number, or 0x41 and 0x42 for berths A and B. -/
def encodeDest : Dest → List Byte
  | .bin b => small b.val
  | .berth k => small (0x41 + k.val)

/-! ### Bytes into values (R176) -/

/-- The number `w` bytes spell, least significant first. -/
def ofLe : List Byte → Nat
  | [] => 0
  | b :: bs => b.toNat + 256 * ofLe bs

/-- An unsigned field of `w` bytes, and what follows it. -/
def takeU (w : Nat) (p : List Byte) : Option (Nat × List Byte) :=
  if w ≤ p.length then some (ofLe (p.take w), p.drop w) else none

/-- A signed two's complement field of `w` bytes. -/
def takeI (w : Nat) (p : List Byte) : Option (Int × List Byte) := do
  let (n, p) ← takeU w p
  some (if 2 * n < 256 ^ w then (n : Int) else (n : Int) - (256 ^ w : Nat), p)

/-- A text of `w` characters. -/
def takeText (w : Nat) (p : List Byte) : Option (List Byte × List Byte) :=
  if w ≤ p.length then some (p.take w, p.drop w) else none

/-- An enumeration byte: the place of its value in the rule's list; a byte outside the list does not decode. -/
def takeEnum {α : Type} (values : List α) (p : List Byte) : Option (α × List Byte) := do
  let (n, p) ← takeU 1 p
  let a ← values[n]?
  some (a, p)

/-- An on/off or yes/no byte. -/
def takeOnOff (p : List Byte) : Option (Bool × List Byte) := takeEnum [false, true] p

/-- The end of the payload: a longer payload does not decode. -/
def takeEnd {α : Type} (a : α) (p : List Byte) : Option α :=
  match p with
  | [] => some a
  | _ :: _ => none

/-- A source or destination byte (R175): a bin number up to 0x3F, DRYER, or a berth; above 0x42 it does not
decode. -/
inductive Place where
  | bin (n : Nat)
  | dryer
  | berth (k : BerthNo)
  deriving DecidableEq, Repr

def takePlace (p : List Byte) : Option (Place × List Byte) := do
  let (n, p) ← takeU 1 p
  if n ≤ 0x3F then some (.bin n, p)
  else if n = 0x40 then some (.dryer, p)
  else if n = 0x41 then some (.berth 0, p)
  else if n = 0x42 then some (.berth 1, p)
  else none

/-- A list of `n` unsigned fields of `w` bytes. -/
def takeMany (w : Nat) : Nat → List Byte → Option (List Nat × List Byte)
  | 0, p => some ([], p)
  | n + 1, p => do
    let (x, p) ← takeU w p
    let (xs, p) ← takeMany w n p
    some (x :: xs, p)

def lotHolds : List LotHold := [.quality, .regulatory, .claim]
def binHolds : List BinHold := [.fumigation, .quality, .regulatory, .maintenance]
def attrs : List Attr := [.ordinary, .yield, .priority]
def slots : List Slot := [.active, .buffered, .suspended]
def stationClasses : List StationClass := [.supervisor, .scale, .grader, .dryer, .scanner, .loadout, .gauge]

/-- A request with no fields. -/
def decodeNothing (p : List Byte) : Option Unit := takeEnd () p

/-- A request whose one field is a number of `w` bytes. -/
def decodeOne (w : Nat) (p : List Byte) : Option Nat := do
  let (n, p) ← takeU w p
  takeEnd n p

/-- A request whose one field is a signed number of `w` bytes. -/
def decodeSigned (w : Nat) (p : List Byte) : Option Int := do
  let (n, p) ← takeI w p
  takeEnd n p

/-- Two unsigned fields. -/
def decodeTwo (v w : Nat) (p : List Byte) : Option (Nat × Nat) := do
  let (a, p) ← takeU v p
  let (b, p) ← takeU w p
  takeEnd (a, b) p

/-! ### Text -/

/-- The printable range 0x20 to 0x7E. -/
def printable (b : Byte) : Bool := 0x20 ≤ b.toNat && b.toNat ≤ 0x7E

/-- Whether a text is all spaces. -/
def allSpaces (t : List Byte) : Bool := t.all (· == 0x20#8)

/-- A vehicle tag: every character printable and not all spaces (Intake Scales and Tickets). -/
def goodTag (t : List Byte) : Bool := t.all printable && !allSpaces t

end Sys2Proof.Machine
end

