-- ==== Sys2Proof/Machine/Image.lean ====
section
/-! DEFINITION. The image banks: the bytes of an image, its CRC-32, and the choice of the image to load (R189, R190).
The manual does not give the layout of an image in its bank: the fields travel here as R175 encodes them, in the
order of the settings table (DESIGN CHOICE, assumption log 11). -/

namespace Sys2Proof.Machine

/-! ### The bytes of an image -/

def Station.bytes (x : Station) : List Byte := small x.cls.code ++ onOff x.enabled

def BinSettings.bytes (x : BinSettings) : List Byte :=
  mass x.capacity ++ onOff x.restricted ++ onOff x.autoTurn ++ degrees x.hotLimit ++ degrees x.riseLimit

def ScaleSettings.bytes (x : ScaleSettings) : List Byte :=
  onOff x.cal.calibrated ++ counts x.cal.zero ++ long x.cal.span ++ mass x.cal.division ++ mass x.cal.capacity ++
  small x.n ++ small x.band

def IntakeSettings.bytes (x : IntakeSettings) : List Byte :=
  x.dryLimit.toList.flatMap short ++ x.defaultTare.toList.flatMap mass ++ short x.tareValidity ++
  short x.ticketTimeout ++ onOff x.autoAssign

def DryerSettings.bytes (x : DryerSettings) : List Byte :=
  long x.warmUp ++ mass x.batchMax ++ long x.maxDrying ++ short x.floor ++ short x.handling ++ short x.tolerance ++
  small x.dischargeLeg.val

def RiverSettings.bytes (x : RiverSettings) : List Byte :=
  short x.channelDepth ++ short x.clearance ++ short x.staleMargin ++ long x.staleTime

/-- The image: stations 1 to 15 and every other setting, and nothing else. -/
def Settings.bytes (x : Settings) : List Byte :=
  (x.stations.toList.drop 1).flatMap Station.bytes ++ x.bins.toList.flatMap BinSettings.bytes ++
  x.scales.toList.flatMap ScaleSettings.bytes ++ x.intake.bytes ++ mass x.lotSize ++ x.dryer.bytes ++
  x.cleanout.toList.flatMap long ++ long x.rotation.staleTime ++ small x.rotation.autoTurnLeg.val ++ x.river.bytes

/-! ### The CRC-32 (R190) -/

/-- One bit of the CRC-32: polynomial 0x04C11DB7. -/
def crc32Bit (c : BitVec 32) (b : Bool) : BitVec 32 :=
  if c.msb != b then (c <<< 1) ^^^ 0x04C11DB7#32 else c <<< 1

/-- One byte, least significant bit first. -/
def crc32Byte (c : BitVec 32) (b : Byte) : BitVec 32 :=
  (List.range 8).foldl (fun d i => crc32Bit d (b.getLsbD i)) c

/-- The CRC-32 of a list of bytes: initial value 0xFFFFFFFF, the result reflected and then inverted (R190). -/
def crc32 (bs : List Byte) : BitVec 32 := (bs.foldl crc32Byte 0xFFFFFFFF#32).reverse ^^^ 0xFFFFFFFF#32

/-! ### Banks -/

/-- A bank is good when its stored CRC-32 is that of its image (R190). -/
def Bank.good (b : Bank) : Bool := b.crc == crc32 b.image.bytes

/-- A bank into which an image has been written and read back right. -/
def Bank.written (generation : Nat) (image : Settings) : Bank :=
  { generation := generation, image := image, crc := crc32 image.bytes }

/-- A bank whose write did not come to its end: its CRC is not that of its image. -/
def Bank.spoilt (generation : Nat) (image : Settings) : Bank :=
  { generation := generation, image := image, crc := ~~~ crc32 image.bytes }

/-- A generation is newer than another: the greater, but 1 is newer than 4,294,967,295 (R189). -/
def newerGeneration (a b : Nat) : Bool :=
  if a = 1 ∧ b = Config.maxGeneration then true
  else if a = Config.maxGeneration ∧ b = 1 then false
  else decide (b < a)

/-- The start-up check: the bank to load, and none when neither is good (R190). -/
def chooseBank (bank0 bank1 : Bank) : Option (Fin 2) :=
  match bank0.good, bank1.good with
  | true, true => some (if newerGeneration bank1.generation bank0.generation then 1 else 0)
  | true, false => some 0
  | false, true => some 1
  | false, false => none

/-- An image taken into the working copy: station 0 is SUPERVISOR and enabled whatever it holds (R180, R190). -/
def Settings.loaded (x : Settings) : Settings :=
  { x with stations := x.stations.set 0 { cls := .supervisor, enabled := true } }

end Sys2Proof.Machine
end

