-- ==== Sys2Proof/Machine/Compute.lean ====
section
/-! DEFINITION. The computations of Weights, Moisture and Limits (R48 to R61), in exact integer arithmetic (R47). -/

namespace Sys2Proof.Machine

/-! ### Clamps of measurements (R48) -/

def clampMoisture (n : Nat) : Nat := min n 400
def clampTestWeight (n : Nat) : Nat := min n 1000
def clampForeign (n : Nat) : Nat := min n 250
def clampTemperature (z : Int) : Int := max (-400) (min z 800)
def clampStage (z : Int) : Int := max (-500) (min z 2500)

/-! ### Scale conversion (R50, R51) -/

/-- p / q to the nearest whole number, halves away from zero. -/
def roundNearest (p : Int) (q : Nat) : Int :=
  let n : Int := ((2 * p.natAbs + q) / (2 * q) : Nat)
  if p < 0 then -n else n

/-- The weight of a sample of c counts (R50). -/
def convert (cal : Calibration) (c : Int) : Int :=
  roundNearest ((c - cal.zero) * cal.span) (1000000 * cal.division) * cal.division

def listMax (z : Int) (zs : List Int) : Int := zs.foldl max z
def listMin (z : Int) (zs : List Int) : Int := zs.foldl min z

/-- The weights of a window are within ±band divisions of one another (R51). -/
def withinBand (band division : Nat) (zs : List Int) : Bool :=
  match zs with
  | [] => true
  | z :: rest => listMax z rest - listMin z rest ≤ (band * division : Nat)

/-- The status a sample leaves, from the current weight and the window (R51, R63). -/
def sampleStatus (set : ScaleSettings) (window : List Sample) (current : Int) : ChannelStatus :=
  if current > (set.cal.capacity + 9 * set.cal.division : Nat) then .overload
  else if current < -(20 * set.cal.division : Nat) then .underload
  else if window.length = set.n ∧ withinBand set.band set.cal.division (window.map Sample.weight) then .stable
  else .motion

/-- The zero limit: 50 × |weight| ≤ capacity (R51). -/
def zeroLimit (cal : Calibration) (w : Int) : Bool := 50 * w.natAbs ≤ cal.capacity

/-- The mean of the raw counts of a window, halves away from zero (R51). -/
def newZero (window : List Sample) : Int :=
  roundNearest ((window.map Sample.counts).foldl (· + ·) 0) window.length

/-! ### Dryer shrink (R52 to R54) -/

/-- The effective outlet moisture of a portion (R52). -/
def effectiveMoisture (outlet inlet : Nat) : Nat := if outlet < inlet then outlet else inlet

/-- What the shrink of one portion gives (R53). -/
structure Shrink where
  moisture : Nat
  dry : Nat
  water : Nat
  handling : Nat
  deriving DecidableEq, Repr

/-- The shrink of W wet kilograms at inlet Mi under outlet Mo and handling shrink H (R52, R53). -/
def shrink (w inlet outlet h : Nat) : Shrink :=
  let me := effectiveMoisture outlet inlet
  let d1 := w * (1000 - inlet) / (1000 - me)
  let loss := (d1 * h + 5000) / 10000
  { moisture := me, dry := d1 - loss, water := w - d1, handling := loss }

/-- The outlet after the moisture floor (R52). -/
def floorOutlet (floor outlet : Nat) : Nat := if outlet < floor then floor else outlet

/-- The reservation estimate of a list of pieces at a target moisture (R54). -/
def dryEstimate (set : DryerSettings) (target : Nat) (ps : List Portion) : Nat :=
  (ps.map fun p => (shrink p.kg p.moisture (floorOutlet set.floor target) set.handling).dry).sum

/-! ### Weighted averages (R55) -/

/-- S / Q to the nearest tenth, halves up; absent when Q is 0. -/
def average (q sum : Nat) : Option Nat := if q = 0 then none else some ((sum + q / 2) / q)

/-! ### The blend limit (R56) -/

/-- Whether a layer passes the blend test whole. -/
def blendPasses (order : LoadOrder) (c : Cargo) (a m t : Nat) : Bool :=
  c.s + a * m ≤ order.maxMoisture * (c.q + a) && order.minTestWeight * (c.q + a) ≤ c.t + a * t

/-- The cut of a layer that fails the test: a numerator that is negative counts as 0. -/
def blendCut (order : LoadOrder) (c : Cargo) (a m t : Nat) : Nat :=
  let x := if order.maxMoisture < m then min a ((order.maxMoisture * c.q - c.s) / (m - order.maxMoisture)) else a
  if t < order.minTestWeight then min x ((c.t - order.minTestWeight * c.q) / (order.minTestWeight - t)) else x

/-- The cargo advanced by x kilograms (R57, R157). -/
def Cargo.add (c : Cargo) (x m t : Nat) : Cargo := { q := c.q + x, s := c.s + x * m, t := c.t + x * t }

/-! ### The load limit (R58, R59) -/

/-- The stage used for load limits; none before the first reading since a cold start (R59). -/
def stageUsed (set : RiverSettings) (r : River) : Option Int :=
  if r.known then some (if r.stale then r.stage - set.staleMargin else r.stage) else none

/-- The load limit of a barge (R58); 0 with no stage known (R59). -/
def loadLimitOf (set : RiverSettings) (r : River) (g : Barge) : Nat :=
  match stageUsed set r with
  | none => 0
  | some stage =>
    let da : Int := min (g.maxDraft : Int) (set.channelDepth + stage - set.clearance)
    if da > g.lightDraft then (da - g.lightDraft).toNat * g.tpc else 0

/-! ### Ages on terminal time (R61) -/

/-- The age of a stamp; none is unknown. -/
def ageOf (valid : Bool) (now stamp : Nat) : Option Nat :=
  if valid && stamp ≤ now then some (now - stamp) else none

end Sys2Proof.Machine
end

