-- ==== Sys2Proof/Machine/Flags.lean ====
section
/-! DEFINITION. Event flags (R181 to R186), and the lines and statuses that are read from the state. -/

namespace Sys2Proof.Machine

/-- An event flag: its group and its bit (R181). -/
structure Flag where
  group : Fin 11
  bit : Fin 16
  deriving DecidableEq, Repr

def flagStartWarm : Flag := ⟨0, 0⟩
def flagStartCold : Flag := ⟨0, 1⟩
def flagSettingsDefaulted : Flag := ⟨0, 2⟩
def flagCommitDone : Flag := ⟨0, 3⟩
def flagCommitFailed : Flag := ⟨0, 4⟩
def flagTicketExpired : Flag := ⟨1, 0⟩
def flagNoSpace : Flag := ⟨1, 1⟩
def flagReassign : Flag := ⟨1, 2⟩
def flagHeldDeposit : Flag := ⟨1, 3⟩
def flagScaleFault : Flag := ⟨1, 4⟩
def flagBinHot : Flag := ⟨2, 0⟩
def flagTempStale : Flag := ⟨2, 1⟩
def flagOverfull : Flag := ⟨2, 2⟩
def flagSourceShort : Flag := ⟨2, 3⟩
def flagDryerReady : Flag := ⟨3, 0⟩
def flagBatchDried : Flag := ⟨3, 1⟩
def flagUnderdried : Flag := ⟨3, 2⟩
def flagMoistClamp : Flag := ⟨3, 3⟩
def flagDryTimeout : Flag := ⟨3, 4⟩
def flagDryerFault : Flag := ⟨3, 5⟩
def flagDischargeHeld : Flag := ⟨3, 6⟩
def flagDischargeDone : Flag := ⟨3, 7⟩
/-- The event group of a leg: 4 to 7. -/
def legGroup (l : LegNo) : Fin 11 := ⟨4 + l.val, by omega⟩
def flagAllDone (l : LegNo) : Flag := ⟨legGroup l, 0⟩
def flagAbnormalEnd (l : LegNo) : Flag := ⟨legGroup l, 1⟩
def flagProtect (l : LegNo) : Flag := ⟨legGroup l, 2⟩
def flagSequence (l : LegNo) : Flag := ⟨legGroup l, 3⟩
def flagStopped (l : LegNo) : Flag := ⟨legGroup l, 4⟩
/-- The event group of a berth: 8 and 9. -/
def berthGroup (k : BerthNo) : Fin 11 := ⟨8 + k.val, by omega⟩
def flagPresentChanged (k : BerthNo) : Flag := ⟨berthGroup k, 0⟩
def flagMooringChanged (k : BerthNo) : Flag := ⟨berthGroup k, 1⟩
def flagButton (k : BerthNo) : Flag := ⟨berthGroup k, 2⟩
def flagSpoutDone (k : BerthNo) : Flag := ⟨berthGroup k, 3⟩
def flagSpoutTimeout (k : BerthNo) : Flag := ⟨berthGroup k, 4⟩
def flagOverdraft (k : BerthNo) : Flag := ⟨berthGroup k, 5⟩
def flagPositionFull (k : BerthNo) : Flag := ⟨berthGroup k, 6⟩
def flagOrderComplete (k : BerthNo) : Flag := ⟨berthGroup k, 7⟩
def flagStageStale : Flag := ⟨10, 0⟩
def flagScheduleEnded : Flag := ⟨10, 1⟩

/-- The flag set that holds one flag. -/
def Flag.mask (f : Flag) : BitVec 16 := BitVec.twoPow 16 f.bit.val

/-- An event group. -/
def State.group (s : State) (g : Fin 11) : EventGroup := s.events.get g

/-- Replaces an event group. -/
def State.setGroup (s : State) (g : Fin 11) (e : EventGroup) : State :=
  { s with events := s.events.set g.val e g.isLt }

/-- Whether a flag is set. -/
def State.flag (s : State) (f : Flag) : Bool := (s.group f.group).flags.getLsbD f.bit.val

/-- Sets a flag (R182). -/
def State.raise (f : Flag) (s : State) : State :=
  s.setGroup f.group { s.group f.group with flags := (s.group f.group).flags ||| f.mask }

/-- Sets a flag when a condition holds. -/
def State.raiseIf (c : Bool) (f : Flag) (s : State) : State := if c then s.raise f else s

/-- Clears the flags of a set in one group. -/
def State.lower (g : Fin 11) (m : BitVec 16) (s : State) : State :=
  s.setGroup g { s.group g with flags := (s.group g).flags &&& ~~~ m }

/-- Clears every event flag of every group; the enables are kept (R187). -/
def State.clearAllFlags (s : State) : State :=
  { s with events := Vector.ofFn fun g => { (s.events.get g) with flags := 0#16 } }

/-- Sets every enable of every group (R187). -/
def State.enableAll (s : State) : State :=
  { s with events := Vector.ofFn fun g => { (s.events.get g) with enables := groupMask g } }

/-- Whether a group holds an enabled flag that is set (R183). -/
def EventGroup.asks (e : EventGroup) : Bool := (e.flags &&& e.enables) != 0#16

/-- ATTN is asserted exactly while at least one flag is set whose enable is set (R186). -/
def State.attn (s : State) : Bool := s.events.toList.any EventGroup.asks

/-- DRYER_RUN (R85). -/
def State.dryerRun (s : State) : Bool :=
  !s.estop && (s.dryer.state == .warming || s.dryer.state == .ready || s.dryer.state == .drying)

/-- LEG_RUN of a leg: its ACTIVE slot holds a RUNNING transfer (R117). -/
def State.legRun (s : State) (l : LegNo) : Bool :=
  match (s.legs.get l).active with
  | some t => t.state == .running
  | none => false

/-- BUFFER_FREE of a leg: the ACTIVE or the BUFFERED slot is empty (R103). -/
def Leg.bufferFree (l : Leg) : Bool := l.active.isNone || l.buffered.isNone

/-- The lamp of a berth (R163). -/
def State.lamp (s : State) (k : BerthNo) : Lamp :=
  match (s.berths.get k).state with
  | .halted _ => .flashing
  | .vacant => if s.flag (flagButton k) then .flashing else .off
  | _ => if s.flag (flagButton k) then .flashing else .on

/-- TX_ENABLE (R174): asserted while a response is being sent. -/
def State.txEnable (s : State) : Bool := s.response.isSome

end Sys2Proof.Machine
end

