-- ==== Sys2Proof/Machine/Ops.lean ====
section
/-! DEFINITION. The named operations over the records: the tables of the state, the operations of the lot table
(R1 to R12), and the five operations of the bin table: reserve, release, deposit, draw, and the class rule (R23 to
R36). The draw plan stands in Plan.lean. -/

namespace Sys2Proof.Machine

/-! ### Records of the state -/

def State.bin (s : State) (b : BinNo) : Bin := s.bins.get b
def State.setBin (s : State) (b : BinNo) (x : Bin) : State := { s with bins := s.bins.set b.val x b.isLt }
def State.leg (s : State) (l : LegNo) : Leg := s.legs.get l
def State.setLeg (s : State) (l : LegNo) (x : Leg) : State := { s with legs := s.legs.set l.val x l.isLt }
def State.berth (s : State) (k : BerthNo) : Berth := s.berths.get k
def State.setBerth (s : State) (k : BerthNo) (x : Berth) : State := { s with berths := s.berths.set k.val x k.isLt }
def State.channel (s : State) (c : ChannelNo) : Channel := s.channels.get c
def State.setChannel (s : State) (c : ChannelNo) (x : Channel) : State :=
  { s with channels := s.channels.set c.val x c.isLt }
def State.entry (s : State) (e : EntryNo) : Option Entry := s.schedules.get e
def State.setEntry (s : State) (e : EntryNo) (x : Option Entry) : State :=
  { s with schedules := s.schedules.set e.val x e.isLt }

/-- The settings of a bin, a channel and a station in the working copy. -/
def State.binSet (s : State) (b : BinNo) : BinSettings := s.settings.bins.get b
def State.scaleSet (s : State) (c : ChannelNo) : ScaleSettings := s.settings.scales.get c
def State.station (s : State) (n : StationNo) : Station := s.settings.stations.get n

def State.setBinSet (s : State) (b : BinNo) (x : BinSettings) : State :=
  { s with settings := { s.settings with bins := s.settings.bins.set b.val x b.isLt } }
def State.setScaleSet (s : State) (c : ChannelNo) (x : ScaleSettings) : State :=
  { s with settings := { s.settings with scales := s.settings.scales.set c.val x c.isLt } }
def State.setStation (s : State) (n : StationNo) (x : Station) : State :=
  { s with settings := { s.settings with stations := s.settings.stations.set n.val x n.isLt } }

/-- While a settings commit is writing, a request that changes the working copy is answered BUSY (R189). -/
def State.committing (s : State) : Bool :=
  match s.commit with
  | .idle => false
  | .writing _ _ _ => true

/-- Whether the sending station has SUPERVISOR class (R25, R177). -/
def State.supervisor (s : State) (n : StationNo) : Bool := (s.station n).cls == .supervisor

/-! ### Answers -/

/-- The answer of the first check that fails, when one does: each check is whether it fails, and its code. Where
a rule gives no order, its checks stand in the order it lists them (DEDUCED, assumption log 5). -/
def firstFailure : List (Bool × Status) → Option Status
  | [] => none
  | (failed, code) :: rest => if failed then some code else firstFailure rest

/-- A refusal changes nothing and carries no fields (R174). -/
def refuse (code : Status) (s : State) : State × Answer := (s, ⟨code, []⟩)

/-- An OK answer with its fields. -/
def accept (payload : List Byte) (s : State) : State × Answer := (s, ⟨.ok, payload⟩)

/-- Refuses with the first failed check, or goes on. -/
def unlessFails (checks : List (Bool × Status)) (s : State) (go : State × Answer) : State × Answer :=
  match firstFailure checks with
  | some code => refuse code s
  | none => go

/-- The number `n` as an index below `k`, when it is one. -/
def index (k n : Nat) : Option (Fin k) := if h : n < k then some ⟨n, h⟩ else none

/-! ### The lot table -/

/-- The record of a lot number. -/
def State.lot? (s : State) (n : Nat) : Option Lot := s.lots.find? fun l => l.no == n

/-- Changes the record of a lot number. -/
def State.modLot (n : Nat) (f : Lot → Lot) (s : State) : State :=
  { s with lots := s.lots.map fun l => if l.no = n then f l else l }

/-- Puts a record into the table, in ascending order of number. -/
def insertLot (l : Lot) : List Lot → List Lot
  | [] => [l]
  | m :: rest => if l.no < m.no then l :: m :: rest else m :: insertLot l rest

/-- The record of a new lot (R3). -/
def newLot (n : Nat) (kind : LotKind) (c : GrainClass) : Lot :=
  { no := n, kind := kind, cls := c, state := .opened, received := 0, waterLoss := 0, handlingLoss := 0, shipped := 0,
    writtenOff := 0, standing := 0, intakeMoisture := 0, pendingTickets := 0, pendingEstimate := 0, layerCount := 0,
    portionCount := 0, manifestRefs := 0, ticketCount := 0, firstTicket := none, lastTicket := none, owner := none,
    contract := none, hold := none }

/-- The number after n, wrapping from `top` to 1. -/
def wrapNext (top n : Nat) : Nat := if n < top then n + 1 else 1

/-- The first of the numbers n, n + 1, … (wrapping from `top` to 1) that is not in use, within `fuel` steps
(R1, R70, R104). -/
def firstFree (used : List Nat) (top : Nat) : Nat → Nat → Nat
  | 0, n => n
  | fuel + 1, n => if used.contains n then firstFree used top fuel (wrapNext top n) else n

/-- The number a new RECEIVING lot takes (R1). -/
def State.nextLotNo (s : State) : Nat :=
  firstFree (s.lots.map Lot.no) Config.maxShortNo 513 (wrapNext Config.maxShortNo s.lastLot)

/-- The size check of an OPEN RECEIVING lot (R12). -/
def Lot.sizeCheck (size : Nat) (l : Lot) : Lot :=
  if l.kind = .receiving ∧ l.state = .opened ∧ size ≤ l.received + l.pendingEstimate then { l with state := .closed }
  else l

/-- What the lot table answers to a binding (R3, R4): refused, bound to a lot present, or bound to a lot to be
created under a number. -/
inductive BindResult where
  | refused (code : Status)
  | found (lot : Nat)
  | created (lot : Nat) (kind : LotKind)
  deriving DecidableEq, Repr

/-- The binding would pass the bound on received plus pending estimate (R3, R4). -/
def Lot.overBound (l : Lot) (estimate : Nat) : Bool :=
  Config.maxLotKg < l.received + l.pendingEstimate + estimate

/-- The lot check of an assignment (R3, R4). -/
def State.bindCheck (s : State) (g : Grade) (estimate : Nat) : BindResult :=
  match g.ip with
  | none =>
    match s.lots.find? fun l => l.kind == LotKind.receiving && l.state == LotState.opened && l.cls == g.cls with
    | some l =>
      if l.hold.isSome then .refused .protect
      else if l.overBound estimate then .refused .full
      else .found l.no
    | none => if Config.maxLots ≤ s.lots.length then .refused .full else .created s.nextLotNo .receiving
  | some n =>
    match s.lot? n with
    | some l =>
      if l.kind ≠ .ip ∨ l.cls ≠ g.cls then .refused .mismatch
      else if l.state ≠ .opened then .refused .state
      else if l.hold.isSome then .refused .protect
      else if l.overBound estimate then .refused .full
      else .found n
    | none => if Config.maxLots ≤ s.lots.length then .refused .full else .created n .ip

/-- The lot a binding names. -/
def BindResult.lot : BindResult → Nat
  | .refused _ => 0
  | .found n => n
  | .created n _ => n

/-- Binds a ticket: creates the lot when it is new, raises its pending figures and makes the size check
(R1, R3, R4, R12). -/
def State.bindTo (r : BindResult) (c : GrainClass) (estimate : Nat) (s : State) : State :=
  let s1 := match r with
    | BindResult.created n kind =>
      { s with
        lots := insertLot (newLot n kind c) s.lots
        lastLot := if kind = LotKind.receiving then n else s.lastLot }
    | _ => s
  s1.modLot r.lot fun l =>
    { l with pendingTickets := l.pendingTickets + 1, pendingEstimate := l.pendingEstimate + estimate }.sizeCheck
      s1.settings.lotSize

/-- Ends a binding (R5). -/
def Lot.unbind (estimate : Nat) (l : Lot) : Lot :=
  { l with pendingTickets := l.pendingTickets - 1, pendingEstimate := l.pendingEstimate - estimate }

/-- The credit of a closing ticket, which ends its binding (R7), and the size check after it (R12; DEDUCED, assumption
log 22). -/
def Lot.credit (net moisture ticket estimate size : Nat) (l : Lot) : Lot :=
  ({ l with
    received := l.received + net
    standing := l.standing + net
    intakeMoisture := l.intakeMoisture + net * moisture
    ticketCount := l.ticketCount + 1
    firstTicket := some (l.firstTicket.getD ticket)
    lastTicket := some ticket }.unbind estimate).sizeCheck size

/-- Posts the losses of a dried portion (R8). -/
def Lot.lose (water handling : Nat) (l : Lot) : Lot :=
  { l with
    waterLoss := l.waterLoss + water
    handlingLoss := l.handlingLoss + handling
    standing := l.standing - (water + handling) }

/-- Posts kilograms shipped (R9). -/
def Lot.ship (kg : Nat) (l : Lot) : Lot := { l with shipped := l.shipped + kg, standing := l.standing - kg }

/-- Posts kilograms written off with a layer that leaves its stack (R9, R10, R42). -/
def Lot.writeOff (kg : Nat) (l : Lot) : Lot :=
  { l with writtenOff := l.writtenOff + kg, standing := l.standing - kg, layerCount := l.layerCount - 1 }

/-- A layer naming the lot is created, or leaves a stack (R10). -/
def Lot.addLayer (l : Lot) : Lot := { l with layerCount := l.layerCount + 1 }
def Lot.dropLayer (l : Lot) : Lot := { l with layerCount := l.layerCount - 1 }
/-- A portion of the lot is created, or removed (R10). -/
def Lot.addPortion (l : Lot) : Lot := { l with portionCount := l.portionCount + 1 }
def Lot.dropPortion (l : Lot) : Lot := { l with portionCount := l.portionCount - 1 }
/-- A manifest entry of the lot is created, or cleared (R11). -/
def Lot.addManifest (l : Lot) : Lot := { l with manifestRefs := l.manifestRefs + 1 }
def Lot.dropManifest (l : Lot) : Lot := { l with manifestRefs := l.manifestRefs - 1 }

/-- Whether a lot is under a lot hold (R16). -/
def State.lotHeld (s : State) (n : Nat) : Bool :=
  match s.lot? n with
  | some l => l.hold.isSome
  | none => false

/-! ### Bins: what is read from a record -/

/-- Numbers 40 and 41 are wet tanks (R22). -/
def isTank (b : BinNo) : Bool := 40 ≤ b.val

/-- 12 layers for a storage bin, 32 for a tank (R22). -/
def layerCapacity (b : BinNo) : Nat := if isTank b then 32 else 12

/-- The sum of the layer quantities (R28). -/
def Bin.contents (x : Bin) : Nat := (x.layers.map Layer.kg).sum
def Bin.reservedKg (x : Bin) : Nat := (x.holders.map Holder.kg).sum
def Bin.reservedSlots (x : Bin) : Nat := (x.holders.map Holder.slots).sum

/-- The fill owner follows the reservation holders (R30). -/
def Bin.fillOwner (x : Bin) : FillOwner :=
  match x.holders with
  | [] => .none
  | h :: _ =>
    match h.who with
    | .ticket _ => .intake
    | .batch => .dryer
    | .transfer id => .transfer id

/-- What a holder holds reserved. -/
def Bin.held (x : Bin) (who : HolderRef) : Option Holder := x.holders.find? fun h => h.who == who

/-- Capacity less contents less reserved kg, never below 0. -/
def State.freeSpace (s : State) (b : BinNo) : Nat :=
  (s.binSet b).capacity - ((s.bin b).contents + (s.bin b).reservedKg)

/-- Layer capacity less layers less reserved slots. -/
def State.freeSlots (s : State) (b : BinNo) : Nat :=
  layerCapacity b - ((s.bin b).layers.length + (s.bin b).reservedSlots)

/-- A bin is OVERFULL while its contents exceed its capacity (R23). -/
def State.overfull (s : State) (b : BinNo) : Bool := (s.binSet b).capacity < (s.bin b).contents

/-- Sets OVERFULL when the condition has appeared (R23). -/
def State.noteOverfull (before : Bool) (b : BinNo) (s : State) : State :=
  s.raiseIf (!before && s.overfull b) flagOverfull

/-- A feed agrees with a bin that is UNASSIGNED or has the feed's class and IP lot (R26). -/
def Bin.agrees (x : Bin) (i : Identity) : Bool :=
  match x.identity with
  | none => true
  | some j => j == i

/-- A bin with no layer, no holder and no claim returns to UNASSIGNED (R27). -/
def Bin.reevaluate (x : Bin) : Bin :=
  if x.layers = [] ∧ x.holders = [] ∧ x.claim = none then { x with identity := none } else x

/-- The class rule of R27 at one bin. -/
def State.reevaluate (b : BinNo) (s : State) : State := s.setBin b (s.bin b).reevaluate

/-! ### Reservations (R29 to R31) -/

/-- Whether the fill owner permits a new holder (R30). -/
def FillOwner.permits (o : FillOwner) (who : HolderRef) : Bool :=
  match o, who with
  | .none, _ => true
  | .intake, .ticket _ => true
  | _, _ => false

/-- The checks of a reserve, in order (R29). -/
def State.reserveChecks (s : State) (b : BinNo) (who : HolderRef) (i : Identity) (kg slotsAsked : Nat) :
    List (Bool × Status) :=
  [((s.bin b).hold.isSome, .protect),
   (!(s.bin b).agrees i, .mismatch),
   (!(s.bin b).fillOwner.permits who, .busy),
   (decide (s.freeSpace b < kg ∨ s.freeSlots b < slotsAsked), .noSpace)]

/-- The effect of a granted reserve: the holder joins the list, and an UNASSIGNED bin takes its identity (R26, R29). -/
def Bin.reserveFor (x : Bin) (who : HolderRef) (i : Identity) (kg slotsAsked : Nat) : Bin :=
  { x with
    identity := some (x.identity.getD i)
    holders := x.holders ++ [{ who := who, kg := kg, slots := slotsAsked }] }

/-- The reserve operation (R29): a refused reserve changes nothing. -/
def State.reserve (b : BinNo) (who : HolderRef) (i : Identity) (kg slotsAsked : Nat) (s : State) : State :=
  match firstFailure (s.reserveChecks b who i kg slotsAsked) with
  | some _ => s
  | none => s.setBin b ((s.bin b).reserveFor who i kg slotsAsked)

/-- The release operation (R31): the holder leaves the list with what it still holds, and the class is
re-evaluated. -/
def State.release (b : BinNo) (who : HolderRef) (s : State) : State :=
  s.setBin b { s.bin b with holders := (s.bin b).holders.filter fun h => h.who != who }.reevaluate

/-- Renames a holder in place: the hand-over of the dryer batch's reservation, and the hand-back (R31). -/
def State.handOver (b : BinNo) (old new : HolderRef) (s : State) : State :=
  s.setBin b { s.bin b with
    holders := (s.bin b).holders.map fun h => if h.who = old then { h with who := new } else h }

/-- Changes the first holder of a name in a list. -/
def modFirst (who : HolderRef) (f : Holder → Holder) : List Holder → List Holder
  | [] => []
  | h :: rest => if h.who = who then f h :: rest else h :: modFirst who f rest

/-- Changes a holder's entry: a holder stands in a bin's list once (R29). -/
def Bin.modHolder (who : HolderRef) (f : Holder → Holder) (x : Bin) : Bin :=
  { x with holders := modFirst who f x.holders }

/-! ### Claims (R32) -/

/-- A source claim is granted on a bin with no hold, no claim and a fill owner other than TRANSFER (R32). -/
def Bin.claimChecks (x : Bin) : List (Bool × Status) :=
  [(x.hold.isSome, .protect),
   (x.claim.isSome || (match x.fillOwner with | .transfer _ => true | _ => false), .busy)]

/-- Takes a source claim (R32); a refused claim changes nothing. The bin has the feed's class already: it holds the
grain. -/
def State.takeClaim (b : BinNo) (id : Nat) (s : State) : State :=
  match firstFailure (s.bin b).claimChecks with
  | some _ => s
  | none => s.setBin b { s.bin b with claim := some id }

/-- Releases a transfer's source claim on a bin, and re-evaluates the class (R32). -/
def State.dropClaim (b : BinNo) (id : Nat) (s : State) : State :=
  if (s.bin b).claim = some id then s.setBin b { s.bin b with claim := none }.reevaluate else s

/-! ### Deposit (R33) -/

/-- A deposit merges into a top layer of the same lot, moisture and test weight that is not the layer drawn from. -/
def Layer.merges (top : Layer) (p : Portion) : Bool :=
  top.lot == p.lot && top.moisture == p.moisture && top.testWeight == p.testWeight

/-- The deposit operation (R33), on behalf of a holder; `fromTop` says that the top layer is the layer the grain
was drawn from. None is not placed: the bin and the lot are unchanged. -/
def State.deposit (b : BinNo) (who : HolderRef) (p : Portion) (fromTop : Bool) (s : State) : Option State :=
  let x := s.bin b
  let wasOver := s.overfull b
  match x.layers.getLast? with
  | some top =>
    if top.merges p && !fromTop then
      some ((s.setBin b { x with layers := x.layers.dropLast ++ [{ top with kg := top.kg + p.kg }] }).noteOverfull wasOver b)
    else newLayer x wasOver
  | none => newLayer x wasOver
where
  /-- A new layer uses one of the holder's slots; with none left the deposit is not made. -/
  newLayer (x : Bin) (wasOver : Bool) : Option State :=
    match x.held who with
    | some h =>
      if h.slots = 0 then none
      else
        let y := x.modHolder who fun h => { h with slots := h.slots - 1 }
        let y := { y with
          layers := x.layers ++ [{ lot := p.lot, kg := p.kg, moisture := p.moisture, testWeight := p.testWeight }] }
        some (((s.setBin b y).modLot p.lot Lot.addLayer).noteOverfull wasOver b)
    | none => none

/-! ### Draw (R36) -/

/-- The pieces a draw of q kilograms takes from a stack, bottom first, and the stack left. -/
def drawLayers : List Layer → Nat → List Portion × List Layer
  | [], _ => ([], [])
  | l :: rest, q =>
    if q = 0 then ([], l :: rest)
    else if l.kg ≤ q then
      let r := drawLayers rest (q - l.kg)
      ({ lot := l.lot, kg := l.kg, moisture := l.moisture, testWeight := l.testWeight } :: r.1, r.2)
    else
      ([{ lot := l.lot, kg := q, moisture := l.moisture, testWeight := l.testWeight }],
        { l with kg := l.kg - q } :: rest)

/-- The lots of the layers a draw empties. -/
def emptiedLots (before after : List Layer) : List Nat :=
  (before.take (before.length - after.length)).map Layer.lot

/-- The draw operation (R36): the pieces, and the state with the layers emptied removed from the stack and from
their lots' layer counts, and the class re-evaluated. -/
def State.draw (b : BinNo) (q : Nat) (s : State) : List Portion × State :=
  let x := s.bin b
  let r := drawLayers x.layers q
  let s1 := (emptiedLots x.layers r.2).foldl (fun t n => t.modLot n Lot.dropLayer) s
  (r.1, s1.setBin b { x with layers := r.2 }.reevaluate)

/-- A layer emptied by a self-turn frees a slot that goes back to the transfer (R36, R120). -/
def State.returnSlots (b : BinNo) (who : HolderRef) (n : Nat) (s : State) : State :=
  s.setBin b ((s.bin b).modHolder who fun h => { h with slots := h.slots + n })

/-! ### Vehicles, tickets and transfers -/

def State.vehicle? (s : State) (tag : List Byte) : Option Vehicle := s.vehicles.find? fun v => v.tag == tag

def State.modVehicle (tag : List Byte) (f : Vehicle → Vehicle) (s : State) : State :=
  { s with vehicles := s.vehicles.map fun v => if v.tag = tag then f v else v }

def State.ticket? (s : State) (n : Nat) : Option Ticket := s.tickets.find? fun t => t.number == n

def State.modTicket (n : Nat) (f : Ticket → Ticket) (s : State) : State :=
  { s with tickets := s.tickets.map fun t => if t.number = n then f t else t }

/-- Puts a ticket into the table, in ascending order of number. -/
def insertTicket (t : Ticket) : List Ticket → List Ticket
  | [] => [t]
  | u :: rest => if t.number < u.number then t :: u :: rest else u :: insertTicket t rest

/-- The age of a ticket in seconds of the timebase. -/
def State.ticketAge (s : State) (t : Ticket) : Int := s.timebase - t.grossBase

/-- The transfer in a slot. -/
def Leg.slot (l : Leg) : Slot → Option Transfer
  | .active => l.active
  | .buffered => l.buffered
  | .suspended => l.suspended

def Leg.setSlot (l : Leg) (k : Slot) (t : Option Transfer) : Leg :=
  match k with
  | .active => { l with active := t }
  | .buffered => { l with buffered := t }
  | .suspended => { l with suspended := t }

/-- The slots in the order ends are made: ACTIVE, then SUSPENDED, then BUFFERED (R122). -/
def endOrder : List Slot := [.active, .suspended, .buffered]

def allLegs : List LegNo := [0, 1, 2, 3]
def allBerths : List BerthNo := [0, 1]
def allEntries : List EntryNo := [0, 1, 2, 3, 4, 5, 6, 7]
def allStations : List StationNo := [0, 1, 2, 3, 4, 5, 6, 7, 8, 9, 10, 11, 12, 13, 14, 15]
def allBins : List BinNo := List.finRange 42
def allChannels : List ChannelNo := [0, 1, 2]

/-- The ids of the live transfers (R104). -/
def State.liveIds (s : State) : List Nat :=
  allLegs.flatMap fun l => endOrder.filterMap fun k => ((s.leg l).slot k).map Transfer.id

/-- Where a live transfer stands. -/
def State.findTransfer (s : State) (id : Nat) : Option (LegNo × Slot) :=
  (allLegs.flatMap fun l => endOrder.map fun k => (l, k)).find? fun p =>
    match (s.leg p.1).slot p.2 with
    | some t => t.id == id
    | none => false

/-- The age of a stamp on terminal time (R61). -/
def State.age (s : State) (stamp : Nat) : Option Nat := ageOf s.timeValid s.terminalTime stamp

end Sys2Proof.Machine
end

