-- ==== Sys2Proof/Machine/Plan.lean ====
section
/-! DEFINITION. The draw plan (R34, R35) with the berth's limits on it (R56, R57, R155). -/

namespace Sys2Proof.Machine

/-- What stopped a plan (R35); a berth limit is the blend limit (`spec`) or the manifest limit. -/
inductive PlanCause where
  | met | sourceEnd | boundary | heldLot | layerCap | spec | manifest
  deriving DecidableEq, Repr

/-- A draw plan: the pieces it would take, bottom first, and the cause that stopped it. -/
structure Plan where
  pieces : List Portion
  cause : PlanCause
  deriving DecidableEq, Repr

/-- The granted quantity (R34). -/
def Plan.granted (p : Plan) : Nat := (p.pieces.map Portion.kg).sum
/-- The number of layers touched, counting a partial layer (R34). -/
def Plan.touched (p : Plan) : Nat := p.pieces.length

/-- The per-layer destination limit of a berth as the plan has advanced it: the order, the cargo, and the lots that
are in the manifest or in a layer already taken (R57, R155). -/
structure BerthBound where
  order : LoadOrder
  cargo : Cargo
  lots : List Nat
  deriving DecidableEq, Repr

/-- The layer's lot would need a 17th manifest entry (R155). -/
def BerthBound.full (d : BerthBound) (lot : Nat) : Bool := !d.lots.contains lot && Config.maxManifest ≤ d.lots.length

/-- The limit after x kilograms of a layer have been taken (R57). -/
def BerthBound.advance (d : BerthBound) (l : Layer) (x : Nat) : BerthBound :=
  { d with
    cargo := d.cargo.add x l.moisture l.testWeight
    lots := if d.lots.contains l.lot then d.lots else d.lots ++ [l.lot] }

/-- x kilograms of a layer as a piece. -/
def Layer.piece (l : Layer) (x : Nat) : Portion :=
  { lot := l.lot, kg := x, moisture := l.moisture, testWeight := l.testWeight }

/-- The amount available at a layer: the least of its quantity, the request still unfilled, and the boundary still
unused (R34). -/
def available (l : Layer) (request : Nat) (boundary : Option Nat) : Nat :=
  match boundary with
  | none => min l.kg request
  | some b => min (min l.kg request) b

/-- A plan that takes one more piece below it. -/
def Plan.above (x : Portion) (p : Plan) : Plan := { p with pieces := x :: p.pieces }

/-- The walk of R34 from the bottom layer upward: `layers` is the layer limit still left, `boundary` the boundary
still unused, `berth` the destination limit. -/
def planWalk (held : Nat → Bool) : List Layer → Nat → Option Nat → Option Nat → Option BerthBound → Plan
  | [], request, _, boundary, _ =>
    ⟨[], if request = 0 then .met else if boundary = some 0 then .boundary else .sourceEnd⟩
  | l :: rest, request, layers, boundary, berth =>
    if request = 0 then ⟨[], .met⟩
    else if boundary = some 0 then ⟨[], .boundary⟩
    else if held l.lot then ⟨[], .heldLot⟩
    else if layers = some 0 then ⟨[], .layerCap⟩
    else
      let a := available l request boundary
      let next (d : Option BerthBound) : Plan :=
        if a < l.kg then ⟨[l.piece a], if a = request then .met else .boundary⟩
        else (planWalk held rest (request - a) (layers.map (· - 1)) (boundary.map (· - a)) d).above (l.piece a)
      match berth with
      | none => next none
      | some d =>
        if d.full l.lot then ⟨[], .manifest⟩
        else if blendPasses d.order d.cargo a l.moisture l.testWeight then next (some (d.advance l a))
        else
          let x := blendCut d.order d.cargo a l.moisture l.testWeight
          if x = 0 then ⟨[], .spec⟩ else ⟨[l.piece x], if x = request then .met else .spec⟩

/-- A draw plan on a bin (R34). An UNASSIGNED bin holds no grain (R110). -/
def State.planBin (s : State) (b : BinNo) (request : Nat) (layers boundary : Option Nat) (berth : Option BerthBound) :
    Plan :=
  match (s.bin b).identity with
  | none => ⟨[], .sourceEnd⟩
  | some _ => planWalk s.lotHeld (s.bin b).layers request layers boundary berth

/-! ### Clamp flags -/

def ClampFlags.none : ClampFlags :=
  { source := false, space := false, hold := false, spec := false, draft := false, position := false, order := false,
    manifest := false }

/-- The flags of both. -/
def ClampFlags.union (a b : ClampFlags) : ClampFlags :=
  { source := a.source || b.source, space := a.space || b.space, hold := a.hold || b.hold, spec := a.spec || b.spec,
    draft := a.draft || b.draft, position := a.position || b.position, order := a.order || b.order,
    manifest := a.manifest || b.manifest }

/-- The clamp flags as a flag set, in the order of the transfer record's table (R175). -/
def ClampFlags.bits (c : ClampFlags) : BitVec 16 :=
  BitVec.ofNat 16 (c.source.toNat + 2 * c.space.toNat + 4 * c.hold.toNat + 8 * c.spec.toNat + 16 * c.draft.toNat +
    32 * c.position.toNat + 64 * c.order.toNat + 128 * c.manifest.toNat)

/-- The clamp flag of a plan's cause (R35, R155). -/
def PlanCause.clamps : PlanCause → ClampFlags
  | .met | .layerCap => ClampFlags.none
  | .sourceEnd | .boundary => { ClampFlags.none with source := true }
  | .heldLot => { ClampFlags.none with hold := true }
  | .spec => { ClampFlags.none with spec := true }
  | .manifest => { ClampFlags.none with manifest := true }

/-- The refusal of a plan that grants 0, with the limit that stopped it (R111, R155). -/
def PlanCause.refusal : PlanCause → Status × Limit
  | .heldLot => (.protect, .hold)
  | .spec => (.spec, .spec)
  | .manifest => (.noSpace, .manifest)
  | .met | .layerCap | .sourceEnd | .boundary => (.noSpace, .source)

end Sys2Proof.Machine
end

