-- ==== Sys2Proof/Machine/BerthOps.lean ====
section
/-! DEFINITION. The berth's own operations: READY (R151), the completion test (R160), halting (R159), the load limit
(R166), the figures and limits of a berth plan (R60, R155), and the loading of a piece (R157). -/

namespace Sys2Proof.Machine

/-- The entry of the current position. -/
def Berth.currentPosition (b : Berth) : Option Position :=
  match b.plan, b.current with
  | some ps, some n => if n = 0 then none else ps[n - 1]?
  | _, _ => none

/-- The READY conditions (R151). -/
def Berth.readyConditions (b : Berth) : Bool :=
  match b.order, b.currentPosition with
  | some o, some p =>
    b.present && b.moored && b.enabled && !b.movePending && decide (p.loaded < p.planned) &&
      decide (b.cargo.q < b.loadLimit) && decide (b.cargo.q < o.target)
  | _, _ => false

/-- READY is re-evaluated: a berth with a barge record in ASSIGNED or READY takes the state its conditions give
(R151). -/
def Berth.settleReady (b : Berth) : Berth :=
  if b.barge.isSome ∧ (b.state = .assigned ∨ b.state = .ready) then
    { b with state := if b.readyConditions then .ready else .assigned }
  else b

def State.settleReady (k : BerthNo) (s : State) : State := s.setBerth k (s.berth k).settleReady

/-- The cargo is at or above the order target, or every position is full (R160). -/
def Berth.completed (b : Berth) : Bool :=
  (match b.order with
    | some o => decide (o.target ≤ b.cargo.q)
    | none => false) ||
  (match b.plan with
    | some ps => ps.all fun p => decide (p.planned ≤ p.loaded)
    | none => false)

/-- The completion test (R160). -/
def State.completionTest (k : BerthNo) (s : State) : State :=
  let b := s.berth k
  if b.completed then (s.setBerth k { b with state := .complete }).raise (flagOrderComplete k)
  else s.setBerth k { b with state := .assigned }.settleReady

/-- A new order or plan in COMPLETE is tested for completion at once (R150); in any other state READY is
re-evaluated (R151). -/
def State.orderChanged (k : BerthNo) (s : State) : State :=
  let b := s.berth k
  if b.state = .complete then
    if b.completed then s else s.setBerth k { b with state := .assigned }.settleReady
  else s.settleReady k

/-- The berth enters HALTED and records the cause (R159). -/
def State.haltBerth (k : BerthNo) (cause : HaltCause) (s : State) : State :=
  s.setBerth k { s.berth k with state := .halted cause }

/-- The berth is told the end of its transfer, its claim already released (R160). A RESET end leaves a berth that is
not LOADING as it was (R169 over R160; DEDUCED, assumption log 27). -/
def State.berthEnd (k : BerthNo) (reason : EndReason) (s : State) : State :=
  let b := s.berth k
  match b.state with
  | .halted _ => s
  | .vacant => s
  | .loading =>
    match reason with
    | .estop => s.haltBerth k .estop
    | .reset => s.haltBerth k .reset
    | _ => s.completionTest k
  | _ => if reason = .reset then s else s.completionTest k

/-- Recomputes a berth's load limit and settles over limit, OVERDRAFT and READY (R166). A LOADING berth newly over
its limit halts; its transfer is ended by the caller. -/
def State.recomputeLimit (k : BerthNo) (s : State) : State :=
  let b := s.berth k
  match b.barge with
  | none => s
  | some g =>
    let limit := loadLimitOf s.settings.river s.river g
    if limit < b.cargo.q then
      if b.overLimit then s.setBerth k { b with loadLimit := limit }
      else
        let s1 := (s.setBerth k { b with loadLimit := limit, overLimit := true }).raise (flagOverdraft k)
        if b.state = .loading then s1.haltBerth k .overdraft else s1.settleReady k
    else s.setBerth k { b with loadLimit := limit, overLimit := false }.settleReady

/-- The three whole-cargo figures; each is absent where the berth has no record to compute it from (R60). -/
structure Figures where
  draft : Option Nat
  position : Option Nat
  order : Option Nat
  deriving DecidableEq, Repr

def Berth.figures (b : Berth) : Figures :=
  { draft := if b.barge.isSome then some (b.loadLimit - b.cargo.q) else none
    position := b.currentPosition.map fun p => p.planned - p.loaded
    order := b.order.map fun o => o.target - b.cargo.q }

/-- The least of the figures: the bound of a berth plan's request (R155). -/
def Figures.least (f : Figures) : Nat := min (f.draft.getD 0) (min (f.position.getD 0) (f.order.getD 0))

/-- The flag of each figure equal to the least of them (R155). -/
def Figures.clamps (f : Figures) : ClampFlags :=
  { ClampFlags.none with
    draft := f.draft.getD 0 == f.least, position := f.position.getD 0 == f.least, order := f.order.getD 0 == f.least }

/-- The destination limit a berth gives a plan (R155); none without a load order. -/
def Berth.bound (b : Berth) : Option BerthBound :=
  b.order.map fun o => { order := o, cargo := b.cargo, lots := b.manifest.map Manifested.lot }

/-- A transfer's identity agrees with a berth (R154). -/
def State.berthAgrees (s : State) (k : BerthNo) (i : Identity) : Bool :=
  (match (s.berth k).order with
    | some o => o.cls == i.cls
    | none => false) &&
  (s.berth k).manifest.all fun e =>
    match i.ip with
    | some n => e.lot == n
    | none =>
      match s.lot? e.lot with
      | some l => l.kind == LotKind.receiving
      | none => true

/-- The berth refuses a piece that would need a 17th manifest entry (R157). -/
def Berth.refusesPiece (b : Berth) (p : Portion) : Bool :=
  !(b.manifest.any fun e => e.lot == p.lot) && Config.maxManifest ≤ b.manifest.length

/-- Adds kilograms to the current position's loaded kg (R157). -/
def Berth.loadPosition (b : Berth) (kg : Nat) : Berth :=
  match b.plan, b.current with
  | some ps, some n =>
    if n = 0 then b else { b with plan := some (ps.modify (n - 1) fun p => { p with loaded := p.loaded + kg }) }
  | _, _ => b

/-- Adds kilograms of a lot to the manifest: to its entry, or to a new entry at the end (R157). -/
def addManifest (lot kg : Nat) (m : List Manifested) : List Manifested :=
  if m.any fun e => e.lot == lot then m.map fun e => if e.lot = lot then { e with kg := e.kg + kg } else e
  else m ++ [{ lot := lot, kg := kg }]

/-- The current position goes from below its planned kg to at or above it (R157). -/
def Berth.fillsPosition (b : Berth) (kg : Nat) : Bool :=
  match b.currentPosition with
  | some p => decide (p.loaded < p.planned) && decide (p.planned ≤ p.loaded + kg)
  | none => false

/-- Loads a piece that the berth has not refused: cargo, manifest, current position and the lot's shipped account
(R9, R11, R157). -/
def State.loadPiece (k : BerthNo) (p : Portion) (s : State) : State :=
  let b := s.berth k
  let fresh := !(b.manifest.any fun e => e.lot == p.lot)
  let b1 : Berth := { b.loadPosition p.kg with
    cargo := b.cargo.add p.kg p.moisture p.testWeight
    manifest := addManifest p.lot p.kg b.manifest }
  let s1 := (s.setBerth k b1).modLot p.lot fun l => if fresh then (l.ship p.kg).addManifest else l.ship p.kg
  s1.raiseIf (b.fillsPosition p.kg) (flagPositionFull k)

/-- The berth becomes vacant of its claim when the claim is the transfer's (R122). -/
def State.dropBerthClaim (k : BerthNo) (id : Nat) (s : State) : State :=
  if (s.berth k).claim = some id then s.setBerth k { s.berth k with claim := none } else s

end Sys2Proof.Machine
end

