-- ==== Sys2Proof/Machine/RotationOps.lean ====
section
/-! DEFINITION. The rotation block's own operations: the hot state (R133), auto-turn (R143), the conditions (R139),
the end of an entry (R136) and the end of a pass (R141). -/

namespace Sys2Proof.Machine

/-- An entry names a bin that is its source or its destination. -/
def Entry.names (e : Entry) (b : BinNo) : Bool := e.source == b || e.dest == b

/-- An entry may be filled when it is free, or ENDED with no pass in flight (R137, R143). -/
def fillable : Option Entry → Bool
  | none => true
  | some e => e.state == .ended && e.inFlight.isNone

/-- Ends an entry with a reason, which sets SCHEDULE_ENDED (R136). -/
def State.endEntry (n : EntryNo) (reason : EntryEnd) (s : State) : State :=
  match s.entry n with
  | none => s
  | some e => (s.setEntry n (some { e with state := .ended, reason := some reason })).raise flagScheduleEnded

/-- The entry auto-turn makes for a bin (R143). -/
def autoEntry (b : BinNo) (leg : LegNo) : Entry :=
  { source := b, dest := b, leg := leg, kg := 0, remaining := some 1, done := 0, condition := .ifHotRebase,
    state := .waiting, reason := none, inFlight := none, origin := .auto }

/-- The auto-turn rule at a bin that has just become HOT (R143). -/
def State.autoTurn (b : BinNo) (s : State) : State :=
  let busy := allEntries.any fun n =>
    match s.entry n with
    | some e => e.names b && e.state != .ended
    | none => false
  if !(s.binSet b).autoTurn || busy || (s.bin b).hold.isSome then s
  else
    match allEntries.find? fun n => fillable (s.entry n) with
    | none => s
    | some n => s.setEntry n (some (autoEntry b s.settings.rotation.autoTurnLeg))

/-- The hot state a reading, a baseline and two limits give (R133). -/
def hotAfter (hot : Bool) (reading baseline hotLimit riseLimit : Int) : Bool :=
  if hot then !(decide (reading ≤ hotLimit - 20) && decide (reading - baseline < riseLimit - 20))
  else decide (hotLimit ≤ reading) || decide (riseLimit ≤ reading - baseline)

/-- Evaluates the hot state of a bin; on becoming HOT it sets BIN_HOT and applies auto-turn (R133, R143). -/
def State.evaluateHot (b : BinNo) (s : State) : State :=
  let x := s.bin b
  match x.temp.lastReading, x.temp.baseline with
  | some reading, some baseline =>
    let hot := hotAfter x.temp.hot reading baseline (s.binSet b).hotLimit (s.binSet b).riseLimit
    let s1 := s.setBin b { x with temp := { x.temp with hot := hot } }
    if hot && !x.temp.hot then (s1.raise flagBinHot).autoTurn b else s1
  | _, _ => s

/-- Whether an entry's condition holds at this moment (R139). -/
def State.conditionHolds (s : State) (e : Entry) : Bool :=
  let t := (s.bin e.source).temp
  match e.condition with
  | .always => true
  | .ifHot | .ifHotRebase => t.hot || t.stale
  | .ifAge n =>
    match t.lastTurned with
    | none => s.timeValid
    | some stamp =>
      match s.age stamp with
      | some a => decide (n * Config.daySeconds ≤ a)
      | none => false

/-- The end reason an entry takes from the end reason of its pass (R141). The reasons a bin transfer cannot end
with are given ABORTED (DESIGN CHOICE, assumption log 28). -/
def entryEndOf : EndReason → EntryEnd
  | .sourceEmpty => .sourceEmpty
  | .aborted => .aborted
  | .estop => .estop
  | .hold => .hold
  | .complete => .done
  | .overdraft | .berthHalt | .reset | .spec => .aborted

/-- The marks of a completed pass: the count, the last-turned stamp and the rebase (R141). -/
def State.passComplete (n : EntryNo) (e : Entry) (t : Transfer) (s : State) : State :=
  let s1 := s.setEntry n (some { e with
    done := min (e.done + 1) 65535, remaining := e.remaining.map (· - 1), inFlight := none })
  let x := s1.bin e.source
  let turned := if t.source = .bin e.source ∧ t.dest = .bin e.source then some s1.terminalTime else x.temp.lastTurned
  let s2 := s1.setBin e.source { x with temp := { x.temp with lastTurned := turned } }
  let s3 :=
    if e.condition = .ifHotRebase ∧ x.temp.lastReading.isSome then
      let y := s2.bin e.source
      (s2.setBin e.source { y with temp := { y.temp with baseline := y.temp.lastReading } }).evaluateHot e.source
    else s2
  if e.state = .launched then
    if e.remaining.map (· - 1) = some 0 then s3.endEntry n .done
    else
      match s3.entry n with
      | some f => s3.setEntry n (some { f with state := .waiting })
      | none => s3
  else s3

/-- A schedule entry is told the end of its pass (R141). -/
def State.passEnd (n : EntryNo) (reason : EndReason) (t : Transfer) (s : State) : State :=
  match s.entry n with
  | none => s
  | some e =>
    if e.inFlight ≠ some t.id then s
    else
      match reason with
      | .complete => s.passComplete n e t
      | .reset =>
        s.setEntry n (some { e with inFlight := none, state := if e.state = .launched then .waiting else e.state })
      | _ =>
        let s1 := s.setEntry n (some { e with inFlight := none })
        if e.state = .launched then s1.endEntry n (entryEndOf reason) else s1

end Sys2Proof.Machine
end

