-- ==== Sys2Proof/Machine/Transfers.lean ====
section
/-! DEFINITION. Transfers: the launch checks and the commitment (R104, R108 to R114), becoming active (R115, R116),
the end of a transfer (R95, R122), slot succession (R123), the dryer's discharge launch (R92, R93), the examination of
the schedules (R138, R140), and the moving of a flow report (R119 to R121). -/

namespace Sys2Proof.Machine

/-! ### Identity on a leg -/

/-- Two identities are equal when both are the same class with no IP lot, or both are the same IP lot (R116). -/
def Identity.same (i j : Identity) : Bool :=
  match i.ip, j.ip with
  | none, none => i.cls == j.cls
  | some m, some n => m == n
  | _, _ => false

/-- The leg need not be cleaned out before it carries an identity (R116). -/
def LastCarried.admits (c : LastCarried) (i : Identity) : Bool :=
  match c with
  | .clean => true
  | .carried j => j.same i
  | .unknown => false

/-- The berth a transfer goes to. -/
def Transfer.berth? (t : Transfer) : Option BerthNo :=
  match t.dest with
  | .berth k => some k
  | .bin _ => none

/-- The bins a transfer names. -/
def Transfer.bins (t : Transfer) : List BinNo :=
  (match t.source with | .bin b => [b] | .dryer => []) ++ (match t.dest with | .bin b => [b] | .berth _ => [])

/-- A self-turn moves the bottom of a stack to its top. -/
def Transfer.selfTurn (t : Transfer) : Bool :=
  match t.source, t.dest with
  | .bin b, .bin c => b == c
  | _, _ => false

/-! ### Becoming active -/

/-- A transfer enters the ACTIVE slot of a leg: RUNNING when the leg need not be cleaned out or its cleanout time is
0, CLEANOUT otherwise (R116); its berth enters LOADING (R156). R116 has the expiry of a cleanout of 0 seconds "follow at
once": here it is part of the same step (DEDUCED, assumption log 33). -/
def State.enterActive (l : LegNo) (t : Transfer) (s : State) : State :=
  let g := s.leg l
  let time := s.settings.cleanout.get l
  let s1 :=
    if g.lastCarried.admits t.identity || time == 0 then
      s.setLeg l { g with active := some { t with state := .running }, lastCarried := .carried t.identity }
    else s.setLeg l { g with active := some { t with state := .cleanout time } }
  match t.berth? with
  | some k => s1.setBerth k { s1.berth k with state := .loading }
  | none => s1

/-- The cleanout expiry of a leg (R116). -/
def State.cleanoutDone (l : LegNo) (s : State) : State :=
  let g := s.leg l
  match g.active with
  | some t =>
    match t.state with
    | .cleanout _ =>
      s.setLeg l { g with active := some { t with state := .running }, lastCarried := .carried t.identity }
    | _ => s
  | none => s

/-! ### The launch checks -/

/-- A launch: by a station with its staged request, by the dryer, or by a schedule entry. -/
structure LaunchRequest where
  origin : Origin
  leg : LegNo
  source : Source
  dest : Dest
  kg : Nat
  attr : Attr
  deriving DecidableEq, Repr

def Source.bin? : Source → Option BinNo
  | .bin b => some b
  | .dryer => none
def Dest.bin? : Dest → Option BinNo
  | .bin b => some b
  | .berth _ => none

def LaunchRequest.binsNamed (r : LaunchRequest) : List BinNo := r.source.bin?.toList ++ r.dest.bin?.toList
def LaunchRequest.selfTurn (r : LaunchRequest) : Bool := r.source.bin?.isSome && r.source.bin? == r.dest.bin?

/-- Whether a restricted bin stands in the way of the launch's station (R25, R108). -/
def State.restrictedFor (s : State) (r : LaunchRequest) : Bool :=
  match r.origin with
  | .station n => !s.supervisor n && r.binsNamed.any fun b => (s.binSet b).restricted
  | _ => false

/-- Checks 1 to 3: emergency stop, holds, restricted bins (R108). -/
def State.permissionChecks (s : State) (r : LaunchRequest) : List (Bool × Status) :=
  [(s.estop || s.flag (flagStopped r.leg), .state),
   (r.binsNamed.any fun b => (s.bin b).hold.isSome, .protect),
   (s.restrictedFor r, .notPermitted)]

/-- A fill owner of kind TRANSFER. -/
def FillOwner.isTransfer : FillOwner → Bool
  | .transfer _ => true
  | _ => false

/-- Check 4: claims (R109); the dryer's own reservation passes as its own (R92). -/
def State.claimChecks (s : State) (r : LaunchRequest) : List (Bool × Status) :=
  (match r.source with
    | .bin b =>
      if r.selfTurn then [((s.bin b).claim.isSome || (s.bin b).fillOwner != .none, .busy)]
      else [((s.bin b).claim.isSome || (s.bin b).fillOwner.isTransfer, .busy)]
    | .dryer => []) ++
  (match r.dest with
    | .bin b =>
      if r.selfTurn then []
      else if r.source = .dryer then [((s.bin b).claim.isSome || (s.bin b).fillOwner != .dryer, .busy)]
      else [((s.bin b).claim.isSome || (s.bin b).fillOwner != .none, .busy)]
    | .berth k => [((s.berth k).claim.isSome, .busy), ((s.berth k).state != .ready, .state)])

/-- The identity of a launch, from its source (R110). -/
def State.sourceIdentity (s : State) (src : Source) : Option Identity :=
  match src with
  | .bin b => (s.bin b).identity
  | .dryer => s.dryer.batch.map Batch.identity

/-- Check 5: identity (R110). A source with no identity holds no grain and passes. -/
def State.identityChecks (s : State) (r : LaunchRequest) : List (Bool × Status) :=
  match s.sourceIdentity r.source with
  | none => []
  | some i =>
    match r.dest with
    | .bin b => [(!(s.bin b).agrees i, .mismatch)]
    | .berth k => [(!s.berthAgrees k i, .mismatch)]

/-- What the plan of a launch, a promotion or a resume gives (R111). -/
structure Planned where
  plan : Plan
  clamps : ClampFlags
  deriving DecidableEq, Repr

/-- Check 6: the draw plan (R111, R155). A self-turn is bounded by the bin's contents; a berth bounds the request by
its figures and each layer by its limits; the dryer's portions are taken whole (R92). -/
def State.planTransfer (s : State) (src : Source) (dst : Dest) (request : Nat) : Planned :=
  match src, dst with
  | .dryer, _ =>
    let ps := (s.dryer.batch.map Batch.portions).getD []
    { plan := ⟨ps, .met⟩, clamps := ClampFlags.none }
  | .bin b, .bin d =>
    let p := s.planBin b request none (if b = d then some (s.bin b).contents else none) none
    { plan := p, clamps := p.cause.clamps }
  | .bin b, .berth k =>
    let f := (s.berth k).figures
    let cut := min request f.least
    let p := s.planBin b cut none none (s.berth k).bound
    { plan := p, clamps := if p.cause = .met ∧ cut < request then f.clamps else p.cause.clamps }

/-- Check 7: the destination bin's space (R112): the refusal with its limit, or the grant cut to the free space and
the slots to reserve. It is not made for a berth, nor for the dryer's discharge (R92). -/
def State.spaceCheck (s : State) (r : LaunchRequest) (grant : Nat) : Except (Status × Limit) (Nat × Nat) :=
  match r.source, r.dest with
  | .bin b, .bin d =>
    if b = d then if s.freeSlots d < 1 then .error (.noSpace, .slots) else .ok (grant, 1)
    else if s.freeSpace d = 0 then .error (.noSpace, .space)
    else
      let cut := min grant (s.freeSpace d)
      let need := (drawLayers (s.bin b).layers cut).1.length
      if s.freeSlots d < need then .error (.noSpace, .slots) else .ok (cut, need)
  | _, _ => .ok (grant, 0)

/-- Check 8: the slot the transfer enters, and whether the ACTIVE transfer gives way to it (R113). -/
def Leg.place (g : Leg) (attr : Attr) : Option (Slot × Bool) :=
  match g.active with
  | none => some (.active, false)
  | some t =>
    if attr = .priority ∧ t.attr = .yield ∧ g.suspended.isNone then some (.active, true)
    else if g.buffered.isNone then some (.buffered, false)
    else none

/-- The outcome of a launch: refused with a code and the limit it names, or placed. -/
inductive LaunchOutcome where
  | refused (code : Status) (limit : Option Limit)
  | placed (id : Nat) (slot : Slot)
  deriving DecidableEq, Repr

/-- What a launch that passes every check commits (R114). -/
structure Grant where
  identity : Identity
  target : Nat
  slots : Nat
  clamps : ClampFlags
  slot : Slot
  preempts : Bool
  deriving DecidableEq, Repr

/-- The launch checks in their order (R108 to R113). -/
def State.launchChecks (s : State) (r : LaunchRequest) : Except (Status × Option Limit) Grant :=
  match firstFailure (s.permissionChecks r ++ s.claimChecks r ++ s.identityChecks r) with
  | some code => .error (code, none)
  | none =>
    let p := s.planTransfer r.source r.dest r.kg
    match s.sourceIdentity r.source with
    | none => .error (.noSpace, some .source)
    | some i =>
      if p.plan.granted = 0 then .error (p.plan.cause.refusal.1, some p.plan.cause.refusal.2)
      else
        match s.spaceCheck r p.plan.granted with
        | .error (code, limit) => .error (code, some limit)
        | .ok (target, need) =>
          match (s.leg r.leg).place r.attr with
          | none => .error (.full, none)
          | some (slot, preempts) =>
            .ok { identity := i, target := target, slots := need
                  clamps := { p.clamps with space := decide (target < p.plan.granted) }
                  slot := slot, preempts := preempts }

/-- The id the next transfer takes (R104). -/
def State.nextId (s : State) : Nat := firstFree s.liveIds Config.maxShortNo 13 s.nextTransfer

/-- The ACTIVE transfer gives way: it moves to SUSPENDED with its claims, reservation, delivered and target, and a
berth it was loading re-evaluates READY, as R156 says, although R113 says that preemption changes no berth record
(DEDUCED, assumption log 32). -/
def State.preempt (l : LegNo) (s : State) : State :=
  let g := s.leg l
  match g.active with
  | none => s
  | some t =>
    let s1 := s.setLeg l { g with active := none, suspended := some { t with state := .suspended } }
    match t.berth? with
    | some k => s1.setBerth k { s1.berth k with state := .assigned }.settleReady
    | none => s1

/-- The transfer a grant makes (R114). -/
def State.granted (s : State) (r : LaunchRequest) (g : Grant) : Transfer :=
  { id := s.nextId, origin := r.origin, source := r.source, dest := r.dest, target := g.target, delivered := 0,
    overrun := 0, identity := g.identity, attr := r.attr, state := .buffered, clamps := g.clamps
    originalRemaining :=
      match r.source with
      | .bin b => if r.selfTurn then some (s.bin b).contents else none
      | .dryer => none }

/-- Claims and reservations of a committed transfer: the source claim, the destination reservation or the berth claim
(R114); the dryer's reservation is handed over (R31, R92). -/
def State.holdFor (t : Transfer) (slotsAsked : Nat) (s : State) : State :=
  let s1 := match t.source with
    | .bin b => s.takeClaim b t.id
    | .dryer => s
  match t.dest with
  | .berth k => s1.setBerth k { s1.berth k with claim := some t.id }
  | .bin d =>
    if t.source = .dryer then s1.handOver d .batch (.transfer t.id)
    else s1.reserve d (.transfer t.id) t.identity (if t.selfTurn then 0 else t.target) slotsAsked

/-- The commitment of a launch that has passed every check (R104, R114). -/
def State.commitLaunch (r : LaunchRequest) (g : Grant) (s : State) : State :=
  let t := s.granted r g
  let s1 := { s with nextTransfer := wrapNext Config.maxShortNo t.id }.holdFor t g.slots
  let s2 := if g.preempts then s1.preempt r.leg else s1
  match g.slot with
  | .active => s2.enterActive r.leg t
  | _ => s2.setLeg r.leg { s2.leg r.leg with buffered := some t }

/-- A launch (R108 to R114). A refused launch changes nothing here; the PROTECT flag of R107 is the station
request's. -/
def State.launch (r : LaunchRequest) (s : State) : State × LaunchOutcome :=
  match s.launchChecks r with
  | .error (code, limit) => (s, .refused code limit)
  | .ok g => (s.commitLaunch r g, .placed s.nextId g.slot)

/-! ### The dryer's side -/

/-- The discharge launch of the dryer's batch (R92). -/
def State.tryDischarge (s : State) : State × LaunchOutcome :=
  match s.dryer.batch with
  | none => (s, .refused .state none)
  | some b =>
    let r : LaunchRequest :=
      { origin := .dryer, leg := s.settings.dryer.dischargeLeg, source := .dryer, dest := .bin b.dest
        kg := (b.portions.map Portion.kg).sum, attr := .ordinary }
    match s.launch r with
    | (s1, .placed id slot) =>
      ({ s1 with dryer := { s1.dryer with state := .discharging, discharge := some id } }, .placed id slot)
    | (s1, .refused code limit) => (s1.raiseIf (code == .protect) flagDischargeHeld, .refused code limit)

/-- The dryer is told the end of its discharge transfer, whose reservation has been released or handed back (R95). -/
def State.dischargeEnd (s : State) : State :=
  let d := s.dryer
  match d.batch with
  | none => { s with dryer := { d with discharge := none, autoDischarge := false } }
  | some b =>
    if b.portions = [] then
      let s1 := s.release b.dest .batch
      let d1 := { d with batch := none, discharge := none, autoDischarge := false }
      let d2 :=
        if d.state = .fault then d1
        else if d.stopPending then { d1 with state := .off, stopPending := false }
        else { d1 with state := .ready }
      { s1 with dryer := d2 }.raise flagDischargeDone
    else
      { s with dryer := { d with
          discharge := none, autoDischarge := false
          state := if d.state = .discharging then .dischargeWait else d.state } }

/-! ### The end of a transfer -/

/-- Step 2 of R122: what the transfer still holds reserved is released, or handed back to the dryer batch. -/
def State.endReservation (t : Transfer) (reason : EndReason) (s : State) : State :=
  match t.dest with
  | .berth _ => s
  | .bin d =>
    if t.origin = .dryer ∧ reason ≠ .complete then s.handOver d (.transfer t.id) .batch
    else s.release d (.transfer t.id)

/-- Step 6 of R122: the origin and the berth are told the reason. -/
def State.tellEnd (t : Transfer) (reason : EndReason) (s : State) : State :=
  let s1 := match t.origin with
    | .dryer => s.dischargeEnd
    | .schedule e => s.passEnd e reason t
    | .station _ => s
  match t.berth? with
  | some k => s1.berthEnd k reason
  | none => s1

/-- The end of the transfer in a slot (R122): it leaves the slot, its claims and reservation go, the summary is
written, ABNORMAL_END is set, and its origin and berth are told. Succession is `settleLeg`. -/
def State.endSlot (l : LegNo) (k : Slot) (reason : EndReason) (s : State) : State :=
  match (s.leg l).slot k with
  | none => s
  | some t =>
    let s1 := s.setLeg l { (s.leg l).setSlot k none with
      lastEnded := some { id := t.id, reason := reason, delivered := t.delivered, overrun := t.overrun,
                          clamps := t.clamps } }
    let s2 := match t.source with
      | .bin b => s1.dropClaim b t.id
      | .dryer => s1
    let s3 := match t.berth? with
      | some b => s2.dropBerthClaim b t.id
      | none => s2
    let s4 := s3.endReservation t reason
    let s5 := t.bins.foldl (fun u b => u.reevaluate b) s4
    (s5.raiseIf (reason != .complete) (flagAbnormalEnd l)).tellEnd t reason

/-! ### Slot succession -/

/-- The re-plan of a berth transfer that becomes ACTIVE by promotion or resume (R115): the end reason, or the
transfer with its new target and flags. -/
def State.replan (s : State) (t : Transfer) : Except EndReason Transfer :=
  match t.berth? with
  | none => .ok t
  | some k =>
    if (s.berth k).state ≠ .ready then .error .berthHalt
    else
      let p := s.planTransfer t.source t.dest (t.target - t.delivered)
      if p.plan.granted = 0 then .error .spec
      else .ok { t with target := t.delivered + p.plan.granted, clamps := t.clamps.union p.clamps }

/-- Fills an empty ACTIVE slot: a resume, otherwise a promotion (R123), each tested as R115 requires; the rule is
applied again when R115 ends the transfer. At most two transfers wait, so two rounds settle a leg. -/
def State.fillActive (l : LegNo) : Nat → State → State
  | 0, s => s
  | n + 1, s =>
    let g := s.leg l
    if g.active.isSome then s
    else
      match g.suspended, g.buffered with
      | some t, _ => advance n t { g with suspended := none } s
      | none, some t => advance n t { g with buffered := none } s
      | none, none => s
where
  advance (n : Nat) (t : Transfer) (g : Leg) (s : State) : State :=
    match s.replan t with
    | .ok t1 => (s.setLeg l g).enterActive l t1
    | .error reason => State.fillActive l n ((s.setLeg l { g with active := some t }).endSlot l .active reason)

/-- All three slots of a leg are empty. -/
def Leg.empty (g : Leg) : Bool := g.active.isNone && g.buffered.isNone && g.suspended.isNone

/-- After the ends on a leg: the slots pass on, and ALL_DONE is set when all three are empty (R123). -/
def State.settleLeg (l : LegNo) (s : State) : State :=
  let s1 := s.fillActive l 2
  s1.raiseIf (s1.leg l).empty (flagAllDone l)

/-! ### The examination of the schedules -/

/-- An examined entry launches a pass (R140). -/
def State.launchPass (n : EntryNo) (e : Entry) (s : State) : State :=
  let kg := if e.kg = 0 then min (s.bin e.source).contents Config.maxTransferKg else e.kg
  let r : LaunchRequest :=
    { origin := .schedule n, leg := e.leg, source := .bin e.source, dest := .bin e.dest, kg := kg, attr := .yield }
  match s.launch r with
  | (s1, .placed id _) => s1.setEntry n (some { e with state := .launched, inFlight := some id })
  | (s1, .refused code limit) =>
    match code with
    | .busy | .full => s1
    | .protect => s1.endEntry n .hold
    | .noSpace => s1.endEntry n (if limit = some .source then .empty else .noSpace)
    | .mismatch => s1.endEntry n .mismatch
    | _ => s1.endEntry n .state

/-- One entry of an examination: WAITING, its condition holding and its leg's BUFFER_FREE true (R138). -/
def State.examineEntry (s : State) (n : EntryNo) : State :=
  match s.entry n with
  | none => s
  | some e =>
    if e.state = .waiting ∧ s.conditionHolds e ∧ (s.leg e.leg).bufferFree then s.launchPass n e else s

/-- The examination takes the entries in entry order (R138). -/
def State.examine (s : State) : State := allEntries.foldl State.examineEntry s

/-! ### The whole of what follows transfers' ends -/

/-- A transfer to be ended, and the reason. -/
structure Victim where
  leg : LegNo
  slot : Slot
  reason : EndReason
  deriving DecidableEq, Repr

/-- The dryer tries its discharge launch when it waits with auto-discharge set and BUFFER_FREE of its leg has become
true, or a source claim on its destination has ended (R93). -/
def dischargeDue (before after : State) : Bool :=
  match after.dryer.batch with
  | none => false
  | some b =>
    let l := after.settings.dryer.dischargeLeg
    after.dryer.state == .dischargeWait && after.dryer.autoDischarge &&
      ((!(before.leg l).bufferFree && (after.leg l).bufferFree) ||
        ((before.bin b.dest).claim.isSome && (after.bin b.dest).claim.isNone))

/-- Ends transfers and everything that follows: the ends, the legs' slots settled, the dryer's try, and one
examination (R93, R103, R122, R123, R138; DEDUCED, assumption log 26). -/
def State.endTransfers (victims : List Victim) (s : State) : State :=
  if victims = [] then s
  else
    let s1 := victims.foldl (fun t v => t.endSlot v.leg v.slot v.reason) s
    let legs := allLegs.filter fun l => victims.any fun v => v.leg == l
    let s2 := legs.foldl (fun t l => t.settleLeg l) s1
    let s3 := if dischargeDue s s2 then s2.tryDischarge.1 else s2
    s3.examine

/-- The transfers that satisfy a test, as victims, by leg and in slot order (R122). -/
def State.victims (s : State) (test : Transfer → Bool) (reason : EndReason) : List Victim :=
  allLegs.flatMap fun l => endOrder.filterMap fun k =>
    match (s.leg l).slot k with
    | some t => if test t then some { leg := l, slot := k, reason := reason } else none
    | none => none

/-- The transfer that holds a berth's claim, as a victim. -/
def State.berthVictims (s : State) (k : BerthNo) (reason : EndReason) : List Victim :=
  match (s.berth k).claim with
  | some id => s.victims (fun t => t.id == id) reason
  | none => []

/-- A LOADING berth halts with a cause, and its transfer ends with the reason that goes with it (R159). -/
def State.haltLoading (k : BerthNo) (cause : HaltCause) (reason : EndReason) (s : State) : State :=
  (s.haltBerth k cause).endTransfers (s.berthVictims k reason)

/-- Both berths' load limits are recomputed, and the transfers of berths it halts end with OVERDRAFT (R159, R166). -/
def State.recomputeLimits (s : State) : State :=
  let s1 := allBerths.foldl (fun t k => t.recomputeLimit k) s
  let halted := allBerths.filter fun k => (s.berth k).state == .loading && (s1.berth k).state != .loading
  s1.endTransfers (halted.flatMap fun k => s1.berthVictims k .overdraft)

/-! ### Flow reports -/

/-- What a report can move at most of what the source can supply (R119). -/
def State.supply (s : State) (t : Transfer) : Nat :=
  match t.source with
  | .bin b => match t.originalRemaining with
    | some n => min n (s.bin b).contents
    | none => (s.bin b).contents
  | .dryer => (((s.dryer.batch.map Batch.portions).getD []).map Portion.kg).sum

/-- The source's bottom layer, or the batch's first portion, as a piece. -/
def State.nextPiece (s : State) (src : Source) : Option Portion :=
  match src with
  | .bin b => (s.bin b).layers.head?.map fun l => l.piece l.kg
  | .dryer => ((s.dryer.batch.map Batch.portions).getD []).head?

/-- Takes a piece of x kilograms from the first portion of the batch (R94). -/
def State.drawPortion (x : Nat) (s : State) : State :=
  match s.dryer.batch with
  | none => s
  | some b =>
    match b.portions with
    | [] => s
    | p :: rest =>
      if p.kg ≤ x then
        { s with dryer := { s.dryer with batch := some { b with portions := rest } } }.modLot p.lot Lot.dropPortion
      else
        { s with dryer := { s.dryer with batch := some { b with portions := { p with kg := p.kg - x } :: rest } } }

/-- Step 1 of R119: the piece is taken; a layer a self-turn empties gives its slot back (R120). -/
def State.takePiece (t : Transfer) (x : Nat) (s : State) : State :=
  match t.source with
  | .dryer => s.drawPortion x
  | .bin b =>
    let before := (s.bin b).layers.length
    let s1 := (s.draw b x).2
    if t.selfTurn then s1.returnSlots b (.transfer t.id) (before - (s1.bin b).layers.length) else s1

/-- One piece of x kilograms is taken and delivered (R119): none when it cannot be moved, and then the source and the
destination stand as they stood. -/
def State.movePiece (t : Transfer) (p : Portion) (x : Nat) (s : State) : Option State :=
  let piece := { p with kg := x }
  match t.dest with
  | .berth k => if (s.berth k).refusesPiece piece then none else some ((s.takePiece t x).loadPiece k piece)
  | .bin d =>
    let s1 := s.takePiece t x
    let fromTop := t.selfTurn && x < p.kg && (s1.bin d).layers.length == 1
    (s1.deposit d (.transfer t.id) piece fromTop).map fun s2 =>
      s2.setBin d ((s2.bin d).modHolder (.transfer t.id) fun h => { h with kg := h.kg - x })

/-- The pieces of a report, one after another, until the movable amount is used up or a piece cannot be moved; the
kilograms moved, and the state. Each round takes a whole layer or portion or is the last, so as many rounds as the
source has of them are enough (R119). -/
def State.movePieces (t : Transfer) : Nat → Nat → State → Nat × State
  | 0, _, s => (0, s)
  | rounds + 1, movable, s =>
    if movable = 0 then (0, s)
    else
      match s.nextPiece t.source with
      | none => (0, s)
      | some p =>
        let x := min movable p.kg
        match s.movePiece t p x with
        | none => (0, s)
        | some s1 =>
          let r := State.movePieces t rounds (movable - x) s1
          (x + r.1, r.2)

/-- How many layers or portions the source has. -/
def State.sourceRounds (s : State) (src : Source) : Nat :=
  match src with
  | .bin b => (s.bin b).layers.length
  | .dryer => ((s.dryer.batch.map Batch.portions).getD []).length

/-- What a flow report moves: the kilograms moved, and the state with the transfer's delivered, overrun and original
remaining counted and SOURCE_SHORT set when the source could not supply them (R119, R120). -/
def State.moveReport (l : LegNo) (t : Transfer) (kg : Nat) (s : State) : Nat × State :=
  let movable := min kg (s.supply t)
  let r := s.movePieces t (s.sourceRounds t.source) movable
  let t1 := { t with
    delivered := t.delivered + r.1
    overrun := t.overrun + (kg - r.1)
    originalRemaining := t.originalRemaining.map (· - r.1) }
  (r.1, ((r.2.setLeg l { r.2.leg l with active := some t1 }).raiseIf (decide (movable < kg)) flagSourceShort))

/-- How a transfer is judged after a report (R121). -/
def State.judge (s : State) (t : Transfer) : Option EndReason :=
  if t.target ≤ t.delivered then some .complete
  else
    let dry := match t.source with
      | .bin b => (s.bin b).layers.isEmpty || t.originalRemaining == some 0
      | .dryer => ((s.dryer.batch.map Batch.portions).getD []).isEmpty
    if dry then some .sourceEmpty else none

/-- The berth compares its cargo with its load limit after a report (R158): over limit and OVERDRAFT are set, and a
berth whose transfer is still live halts. -/
def State.overdraftCheck (k : BerthNo) (live : Bool) (s : State) : State :=
  let b := s.berth k
  if b.loadLimit < b.cargo.q then
    let s1 := (s.setBerth k { b with overLimit := true }).raiseIf (!b.overLimit) (flagOverdraft k)
    if live then s1.haltBerth k .overdraft else s1
  else s

end Sys2Proof.Machine
end

