-- ==== Sys2Proof/Machine/Port.lean ====
section
/-! DEFINITION. The request port: frames and their check (R172), the receiver (R173), the response (R174) and the
taking of a request (R177). -/

namespace Sys2Proof.Machine

/-- What every meaning answers. -/
abbrev Result := Host.Outcome State Fault Refusal

/-! ### The check (R172) -/

/-- One bit of the CRC-16: polynomial 0x1021, most significant bit first. -/
def crcBit (c : BitVec 16) : BitVec 16 := if c.msb then (c <<< 1) ^^^ 0x1021#16 else c <<< 1

/-- One byte of the CRC-16. -/
def crcByte (c : BitVec 16) (b : Byte) : BitVec 16 :=
  (List.range 8).foldl (fun d _ => crcBit d) (c ^^^ ((b.setWidth 16) <<< 8))

/-- The check over a list of bytes, from the initial value 0xFFFF (R172). -/
def crc16 (bs : List Byte) : BitVec 16 := bs.foldl crcByte 0xFFFF#16

/-- The check travels high byte first (R172). -/
def checkBytes (c : BitVec 16) : List Byte := [(c >>> 8).setWidth 8, c.setWidth 8]

/-- SYNC (R172). -/
def sync : Byte := 0xC7#8

/-- The bytes of a frame around what stands from STATION to the end of PAYLOAD (R172). -/
def frameAround (body : List Byte) : List Byte :=
  let covered := BitVec.ofNat 8 body.length :: body
  sync :: covered ++ checkBytes (crc16 covered)

/-- A request frame as it travels (R172). -/
def Frame.bytes (code : Byte) (f : Frame) : List Byte :=
  frameAround (BitVec.ofNat 8 f.station.val :: f.tag :: code :: f.payload)

/-- A response frame as it travels (R172, R174). -/
def Response.bytes (r : Response) : List Byte :=
  frameAround (BitVec.ofNat 8 r.station.val :: r.tag :: r.code :: r.status.code :: r.payload)

/-! ### The receiver (R173) -/

/-- What a complete frame gives, from LEN to the check: the code and the frame when it is well formed. -/
def judgeFrame (collected : List Byte) : Option (Byte × Frame) :=
  let covered := collected.take (collected.length - 2)
  match covered with
  | _ :: st :: tag :: code :: payload =>
    if checkBytes (crc16 covered) = collected.drop (collected.length - 2) then
      (index 16 st.toNat).map fun n => (code, { station := n, tag := tag, payload := payload })
    else none
  | _ => none

/-- The receiver acts on one byte (R173): its next state, and the well-formed frame that the byte completed. -/
def Receiver.byte (r : Receiver) (b : Byte) : Receiver × Option (Byte × Frame) :=
  match r with
  | .hunting => (if b = sync then .inFrame [] else .hunting, none)
  | .closed => (.closed, none)
  | .inFrame collected =>
    let now := collected ++ [b]
    match now with
    | [] => (.hunting, none)
    | len :: _ =>
      if len.toNat < 3 ∨ 243 < len.toNat then (.hunting, none)
      else if now.length < len.toNat + 3 then (.inFrame now, none)
      else
        match judgeFrame now with
        | some f => (.closed, some f)
        | none => (.hunting, none)

/-- The receiver acts on bytes one after another; the well-formed frame that one of them completed. After it the
receiver is CLOSED and the rest is discarded. -/
def Receiver.feed (r : Receiver) : List Byte → Receiver × Option (Byte × Frame)
  | [] => (r, none)
  | b :: bs =>
    match r.byte b with
    | (r1, some f) => (r1, some f)
    | (r1, none) => r1.feed bs

/-! ### Taking a request (R177) -/

/-- The classes a request accepts; none is every enabled station. -/
abbrev Classes := Option (List StationClass)

def everyStation : Classes := none
def onlySupervisor : Classes := some [.supervisor]
def supervisorOr (cs : List StationClass) : Classes := some (.supervisor :: cs)

def Classes.accept (cs : Classes) (c : StationClass) : Bool :=
  match cs with
  | none => true
  | some l => l.contains c

/-- The checks of R177 in their order, and then the owning block, which answers with the sending station as the
request's station. -/
def takeRequest {α : Type} (classes : Classes) (decode : List Byte → Option α)
    (act : StationNo → α → State → State × Answer) (f : Frame) (s : State) : State × Answer :=
  if !(s.station f.station).enabled then refuse .notEnabled s
  else if !classes.accept (s.station f.station).cls then refuse .notPermitted s
  else
    match decode f.payload with
    | none => refuse .format s
    | some a => act f.station a s

/-- The response frame opens with the request's station, tag and code (R174), and the receiver is CLOSED until its
last stop bit has been sent (R173). -/
def respond (code : Byte) (f : Frame) (r : State × Answer) : State :=
  { r.1 with
    receiver := .closed
    response := some
      { station := f.station, tag := f.tag, code := code, status := r.2.status, payload := r.2.payload } }

/-- The port is open to a frame: main power is on and the receiver is not CLOSED (R173, R189). -/
def State.listening (s : State) : Bool := s.powered && s.receiver != .closed

/-- A well-formed frame with a request's code reaches the part: it is taken and answered; while the receiver is
CLOSED, or main power is off, its bytes are discarded (DEDUCED, assumption log 16 and 19). -/
def serve {α : Type} (code : Byte) (classes : Classes) (decode : List Byte → Option α)
    (act : StationNo → α → State → State × Answer) (f : Frame) (s : State) : State :=
  if s.listening then respond code f (takeRequest classes decode act f s) else s

/-- An event reaches the part while main power is on (R189; DEDUCED, assumption log 19). -/
def State.whenPowered (s : State) (effect : State → State) : State := if s.powered then effect s else s

end Sys2Proof.Machine
end

