-- ==== Sys2Proof/Machine/Lots.lean ====
section
/-! DEFINITION. The lot requests (R13 to R20). -/

namespace Sys2Proof.Machine

/-- A lot is depleted when it is CLOSED and its standing is 0. -/
def Lot.depleted (l : Lot) : Bool := l.state == .closed && l.standing == 0

/-! ### Read Lot (R18) -/

def encodeLot (l : Lot) : List Byte :=
  short l.no ++ small l.kind.code ++ encodeClass l.cls ++ small l.state.code ++ onOff l.depleted ++
  optional 1 (fun h => small h.code) l.hold ++
  mass l.received ++ mass l.waterLoss ++ mass l.handlingLoss ++ mass l.shipped ++ mass l.writtenOff ++
  mass l.standing ++ optional 2 short (average l.received l.intakeMoisture) ++
  small l.pendingTickets ++ mass l.pendingEstimate ++ short l.layerCount ++ small l.portionCount ++
  small l.manifestRefs ++ long l.ticketCount ++ optional 4 long l.firstTicket ++ optional 4 long l.lastTicket ++
  optional 2 short l.owner ++ optional 8 id l.contract

def actReadLot (_ : StationNo) (n : Nat) (s : State) : State × Answer :=
  match s.lot? n with
  | none => refuse .noSuch s
  | some l => accept (encodeLot l) s

def execReadLot (f : Frame) (s : State) : Result := .next (serve 0x10#8 everyStation (decodeOne 2) actReadLot f s)

/-! ### Find Lots (R19) -/

inductive HoldFilter where
  | any
  | only (h : LotHold)
  deriving DecidableEq, Repr

inductive StateFilter where
  | opened | closed | depleted
  deriving DecidableEq, Repr

inductive LotFilter where
  | all
  | cls (commodity grade : Nat)
  | kind (k : LotKind)
  | state (f : StateFilter)
  | owner (n : Nat)
  | hold (f : HoldFilter)
  deriving DecidableEq, Repr

/-- The filter value lies in its list (R19). -/
def LotFilter.inRange : LotFilter → Bool
  | .cls c g => decide (c ≤ 15) && decide (g ≤ 7)
  | .owner n => decide (1 ≤ n) && decide (n ≤ 9999)
  | _ => true

def LotFilter.keeps (f : LotFilter) (l : Lot) : Bool :=
  match f with
  | .all => true
  | .cls c g => l.cls.commodity.val == c && l.cls.grade.val == g
  | .kind k => l.kind == k
  | .state .opened => l.state == .opened
  | .state .closed => l.state == .closed
  | .state .depleted => l.depleted
  | .owner n => l.kind == .ip && l.owner == some n
  | .hold .any => l.hold.isSome
  | .hold (.only h) => l.hold == some h

/-- The filter kind, the value it takes, and the starting lot number (R19, R176). -/
def decodeFindLots (p : List Byte) : Option (LotFilter × Nat) := do
  let (k, p) ← takeU 1 p
  let (f, p) ←
    match k with
    | 0 => some (LotFilter.all, p)
    | 1 => do
      let (c, p) ← takeU 1 p
      let (g, p) ← takeU 1 p
      some (LotFilter.cls c g, p)
    | 2 => do
      let (x, p) ← takeEnum [LotKind.receiving, LotKind.ip] p
      some (LotFilter.kind x, p)
    | 3 => do
      let (x, p) ← takeEnum [StateFilter.opened, StateFilter.closed, StateFilter.depleted] p
      some (LotFilter.state x, p)
    | 4 => do
      let (n, p) ← takeU 2 p
      some (LotFilter.owner n, p)
    | 5 => do
      let (x, p) ← takeEnum [HoldFilter.any, .only .quality, .only .regulatory, .only .claim] p
      some (LotFilter.hold x, p)
    | _ => none
  let (start, p) ← takeU 2 p
  takeEnd (f, start) p

/-- The numbers above the start that match, ascending. -/
def State.matchingLots (s : State) (f : LotFilter) (start : Nat) : List Nat :=
  (s.lots.filter fun l => decide (start < l.no) && f.keeps l).map Lot.no

def actFindLots (_ : StationNo) (q : LotFilter × Nat) (s : State) : State × Answer :=
  let found := s.matchingLots q.1 q.2
  unlessFails [(!q.1.inRange, .format)] s
    (accept (listOf short (found.take 8) ++ onOff (decide (8 < found.length))) s)

def execFindLots (f : Frame) (s : State) : Result := .next (serve 0x11#8 everyStation decodeFindLots actFindLots f s)

/-! ### Close Receiving Lot and Close IP Lot (R13, R14) -/

def Lot.close (l : Lot) : Lot := { l with state := .closed }

def Lot.isOpenReceiving (l : Lot) : Bool := l.kind == .receiving && l.state == .opened

/-- The number of OPEN RECEIVING lots. -/
def State.openReceiving (s : State) : Nat := (s.lots.filter Lot.isOpenReceiving).length

def actCloseReceivingLot (_ : StationNo) (n : Nat) (s : State) : State × Answer :=
  if n = 0 then
    accept (small s.openReceiving)
      { s with lots := s.lots.map fun l => if l.isOpenReceiving then l.close else l }
  else
    match s.lot? n with
    | none => refuse .noSuch s
    | some l =>
      unlessFails [(l.kind != .receiving, .mismatch), (l.state != .opened, .state)] s
        (accept (small 1) (s.modLot n Lot.close))

def execCloseReceivingLot (f : Frame) (s : State) : Result :=
  .next (serve 0x12#8 onlySupervisor (decodeOne 2) actCloseReceivingLot f s)

def actCloseIpLot (_ : StationNo) (n : Nat) (s : State) : State × Answer :=
  match s.lot? n with
  | none => refuse .noSuch s
  | some l =>
    unlessFails [(l.kind != .ip, .mismatch), (l.state != .opened, .state)] s (accept [] (s.modLot n Lot.close))

def execCloseIpLot (f : Frame) (s : State) : Result :=
  .next (serve 0x13#8 (supervisorOr [.grader]) (decodeOne 2) actCloseIpLot f s)

/-! ### Lot holds (R15) -/

def decodeLotHold (p : List Byte) : Option (Nat × LotHold) := do
  let (n, p) ← takeU 2 p
  let (h, p) ← takeEnum lotHolds p
  takeEnd (n, h) p

/-- A GRADER-class station, for which only QUALITY is permitted (R15, R37). -/
def State.grader (s : State) (n : StationNo) : Bool := (s.station n).cls == .grader

def actSetLotHold (st : StationNo) (q : Nat × LotHold) (s : State) : State × Answer :=
  unlessFails [((s.lot? q.1).isNone, .noSuch), (s.grader st && q.2 != .quality, .notPermitted)] s
    (accept [] (s.modLot q.1 fun l => { l with hold := some q.2 }))

def execSetLotHold (f : Frame) (s : State) : Result :=
  .next (serve 0x14#8 (supervisorOr [.grader]) decodeLotHold actSetLotHold f s)

def actClearLotHold (st : StationNo) (n : Nat) (s : State) : State × Answer :=
  match s.lot? n with
  | none => refuse .noSuch s
  | some l =>
    match l.hold with
    | none => accept [] s
    | some h =>
      unlessFails [(s.grader st && h != .quality, .notPermitted)] s
        (accept [] (s.modLot n fun l => { l with hold := none }))

def execClearLotHold (f : Frame) (s : State) : Result :=
  .next (serve 0x15#8 (supervisorOr [.grader]) (decodeOne 2) actClearLotHold f s)

/-! ### Amend Lot (R17) -/

inductive AmendSelector where
  | owner | contract | both
  deriving DecidableEq, Repr

structure Amendment where
  lot : Nat
  selector : AmendSelector
  owner : Nat
  contract : List Byte
  deriving DecidableEq, Repr

def Amendment.setsOwner (a : Amendment) : Bool := a.selector != .contract
def Amendment.setsContract (a : Amendment) : Bool := a.selector != .owner

def decodeAmendLot (p : List Byte) : Option Amendment := do
  let (n, p) ← takeU 2 p
  let (k, p) ← takeEnum [AmendSelector.owner, AmendSelector.contract, AmendSelector.both] p
  let (o, p) ← takeU 2 p
  let (c, p) ← takeText 8 p
  takeEnd { lot := n, selector := k, owner := o, contract := c } p

/-- The selected fields are written together; owner 0 and eight spaces remove their field (R17). -/
def Lot.amend (a : Amendment) (l : Lot) : Lot :=
  { l with
    owner := if a.setsOwner then (if a.owner = 0 then none else some a.owner) else l.owner
    contract := if a.setsContract then (if allSpaces a.contract then none else some a.contract) else l.contract }

def actAmendLot (_ : StationNo) (a : Amendment) (s : State) : State × Answer :=
  match s.lot? a.lot with
  | none => refuse .noSuch s
  | some l =>
    unlessFails
      [(l.kind != .ip, .mismatch), (a.setsOwner && decide (9999 < a.owner), .format),
       (a.setsContract && !a.contract.all printable, .format)] s
      (accept [] (s.modLot a.lot (Lot.amend a)))

def execAmendLot (f : Frame) (s : State) : Result :=
  .next (serve 0x16#8 (supervisorOr [.grader]) decodeAmendLot actAmendLot f s)

/-! ### Retire Lot (R20) -/

/-- The conditions under which a lot may be retired (R20). -/
def Lot.retirable (l : Lot) : Bool :=
  l.state == .closed && l.standing == 0 && l.pendingTickets == 0 && l.layerCount == 0 && l.portionCount == 0 &&
    l.manifestRefs == 0 && l.hold.isNone

def actRetireLot (_ : StationNo) (n : Nat) (s : State) : State × Answer :=
  match s.lot? n with
  | none => refuse .noSuch s
  | some l =>
    unlessFails [(!l.retirable, .state)] s (accept [] { s with lots := s.lots.filter fun m => m.no != n })

def execRetireLot (f : Frame) (s : State) : Result :=
  .next (serve 0x17#8 onlySupervisor (decodeOne 2) actRetireLot f s)

end Sys2Proof.Machine
end

