-- ==== Sys2Proof/Machine/Bins.lean ====
section
/-! DEFINITION. The bin requests (R24, R37 to R44). -/

namespace Sys2Proof.Machine

/-! ### Read Bin (R43) -/

/-- The sums of quantity × moisture and quantity × test weight over a stack (R55). -/
def moistureSum (ls : List Layer) : Nat := (ls.map fun l => l.kg * l.moisture).sum
def testWeightSum (ls : List Layer) : Nat := (ls.map fun l => l.kg * l.testWeight).sum

def encodeFillOwner : FillOwner → List Byte
  | .none => small 0 ++ optional 2 short none
  | .intake => small 1 ++ optional 2 short none
  | .dryer => small 2 ++ optional 2 short none
  | .transfer id => small 3 ++ optional 2 short (some id)

def encodeHolder (h : Holder) : List Byte :=
  (match h.who with
    | .ticket n => small 0 ++ long n
    | .batch => small 1 ++ long 0
    | .transfer id => small 2 ++ long id) ++ mass h.kg ++ small h.slots

/-- The temperature fields of a bin record (R43). HOT and STALE are sent as 1, NORMAL and FRESH as 0, and the stale
timer as an optional field, absent while it is stopped (DESIGN CHOICE, assumption log 4). -/
def encodeTemp (t : TempFields) : List Byte :=
  optional 2 degrees t.lastReading ++ optional 4 long t.readingTime ++ optional 2 degrees t.baseline ++ onOff t.hot ++
  onOff t.stale ++ optional 4 long t.staleTimer ++ optional 4 long t.lastTurned

def encodeBin (s : State) (b : BinNo) : List Byte :=
  let x := s.bin b
  let c := s.binSet b
  small b.val ++ small (if isTank b then 1 else 0) ++
  mass c.capacity ++ small (layerCapacity b) ++ onOff c.restricted ++ onOff c.autoTurn ++ degrees c.hotLimit ++
  degrees c.riseLimit ++ optional 2 encodeClass (x.identity.map Identity.cls) ++
  optional 2 short (x.identity.bind Identity.ip) ++ small x.layers.length ++ mass x.contents ++
  optional 2 short (average x.contents (moistureSum x.layers)) ++
  optional 2 short (average x.contents (testWeightSum x.layers)) ++
  mass x.reservedKg ++ small x.reservedSlots ++ mass (s.freeSpace b) ++ small (s.freeSlots b) ++
  encodeFillOwner x.fillOwner ++ small x.holders.length ++ listOf encodeHolder (x.holders.take 8) ++
  optional 2 short x.claim ++ optional 1 (fun h => small h.code) x.hold ++ onOff (s.overfull b) ++ encodeTemp x.temp

def actReadBin (_ : StationNo) (n : Nat) (s : State) : State × Answer :=
  match index 42 n with
  | none => refuse .noSuch s
  | some b => accept (encodeBin s b) s

def execReadBin (f : Frame) (s : State) : Result := .next (serve 0x20#8 everyStation (decodeOne 1) actReadBin f s)

/-! ### Read Layers (R44) -/

def encodeLayers : Nat → List Layer → List Byte
  | _, [] => []
  | n, l :: rest =>
    small n ++ short l.lot ++ mass l.kg ++ short l.moisture ++ short l.testWeight ++ encodeLayers (n + 1) rest

def actReadLayers (_ : StationNo) (q : Nat × Nat) (s : State) : State × Answer :=
  match index 42 q.1 with
  | none => refuse .noSuch s
  | some b =>
    let ls := (s.bin b).layers
    let page := (ls.drop (q.2 - 1)).take 16
    unlessFails [(q.2 == 0, .format)] s
      (accept (small ls.length ++ small page.length ++ encodeLayers q.2 page) s)

def execReadLayers (f : Frame) (s : State) : Result :=
  .next (serve 0x21#8 everyStation (decodeTwo 1 1) actReadLayers f s)

/-! ### Set Bin Settings (R24) -/

def decodeBinSettings (p : List Byte) : Option (Nat × BinSettings) := do
  let (n, p) ← takeU 1 p
  let (c, p) ← takeU 4 p
  let (r, p) ← takeOnOff p
  let (a, p) ← takeOnOff p
  let (h, p) ← takeI 2 p
  let (i, p) ← takeI 2 p
  takeEnd (n, { capacity := c, restricted := r, autoTurn := a, hotLimit := h, riseLimit := i }) p

/-- The working range of a temperature limit. -/
def temperatureRange (z : Int) : Bool := decide (-400 ≤ z) && decide (z ≤ 800)

/-- The capacity range of the bin's kind. -/
def capacityRange (b : BinNo) (kg : Nat) : Bool :=
  decide (10000 ≤ kg) && decide (kg ≤ if isTank b then 600000 else 6000000)

def actSetBinSettings (_ : StationNo) (q : Nat × BinSettings) (s : State) : State × Answer :=
  match index 42 q.1 with
  | none => refuse .noSuch s
  | some b =>
    unlessFails
      [(!(capacityRange b q.2.capacity && temperatureRange q.2.hotLimit && temperatureRange q.2.riseLimit), .format),
       (isTank b && q.2.autoTurn, .mismatch), (s.committing, .busy)] s
      (accept [] ((s.setBinSet b q.2).noteOverfull (s.overfull b) b))

def execSetBinSettings (f : Frame) (s : State) : Result :=
  .next (serve 0x22#8 onlySupervisor decodeBinSettings actSetBinSettings f s)

/-! ### Set Bin Hold (R37 to R39) -/

def decodeBinHold (p : List Byte) : Option (Nat × BinHold) := do
  let (n, p) ← takeU 1 p
  let (h, p) ← takeEnum binHolds p
  takeEnd (n, h) p

/-- An ASSIGNED ticket returns to GRADED: its reservation is released, its binding ends, its destination becomes
absent and REASSIGN is set (R5, R39). -/
def State.returnTicket (t : Ticket) (s : State) : State :=
  match t.assignment with
  | none => s
  | some a =>
    let s1 := (s.release a.dest (.ticket t.number)).modLot a.lot (Lot.unbind a.estimate)
    (s1.modTicket t.number fun u => { u with state := .graded, assignment := none }).raise flagReassign

/-- The ASSIGNED tickets of a bin. -/
def State.assignedTo (s : State) (b : BinNo) : List Ticket :=
  s.tickets.filter fun t => t.state == .assigned && (t.assignment.map Assignment.dest) == some b

/-- The entries in WAITING or LAUNCHED that name a bin end with reason HOLD (R38). -/
def State.holdEntries (b : BinNo) (s : State) : State :=
  allEntries.foldl (fun u n =>
    match u.entry n with
    | some e => if e.names b && e.state != .ended then u.endEntry n .hold else u
    | none => u) s

/-- The transfers that name a bin (R38). -/
def State.namingBin (s : State) (b : BinNo) : List Victim := s.victims (fun t => t.bins.contains b) .hold

/-- The effects of a hold set on a bin that was not held (R38, R39). -/
def State.imposeHold (b : BinNo) (h : BinHold) (s : State) : State :=
  let s1 := (s.setBin b { s.bin b with hold := some h }).holdEntries b
  let s2 := (s.assignedTo b).foldl (fun u t => u.returnTicket t) s1
  s2.endTransfers (s2.namingBin b)

def actSetBinHold (st : StationNo) (q : Nat × BinHold) (s : State) : State × Answer :=
  match index 42 q.1 with
  | none => refuse .noSuch s
  | some b =>
    unlessFails [(s.grader st && q.2 != .quality, .notPermitted)] s
      (if (s.bin b).hold.isSome then accept (small 0 ++ small 0) (s.setBin b { s.bin b with hold := some q.2 })
       else accept (small (s.namingBin b).length ++ small (s.assignedTo b).length) (s.imposeHold b q.2))

def execSetBinHold (f : Frame) (s : State) : Result :=
  .next (serve 0x23#8 (supervisorOr [.grader]) decodeBinHold actSetBinHold f s)

/-! ### Clear Bin Hold (R40) -/

/-- The dryer tries its discharge launch again when its destination's hold is cleared (R40, R93). -/
def State.liftHold (b : BinNo) (s : State) : State :=
  let s1 := s.setBin b { s.bin b with hold := none }
  if (s.dryer.batch.map Batch.dest) = some b ∧ s.dryer.state = .dischargeWait ∧ s.dryer.autoDischarge then
    s1.tryDischarge.1
  else s1

def actClearBinHold (st : StationNo) (n : Nat) (s : State) : State × Answer :=
  match index 42 n with
  | none => refuse .noSuch s
  | some b =>
    match (s.bin b).hold with
    | none => accept [] s
    | some h => unlessFails [(s.grader st && h != .quality, .notPermitted)] s (accept [] (s.liftHold b))

def execClearBinHold (f : Frame) (s : State) : Result :=
  .next (serve 0x24#8 (supervisorOr [.grader]) (decodeOne 1) actClearBinHold f s)

/-! ### Sweep Close (R41, R42) -/

/-- Every layer is written off to its lot and the bin returns to UNASSIGNED (R42). -/
def State.sweep (b : BinNo) (s : State) : State :=
  let s1 := (s.bin b).layers.foldl (fun u l => u.modLot l.lot (Lot.writeOff l.kg)) s
  s1.setBin b { s1.bin b with layers := [] }.reevaluate

def actSweepClose (_ : StationNo) (n : Nat) (s : State) : State × Answer :=
  match index 42 n with
  | none => refuse .noSuch s
  | some b =>
    let x := s.bin b
    unlessFails [(x.hold.isSome, .protect), (x.fillOwner != .none || x.claim.isSome, .busy)] s
      (accept (small x.layers.length ++ mass x.contents) (s.sweep b))

def execSweepClose (f : Frame) (s : State) : Result :=
  .next (serve 0x25#8 onlySupervisor (decodeOne 1) actSweepClose f s)

end Sys2Proof.Machine
end

