-- ==== Sys2Proof/Machine/Scales.lean ====
section
/-! DEFINITION. The scale channels and their requests (R62 to R67, R82), and the signal expiry (R64). -/

namespace Sys2Proof.Machine

/-- The current weight: the converted weight of the newest sample in the window. -/
def Channel.current (c : Channel) : Option Int := c.window.getLast?.map Sample.weight

/-- The window is emptied; the status becomes MOTION when a sample was accepted within the last 3 seconds (the
signal timer still runs), and NO_SIGNAL otherwise (R62, R65; DEDUCED, assumption log 23). -/
def Channel.emptied (c : Channel) : Channel :=
  { c with window := [], status := if c.signal.isSome then .motion else .noSignal }

/-! ### Scale Sample (R63) -/

def decodeScaleSample (p : List Byte) : Option (Nat × Int) := do
  let (n, p) ← takeU 1 p
  let (c, p) ← takeI 3 p
  takeEnd (n, c) p

/-- The channel after a sample has been accepted (R63). -/
def Channel.sample (set : ScaleSettings) (now : Nat) (x : Int) (c : Channel) : Channel :=
  let w := convert set.cal x
  let full := c.window ++ [{ counts := x, weight := w }]
  let window := full.drop (full.length - set.n)
  { window := window, lastSample := some now, signal := some Config.signalSeconds, status := sampleStatus set window w }

/-- The status has changed to OVERLOAD or UNDERLOAD from any other status (R63). -/
def faultStatus (before after : ChannelStatus) : Bool :=
  (after == .overload || after == .underload) && after != before

def actScaleSample (_ : StationNo) (q : Nat × Int) (s : State) : State × Answer :=
  match index 3 q.1 with
  | none => refuse .noSuch s
  | some c =>
    let set := s.scaleSet c
    unlessFails [(!set.cal.calibrated, .uncal)] s
      (let y := (s.channel c).sample set s.timebase q.2
       accept (weight (convert set.cal q.2) ++ small y.status.code)
         ((s.setChannel c y).raiseIf (faultStatus (s.channel c).status y.status) flagScaleFault))

def execScaleSample (f : Frame) (s : State) : Result :=
  .next (serve 0x30#8 (some [.scale]) decodeScaleSample actScaleSample f s)

/-! ### Set Calibration (R62) -/

def decodeCalibration (p : List Byte) : Option (Nat × Calibration) := do
  let (n, p) ← takeU 1 p
  let (z, p) ← takeI 3 p
  let (g, p) ← takeU 4 p
  let (d, p) ← takeU 4 p
  let (c, p) ← takeU 4 p
  takeEnd (n, { calibrated := true, zero := z, span := g, division := d, capacity := c }) p

/-- The ranges of a calibration (R62). -/
def Calibration.inRange (c : Calibration) : Bool :=
  decide (1 ≤ c.span) && decide (c.span ≤ 10000000) && [1, 2, 5, 10, 20, 50].contains c.division &&
    decide (1000 ≤ c.capacity) && decide (c.capacity ≤ 120000)

def actSetCalibration (_ : StationNo) (q : Nat × Calibration) (s : State) : State × Answer :=
  match index 3 q.1 with
  | none => refuse .noSuch s
  | some c =>
    unlessFails [(!q.2.inRange, .format), (s.committing, .busy)] s
      (accept [] ((s.setScaleSet c { s.scaleSet c with cal := q.2 }).setChannel c (s.channel c).emptied))

def execSetCalibration (f : Frame) (s : State) : Result :=
  .next (serve 0x31#8 onlySupervisor decodeCalibration actSetCalibration f s)

/-! ### Set Scale Parameters (R65) -/

def decodeScaleParameters (p : List Byte) : Option (Nat × Nat × Nat) := do
  let (c, p) ← takeU 1 p
  let (n, p) ← takeU 1 p
  let (b, p) ← takeU 1 p
  takeEnd (c, n, b) p

/-- The window is emptied, and the status is set as for Set Calibration when the channel is CALIBRATED (R65). -/
def State.emptyWindow (c : ChannelNo) (s : State) : State :=
  s.setChannel c
    (if (s.scaleSet c).cal.calibrated then (s.channel c).emptied else { s.channel c with window := [] })

def actSetScaleParameters (_ : StationNo) (q : Nat × Nat × Nat) (s : State) : State × Answer :=
  match index 3 q.1 with
  | none => refuse .noSuch s
  | some c =>
    unlessFails
      [(!(decide (3 ≤ q.2.1) && decide (q.2.1 ≤ 16) && decide (1 ≤ q.2.2) && decide (q.2.2 ≤ 5)), .format),
       (s.committing, .busy)] s
      (accept [] ((s.setScaleSet c { s.scaleSet c with n := q.2.1, band := q.2.2 }).emptyWindow c))

def execSetScaleParameters (f : Frame) (s : State) : Result :=
  .next (serve 0x32#8 onlySupervisor decodeScaleParameters actSetScaleParameters f s)

/-! ### Zero Scale (R66) -/

/-- The checks of Zero Scale, in order (R66). -/
def zeroChecks (s : State) (c : ChannelNo) : List (Bool × Status) :=
  let x := s.channel c
  let set := s.scaleSet c
  [(!set.cal.calibrated, .uncal), (x.status == .motion, .motion), (x.status != .stable, .state),
   (!zeroLimit set.cal (x.current.getD 0), .state), (s.committing, .busy)]

def actZeroScale (_ : StationNo) (n : Nat) (s : State) : State × Answer :=
  match index 3 n with
  | none => refuse .noSuch s
  | some c =>
    let zero := newZero (s.channel c).window
    let set := s.scaleSet c
    unlessFails (zeroChecks s c) s
      (accept (counts zero)
        ((s.setScaleSet c { set with cal := { set.cal with zero := zero } }).setChannel c
          { s.channel c with window := [], status := .motion }))

def execZeroScale (f : Frame) (s : State) : Result :=
  .next (serve 0x33#8 (supervisorOr [.scale]) (decodeOne 1) actZeroScale f s)

/-! ### Capture (R67) -/

/-- The checks of a capture, in order; every status but STABLE and MOTION is answered STATE (R67). -/
def captureChecks (s : State) (c : ChannelNo) : List (Bool × Status) :=
  let x := s.channel c
  let cal := (s.scaleSet c).cal
  let w := x.current.getD 0
  [(!cal.calibrated, .uncal), (x.status == .motion, .motion), (x.status != .stable, .state),
   (!(decide ((cal.division : Int) ≤ w) && decide (w ≤ cal.capacity)), .state)]

/-- The captured weight in kilograms (R67). -/
def State.captured (s : State) (c : ChannelNo) : Nat := ((s.channel c).current.getD 0).toNat

/-! ### Read Scale (R82) -/

def encodeScale (set : ScaleSettings) (c : Channel) : List Byte :=
  onOff set.cal.calibrated ++ counts set.cal.zero ++ long set.cal.span ++ mass set.cal.division ++
  mass set.cal.capacity ++ small set.n ++ small set.band ++ small c.window.length ++ optional 4 weight c.current ++
  small c.status.code

def actReadScale (_ : StationNo) (n : Nat) (s : State) : State × Answer :=
  match index 3 n with
  | none => refuse .noSuch s
  | some c => accept (encodeScale (s.scaleSet c) (s.channel c)) s

def execReadScale (f : Frame) (s : State) : Result := .next (serve 0x3C#8 everyStation (decodeOne 1) actReadScale f s)

/-! ### Signal expiry (R64) -/

/-- The window is emptied, the status becomes NO_SIGNAL and SCALE_FAULT is set; the timer does not run again until
the next accepted sample. A timer that is not running has no expiry. -/
def State.signalExpired (c : ChannelNo) (s : State) : State :=
  let x := s.channel c
  if x.signal.isSome then
    (s.setChannel c { x with window := [], signal := none, status := .noSignal }).raise flagScaleFault
  else s

def execSignalExpiry (c : ChannelNo) (s : State) : Result := .next (s.whenPowered fun t => t.signalExpired c)

end Sys2Proof.Machine
end

