-- ==== Sys2Proof/Machine/Tickets.lean ====
section
/-! DEFINITION. The vehicle registry and the ticket table: their requests (R68 to R82) and the ticket expiry (R79). -/

namespace Sys2Proof.Machine

/-! ### Tares -/

/-- A stored tare is valid when the tare validity is above 0, its age is known and is at most the setting (R61, R69). -/
def State.tareValid (s : State) (t : StoredTare) : Bool :=
  let days := s.settings.intake.tareValidity
  match s.age t.stamp with
  | some a => decide (0 < days) && decide (a ≤ days * Config.daySeconds)
  | none => false

/-- The default tare of a vehicle class (R74). -/
def State.defaultTare (s : State) (c : Fin 4) : Nat := s.settings.intake.defaultTare.get c

/-- The tare of a vehicle at this moment, and its source: the stored tare when it is valid, otherwise the default
tare of its class (R74, R79). -/
def State.tareNow (s : State) (tag : List Byte) : Nat × TareSource :=
  match s.vehicle? tag with
  | none => (s.defaultTare 0, .default)
  | some v =>
    match v.tare with
    | some t => if s.tareValid t then (t.kg, .stored) else (s.defaultTare v.cls, .default)
    | none => (s.defaultTare v.cls, .default)

/-! ### Settling a ticket (R78, R80) -/

/-- A settled record in an answer (R78, R80). The tare source travels as an optional field of its own, absent in a void
record (DESIGN CHOICE, assumption logs 4 and 31). -/
def encodeSettlement (r : Settlement) : List Byte :=
  long r.number ++ r.tag ++ small r.outcome.code ++ mass r.gross ++ optional 4 mass r.tare ++
  optional 1 (fun x => small x.code) r.source ++ optional 4 mass r.net ++ optional 1 (fun b => small b.val) r.dest ++
  optional 2 short r.lot ++ long r.time

/-- The ticket leaves the table and its vehicle's open ticket becomes absent. -/
def State.removeTicket (t : Ticket) (s : State) : State :=
  { s with tickets := s.tickets.filter fun u => u.number != t.number }.modVehicle t.tag fun v => { v with openTicket := none }

/-- The net of a close: gross less tare, taken as 0 when not above 0 (R78). -/
def Ticket.net (t : Ticket) (tare : Nat) : Nat := t.gross - tare

/-- The record a close is settled into (R78): the outcome is NEGATIVE_NET when the net is not above 0. -/
def Ticket.settled (t : Ticket) (tare : Nat) (source : TareSource) (outcome : TicketOutcome) (now : Nat) : Settlement :=
  { number := t.number, tag := t.tag, outcome := if t.net tare = 0 then .negativeNet else outcome, gross := t.gross,
    tare := some tare, source := some source, net := some (t.net tare), dest := t.assignment.map Assignment.dest,
    lot := t.assignment.map Assignment.lot, time := now }

/-- The grain a close deposits (R78). -/
def Ticket.grain (t : Ticket) (lot net : Nat) : Portion :=
  { lot := lot, kg := net, moisture := (t.grade.map Grade.moisture).getD 0
    testWeight := (t.grade.map Grade.testWeight).getD 0 }

/-- Closes a ticket (R78): the deposit, HELD_DEPOSIT, the lot's credit, the release and the end of the binding. -/
def State.closeTicket (t : Ticket) (tare : Nat) (s : State) : State :=
  match t.assignment with
  | none => s.removeTicket t
  | some a =>
    let net := t.net tare
    let grain := t.grain a.lot net
    let who := HolderRef.ticket t.number
    let s1 :=
      if net = 0 then s
      else
        match s.deposit a.dest who grain false with
        | some u => u.raiseIf (s.bin a.dest).hold.isSome flagHeldDeposit
        | none => s
    let s2 := s1.modLot a.lot (Lot.credit net grain.moisture t.number a.estimate s1.settings.lotSize)
    (s2.release a.dest who).removeTicket t

/-- The record a void is settled into (R80). Destination and lot are those of the ticket's present assignment, so they
are absent for a ticket that a bin hold has returned to GRADED (R39); the tare source is absent with the tare, although
R80 does not name it among the absent fields (DESIGN CHOICE, assumption log 31). -/
def Ticket.voided (t : Ticket) (outcome : TicketOutcome) (now : Nat) : Settlement :=
  { number := t.number, tag := t.tag, outcome := outcome, gross := t.gross, tare := none, source := none, net := none,
    dest := t.assignment.map Assignment.dest, lot := t.assignment.map Assignment.lot, time := now }

/-- Voids a ticket (R80): an ASSIGNED ticket's reservation is released and its binding ends. -/
def State.voidTicket (t : Ticket) (s : State) : State :=
  let s1 :=
    match t.assignment with
    | none => s
    | some a => (s.release a.dest (.ticket t.number)).modLot a.lot (Lot.unbind a.estimate)
  s1.removeTicket t

/-- A ticket expires (R79): a DUMPED ticket closes on an estimated tare, any other is voided. -/
def State.expireTicket (t : Ticket) (s : State) : State :=
  let s1 :=
    if t.state = .dumped then
      let tare := s.tareNow t.tag
      { s.closeTicket t tare.1 with lastExpired := some (t.settled tare.1 tare.2 .estimatedTare s.terminalTime) }
    else { s.voidTicket t with lastExpired := some (t.voided .expired s.terminalTime) }
  s1.raise flagTicketExpired

/-- The age of a ticket has reached the ticket timeout (R79). -/
def State.overdue (s : State) (t : Ticket) : Bool := decide ((s.settings.intake.ticketTimeout * 60 : Int) ≤ s.ticketAge t)

/-- Every overdue ticket expires, one at a time in ascending order of number (R79). -/
def State.expireOverdue (s : State) : State := (s.tickets.filter s.overdue).foldl (fun u t => u.expireTicket t) s

/-- The expiry of an open ticket (R79); a number that is not open has none. -/
def execTicketExpiry (number : Nat) (s : State) : Result :=
  .next (s.whenPowered fun u =>
    match u.ticket? number with
    | some t => u.expireTicket t
    | none => u)

/-! ### Weigh In (R68, R70, R71) -/

structure WeighIn where
  scale : Nat
  tag : List Byte
  cls : Nat
  singlePass : Bool
  deriving DecidableEq, Repr

def decodeWeighIn (p : List Byte) : Option WeighIn := do
  let (n, p) ← takeU 1 p
  let (t, p) ← takeText 10 p
  let (c, p) ← takeU 1 p
  let (y, p) ← takeOnOff p
  takeEnd { scale := n, tag := t, cls := c, singlePass := y } p

/-- The number a new ticket takes (R70). -/
def State.nextTicketNo (s : State) : Nat :=
  firstFree (s.tickets.map Ticket.number) Config.maxTicketNo 33 s.nextTicket

/-- The entry a full registry retires: no open ticket, the smallest last-seen time, the earliest registered (R68). -/
def retiree (vs : List Vehicle) : Option Vehicle :=
  vs.foldl (fun best v =>
    if v.openTicket.isSome then best
    else
      match best with
      | none => some v
      | some w => if v.lastSeen < w.lastSeen then some v else best) none

/-- Registers a vehicle, or replaces the class of a registered one; its last-seen time becomes now (R68). -/
def State.register (tag : List Byte) (c : Fin 4) (s : State) : State :=
  match s.vehicle? tag with
  | some _ => s.modVehicle tag fun v => { v with cls := c, lastSeen := s.terminalTime }
  | none =>
    let kept :=
      if s.vehicles.length < Config.maxVehicles then s.vehicles
      else
        match retiree s.vehicles with
        | some w => s.vehicles.filter fun v => v.tag != w.tag
        | none => s.vehicles
    { s with vehicles := kept ++ [{ tag := tag, cls := c, tare := none, openTicket := none, lastSeen := s.terminalTime }] }

/-- Single-pass is honoured when it was asked for and the stored tare is valid at this moment (R71). -/
def State.honoursSinglePass (s : State) (tag : List Byte) (asked : Bool) : Bool :=
  asked &&
  match s.vehicle? tag with
  | some v =>
    match v.tare with
    | some t => s.tareValid t
    | none => false
  | none => false

/-- Whether a registered vehicle has an open ticket. -/
def State.hasOpenTicket (s : State) (tag : List Byte) : Bool :=
  match s.vehicle? tag with
  | some v => v.openTicket.isSome
  | none => false

/-- The ticket a weigh-in opens (R71). -/
def State.newTicket (s : State) (c : ChannelNo) (w : WeighIn) : Ticket :=
  { number := s.nextTicketNo, tag := w.tag, scale := c, gross := s.captured c, grossTime := s.terminalTime,
    grossBase := s.timebase, singlePass := s.honoursSinglePass w.tag w.singlePass, grade := none, assignment := none,
    state := .weighedIn }

/-- An accepted weigh-in (R68, R70, R71). -/
def State.openTicket (c : ChannelNo) (cls : Fin 4) (w : WeighIn) (s : State) : State :=
  let t := s.newTicket c w
  let s1 := (s.register w.tag cls).modVehicle w.tag fun v => { v with openTicket := some t.number }
  { s1 with tickets := insertTicket t s1.tickets, nextTicket := wrapNext Config.maxTicketNo t.number }

def actWeighIn (_ : StationNo) (w : WeighIn) (s : State) : State × Answer :=
  match index 3 w.scale with
  | none => refuse .noSuch s
  | some c =>
    match index 4 w.cls with
    | none => refuse .format s
    | some cls =>
      let t := s.newTicket c w
      unlessFails
        ([(!goodTag w.tag, .format)] ++ captureChecks s c ++
          [(s.hasOpenTicket w.tag, .state), (decide (Config.maxTickets ≤ s.tickets.length), .full)]) s
        (accept (long t.number ++ mass t.gross ++ onOff t.singlePass) (s.openTicket c cls w))

def execWeighIn (f : Frame) (s : State) : Result :=
  .next (serve 0x34#8 (supervisorOr [.scale]) decodeWeighIn actWeighIn f s)

/-! ### Assignment (R73 to R75) -/

/-- The grain of a ticket is wet when its moisture is above the dry limit of its commodity (R72). -/
def State.isWet (s : State) (g : Grade) : Bool := decide (s.settings.intake.dryLimit.get g.cls.commodity < g.moisture)

/-- A ticket's estimate (R74). -/
def State.estimate (s : State) (t : Ticket) : Nat := t.gross - (s.tareNow t.tag).1

/-- The identity of a ticket (R26). -/
def Grade.identity (g : Grade) : Identity := { cls := g.cls, ip := g.ip }

/-- The bin checks of R73, in order, for a grade and an estimate, made for a station. -/
def State.binChecks (s : State) (st : StationNo) (g : Grade) (estimate : Nat) (b : BinNo) : List (Bool × Status) :=
  let x := s.bin b
  [(s.isWet g != isTank b, .mismatch),
   (x.hold.isSome, .protect),
   ((s.binSet b).restricted && !s.supervisor st, .notPermitted),
   (!(x.fillOwner.permits (.ticket 0)), .busy),
   (match x.identity with | some i => i.cls != g.cls | none => false, .mismatch),
   (match x.identity with | some i => i.ip != g.ip | none => false, .mismatch),
   (decide (s.freeSpace b < estimate ∨ s.freeSlots b < 1), .noSpace)]

/-- A bin passes every bin check of R73. -/
def State.passes (s : State) (st : StationNo) (g : Grade) (estimate : Nat) (b : BinNo) : Bool :=
  (firstFailure (s.binChecks st g estimate b)).isNone

/-- The bin automatic assignment chooses (R75): for wet grain the passing tank with the larger free space, tank 40 of
two equal ones; for dry grain the first passing storage bin of the ticket's class, and then the first passing
UNASSIGNED one. -/
def State.chooseBin (s : State) (st : StationNo) (g : Grade) (estimate : Nat) : Option BinNo :=
  if s.isWet g then
    match s.passes st g estimate 40, s.passes st g estimate 41 with
    | true, true => if s.freeSpace 40 < s.freeSpace 41 then some 41 else some 40
    | true, false => some 40
    | false, true => some 41
    | false, false => none
  else
    let storage := allBins.filter fun b => !isTank b
    match storage.find? fun b => ((s.bin b).identity.map Identity.cls) == some g.cls && s.passes st g estimate b with
    | some b => some b
    | none => storage.find? fun b => (s.bin b).identity.isNone && s.passes st g estimate b

/-- Makes an assignment that has passed every check (R74). -/
def State.assign (t : Ticket) (g : Grade) (b : BinNo) (r : BindResult) (s : State) : State :=
  let kg := s.estimate t
  let s1 := (s.bindTo r g.cls kg).reserve b (.ticket t.number) g.identity kg 1
  s1.modTicket t.number fun u =>
    { u with state := .assigned, assignment := some { dest := b, lot := r.lot, estimate := kg } }

/-- The lot check of R73 and then the assignment: refused with the lot's code, or made, with the lot. -/
def State.assignChecked (t : Ticket) (g : Grade) (b : BinNo) (s : State) : State × Except Status Nat :=
  match s.bindCheck g (s.estimate t) with
  | .refused code => (s, .error code)
  | r => (s.assign t g b r, .ok r.lot)

/-- Automatic assignment (R75): the chosen bin and lot, or the code that refused it. -/
def State.autoAssign (st : StationNo) (t : Ticket) (g : Grade) (s : State) : State × Except Status (BinNo × Nat) :=
  match s.chooseBin st g (s.estimate t) with
  | none => (s, .error .noSpace)
  | some b =>
    match s.assignChecked t g b with
    | (s1, .ok lot) => (s1, .ok (b, lot))
    | (s1, .error code) => (s1, .error code)

/-! ### Grade Report (R72) -/

structure GradeReport where
  ticket : Nat
  commodity : Nat
  grade : Nat
  moisture : Nat
  testWeight : Nat
  foreign : Nat
  ip : Nat
  deriving DecidableEq, Repr

def decodeGradeReport (p : List Byte) : Option GradeReport := do
  let (t, p) ← takeU 4 p
  let (c, p) ← takeU 1 p
  let (g, p) ← takeU 1 p
  let (m, p) ← takeU 2 p
  let (w, p) ← takeU 2 p
  let (x, p) ← takeU 2 p
  let (i, p) ← takeU 2 p
  takeEnd { ticket := t, commodity := c, grade := g, moisture := m, testWeight := w, foreign := x, ip := i } p

/-- A class from two numbers, when both lie in their ranges. -/
def classOf (c g : Nat) : Option GrainClass := do
  let c ← index 16 c
  let g ← index 8 g
  some { commodity := c, grade := g }

/-- The grade a report gives: the measurements are clamped (R48), and IP lot 0 is none. -/
def GradeReport.toGrade (r : GradeReport) (c : GrainClass) : Grade :=
  { cls := c, moisture := clampMoisture r.moisture, testWeight := clampTestWeight r.testWeight,
    foreign := clampForeign r.foreign, ip := if r.ip = 0 then none else some r.ip }

/-- The assignment result in an answer: NONE, the destination bin, or the refusing code (assumption log 4). -/
def encodeAssigned : Option (Except Status (BinNo × Nat)) → List Byte
  | none => small 0 ++ small 0 ++ optional 2 short none
  | some (.ok (b, lot)) => small 1 ++ small b.val ++ optional 2 short (some lot)
  | some (.error code) => small 2 ++ [code.code] ++ optional 2 short none

def actGradeReport (st : StationNo) (r : GradeReport) (s : State) : State × Answer :=
  match s.ticket? r.ticket with
  | none => refuse .noSuch s
  | some t =>
    match classOf r.commodity r.grade with
    | none => refuse .format s
    | some c =>
      unlessFails [(t.state == .assigned || t.state == .dumped, .state)] s
        (let g := r.toGrade c
         let s1 := s.modTicket t.number fun u => { u with state := .graded, grade := some g }
         let wet := onOff (s.isWet g)
         if s1.settings.intake.autoAssign then
           match s1.autoAssign st t g with
           | (s2, .ok x) => accept (wet ++ encodeAssigned (some (.ok x))) s2
           | (s2, .error code) =>
             accept (wet ++ encodeAssigned (some (.error code))) (s2.raiseIf (code == .noSpace) flagNoSpace)
         else accept (wet ++ encodeAssigned none) s1)

def execGradeReport (f : Frame) (s : State) : Result :=
  .next (serve 0x35#8 (supervisorOr [.grader]) decodeGradeReport actGradeReport f s)

/-! ### Assign Dump (R73) -/

/-- AUTO in the bin byte of Assign Dump (R175). -/
def autoBin : Nat := 0xFF

def encodeAssignment (b : BinNo) (lot kg : Nat) : List Byte := small b.val ++ short lot ++ mass kg

def actAssignDump (st : StationNo) (q : Nat × Nat) (s : State) : State × Answer :=
  match s.ticket? q.1 with
  | none => refuse .noSuch s
  | some t =>
    if q.2 = autoBin then
      match t.state, t.grade with
      | .graded, some g =>
        match s.autoAssign st t g with
        | (s1, .ok x) => accept (encodeAssignment x.1 x.2 (s.estimate t)) s1
        | (s1, .error code) => refuse code s1
      | _, _ => refuse .state s
    else
      match index 42 q.2 with
      | none => refuse .noSuch s
      | some b =>
        match t.state, t.grade with
        | .graded, some g =>
          unlessFails (s.binChecks st g (s.estimate t) b) s
            (match s.assignChecked t g b with
              | (s1, .ok lot) => accept (encodeAssignment b lot (s.estimate t)) s1
              | (s1, .error code) => refuse code s1)
        | _, _ => refuse .state s

def execAssignDump (f : Frame) (s : State) : Result :=
  .next (serve 0x36#8 (supervisorOr [.grader, .scale]) (decodeTwo 4 1) actAssignDump f s)

/-! ### Dump Report (R76) -/

/-- The tare of a single-pass close: the vehicle's stored tare as it stands at the dump. -/
def State.storedTare (s : State) (tag : List Byte) : Nat :=
  match s.vehicle? tag with
  | some v =>
    match v.tare with
    | some t => t.kg
    | none => s.defaultTare v.cls
  | none => s.defaultTare 0

def actDumpReport (_ : StationNo) (n : Nat) (s : State) : State × Answer :=
  match s.ticket? n with
  | none => refuse .noSuch s
  | some t =>
    unlessFails [(t.state != .assigned, .state)] s
      (let s1 := s.modTicket n fun u => { u with state := .dumped }
       if t.singlePass then
         let tare := s.storedTare t.tag
         let r := t.settled tare .stored .storedTare s.terminalTime
         accept (encodeSettlement r) { s1.closeTicket t tare with lastClosed := some r }
       else accept [] s1)

def execDumpReport (f : Frame) (s : State) : Result :=
  .next (serve 0x37#8 (supervisorOr [.scale]) (decodeOne 4) actDumpReport f s)

/-! ### Weigh Out (R77) -/

def decodeWeighOut (p : List Byte) : Option (Nat × List Byte) := do
  let (n, p) ← takeU 1 p
  let (t, p) ← takeText 10 p
  takeEnd (n, t) p

/-- The stored tare becomes the captured weight, stamped with terminal time (R69). -/
def State.storeTare (tag : List Byte) (kg : Nat) (s : State) : State :=
  s.modVehicle tag fun v => { v with tare := some { kg := kg, stamp := s.terminalTime } }

/-- The last-seen time becomes the current terminal time (R68). -/
def State.seen (tag : List Byte) (s : State) : State := s.modVehicle tag fun v => { v with lastSeen := s.terminalTime }

/-- What a capture does to the vehicle's open ticket (R77). -/
def State.weighOut (tag : List Byte) (kg : Nat) (open? : Option Ticket) (s : State) : State × Answer :=
  match open? with
  | none => ((s.storeTare tag kg).seen tag, ⟨.tareOnly, []⟩)
  | some t =>
    if t.state = .dumped then
      let r := t.settled kg .weighed .normal s.terminalTime
      accept (encodeSettlement r)
        (({ s.closeTicket t kg with lastClosed := some r }.storeTare tag kg).seen tag)
    else
      let r := t.voided .rejected s.terminalTime
      accept (encodeSettlement r) ({ s.voidTicket t with lastClosed := some r }.seen tag)

def actWeighOut (_ : StationNo) (q : Nat × List Byte) (s : State) : State × Answer :=
  match index 3 q.1 with
  | none => refuse .noSuch s
  | some c =>
    match s.vehicle? q.2 with
    | none => refuse .noSuch s
    | some v =>
      unlessFails (captureChecks s c) s
        (s.weighOut q.2 (s.captured c) (v.openTicket.bind fun n => s.ticket? n))

def execWeighOut (f : Frame) (s : State) : Result :=
  .next (serve 0x38#8 (supervisorOr [.scale]) decodeWeighOut actWeighOut f s)

/-! ### Void Ticket (R80) and Forget Vehicle (R69) -/

def actVoidTicket (_ : StationNo) (n : Nat) (s : State) : State × Answer :=
  match s.ticket? n with
  | none => refuse .noSuch s
  | some t =>
    let r := t.voided .voided s.terminalTime
    unlessFails [(t.state == .dumped, .state)] s
      (accept (encodeSettlement r) { s.voidTicket t with lastClosed := some r })

def execVoidTicket (f : Frame) (s : State) : Result :=
  .next (serve 0x39#8 onlySupervisor (decodeOne 4) actVoidTicket f s)

/-- A request whose one field is a vehicle tag. -/
def decodeTag (p : List Byte) : Option (List Byte) := do
  let (t, p) ← takeText 10 p
  takeEnd t p

def actForgetVehicle (_ : StationNo) (tag : List Byte) (s : State) : State × Answer :=
  match s.vehicle? tag with
  | none => refuse .noSuch s
  | some v =>
    unlessFails [(v.openTicket.isSome, .state)] s
      (accept [] { s with vehicles := s.vehicles.filter fun w => w.tag != tag })

def execForgetVehicle (f : Frame) (s : State) : Result :=
  .next (serve 0x3A#8 onlySupervisor decodeTag actForgetVehicle f s)

/-! ### Set Intake Settings (R81) -/

inductive IntakeSetting where
  | dryLimit (commodity limit : Nat)
  | defaultTare (cls kg : Nat)
  | tareValidity (days : Nat)
  | ticketTimeout (minutes : Nat)
  | autoAssign (on : Bool)
  deriving DecidableEq, Repr

def decodeIntakeSetting (p : List Byte) : Option IntakeSetting := do
  let (k, p) ← takeU 1 p
  match k with
  | 0 => do
    let (c, p) ← takeU 1 p
    let (l, p) ← takeU 2 p
    takeEnd (.dryLimit c l) p
  | 1 => do
    let (c, p) ← takeU 1 p
    let (t, p) ← takeU 4 p
    takeEnd (.defaultTare c t) p
  | 2 => do
    let (d, p) ← takeU 2 p
    takeEnd (.tareValidity d) p
  | 3 => do
    let (m, p) ← takeU 2 p
    takeEnd (.ticketTimeout m) p
  | 4 => do
    let (b, p) ← takeOnOff p
    takeEnd (.autoAssign b) p
  | _ => none

/-- The ranges of the intake settings (R81). -/
def IntakeSetting.inRange : IntakeSetting → Bool
  | .dryLimit c l => decide (c ≤ 15) && decide (100 ≤ l) && decide (l ≤ 250)
  | .defaultTare c t => decide (c ≤ 3) && decide (t ≤ 40000)
  | .tareValidity d => decide (d ≤ 365)
  | .ticketTimeout m => decide (10 ≤ m) && decide (m ≤ 1440)
  | .autoAssign _ => true

/-- The setting written (R81). -/
def IntakeSettings.apply (i : IntakeSettings) : IntakeSetting → IntakeSettings
  | .dryLimit c l => { i with dryLimit := i.dryLimit.setIfInBounds c l }
  | .defaultTare c t => { i with defaultTare := i.defaultTare.setIfInBounds c t }
  | .tareValidity d => { i with tareValidity := d }
  | .ticketTimeout m => { i with ticketTimeout := m }
  | .autoAssign b => { i with autoAssign := b }

/-- A new ticket timeout is applied at once to every open ticket (R79, R81). -/
def State.setIntake (x : IntakeSetting) (s : State) : State :=
  let s1 := { s with settings := { s.settings with intake := s.settings.intake.apply x } }
  match x with
  | .ticketTimeout _ => s1.expireOverdue
  | _ => s1

def actSetIntakeSettings (_ : StationNo) (x : IntakeSetting) (s : State) : State × Answer :=
  unlessFails [(!x.inRange, .format), (s.committing, .busy)] s (accept [] (s.setIntake x))

def execSetIntakeSettings (f : Frame) (s : State) : Result :=
  .next (serve 0x3B#8 onlySupervisor decodeIntakeSetting actSetIntakeSettings f s)

/-! ### Reads (R69, R82) -/

/-- The stored tare and its stamp are absent as one (DESIGN CHOICE, assumption log 4). -/
def encodeVehicle (s : State) (v : Vehicle) : List Byte :=
  v.tag ++ small v.cls.val ++ optional 8 (fun t : StoredTare => mass t.kg ++ long t.stamp) v.tare ++
  onOff (match v.tare with | some t => s.tareValid t | none => false) ++ optional 4 long v.openTicket ++
  long v.lastSeen

def actReadVehicle (_ : StationNo) (tag : List Byte) (s : State) : State × Answer :=
  match s.vehicle? tag with
  | none => refuse .noSuch s
  | some v => accept (encodeVehicle s v) s

def execReadVehicle (f : Frame) (s : State) : Result := .next (serve 0x3D#8 everyStation decodeTag actReadVehicle f s)

/-- The grade fields of a ticket. They are absent as one, and the IP lot as a field of its own (DESIGN CHOICE, assumption
log 4). -/
def encodeGrade (g : Grade) : List Byte :=
  encodeClass g.cls ++ short g.moisture ++ short g.testWeight ++ short g.foreign ++ optional 2 short g.ip

/-- A count of seconds that may be negative: a negative one does not fit its field (assumption log 9). -/
def secondsOf (z : Int) : List Byte := if 0 ≤ z then long z.toNat else le 4 (Config.oversizeField 4 z)

def encodeTicket (s : State) (t : Ticket) : List Byte :=
  long t.number ++ t.tag ++ small t.scale.val ++ mass t.gross ++ long t.grossTime ++ secondsOf t.grossBase ++
  onOff t.singlePass ++ optional 11 encodeGrade t.grade ++
  optional 1 (fun a : Assignment => small a.dest.val) t.assignment ++
  optional 2 (fun a : Assignment => short a.lot) t.assignment ++
  optional 4 (fun a : Assignment => mass a.estimate) t.assignment ++ small t.state.code ++ secondsOf (s.ticketAge t)

def actReadTicket (_ : StationNo) (n : Nat) (s : State) : State × Answer :=
  match s.ticket? n with
  | none => refuse .noSuch s
  | some t => accept (encodeTicket s t) s

def execReadTicket (f : Frame) (s : State) : Result :=
  .next (serve 0x3E#8 everyStation (decodeOne 4) actReadTicket f s)

/-- The open tickets above a number, ascending. -/
def State.ticketsAbove (s : State) (start : Nat) : List Ticket := s.tickets.filter fun t => decide (start < t.number)

def actListTickets (_ : StationNo) (start : Nat) (s : State) : State × Answer :=
  let found := s.ticketsAbove start
  unlessFails [(decide (Config.maxTicketNo < start), .format)] s
    (accept (listOf (fun t : Ticket => long t.number ++ small t.state.code) (found.take 16) ++
      onOff (decide (16 < found.length))) s)

def execListTickets (f : Frame) (s : State) : Result :=
  .next (serve 0x3F#8 everyStation (decodeOne 4) actListTickets f s)

/-- The fields of Read Intake Status (R82); the three channels have no count byte before them (DESIGN CHOICE, assumption
log 4). -/
def encodeIntakeStatus (s : State) : List Byte :=
  (allChannels.flatMap fun c => small (s.channel c).status.code ++ optional 4 weight (s.channel c).current) ++
  small s.tickets.length ++ small s.vehicles.length ++ long s.nextTicket ++
  optional 40 encodeSettlement s.lastClosed ++ optional 40 encodeSettlement s.lastExpired

def actReadIntakeStatus (_ : StationNo) (_ : Unit) (s : State) : State × Answer := accept (encodeIntakeStatus s) s

def execReadIntakeStatus (f : Frame) (s : State) : Result :=
  .next (serve 0x40#8 everyStation decodeNothing actReadIntakeStatus f s)

end Sys2Proof.Machine
end

