-- ==== Sys2Proof/Machine/Dryer.lean ====
section
/-! DEFINITION. The dryer: its requests (R86 to R101), the warm-up expiry (R87) and the drying timer expiry (R90). -/

namespace Sys2Proof.Machine

/-- Replaces the dryer record. -/
def State.setDryer (d : Dryer) (s : State) : State := { s with dryer := d }

/-- The classes that run the dryer. -/
def dryerClasses : Classes := supervisorOr [.dryer]

/-! ### Start Dryer (R86) and Stop Dryer (R99) -/

/-- WARMING, with the warm-up timer at the warm-up time setting (R86, R97). -/
def State.warmUpDryer (returning : Bool) (s : State) : State :=
  s.setDryer { s.dryer with state := .warming, returnMark := returning, warmUp := some s.settings.dryer.warmUp }

/-- Start Dryer (R86). While ESTOP stays asserted it is refused in every state (R85), so a stop that is pending stays
pending too. -/
def actStartDryer (_ : StationNo) (_ : Unit) (s : State) : State × Answer :=
  unlessFails [(s.estop, .state)] s
    (match s.dryer.state with
     | .off => unlessFails [(s.dryer.batch.isSome, .state)] s (accept [] (s.warmUpDryer false))
     | .drying | .dischargeWait | .discharging =>
       if s.dryer.stopPending then accept [] (s.setDryer { s.dryer with stopPending := false }) else refuse .state s
     | .warming | .ready | .suspended | .fault => refuse .state s)

def execStartDryer (f : Frame) (s : State) : Result :=
  .next (serve 0x48#8 dryerClasses decodeNothing actStartDryer f s)

def actStopDryer (_ : StationNo) (_ : Unit) (s : State) : State × Answer :=
  match s.dryer.state with
  | .off => accept [] s
  | .warming =>
    if s.dryer.returnMark then refuse .state s else accept [] (s.setDryer { s.dryer with state := .off, warmUp := none })
  | .ready => accept [] (s.setDryer { s.dryer with state := .off })
  | .drying | .dischargeWait | .discharging => accept [] (s.setDryer { s.dryer with stopPending := true })
  | .suspended | .fault => refuse .state s

def execStopDryer (f : Frame) (s : State) : Result := .next (serve 0x49#8 dryerClasses decodeNothing actStopDryer f s)

/-! ### Charge Batch (R88, R89) -/

structure Charge where
  tank : Nat
  kg : Nat
  target : Nat
  dest : Nat
  deriving DecidableEq, Repr

def decodeCharge (p : List Byte) : Option Charge := do
  let (t, p) ← takeU 1 p
  let (q, p) ← takeU 4 p
  let (m, p) ← takeU 2 p
  let (d, p) ← takeU 1 p
  takeEnd { tank := t, kg := q, target := m, dest := d } p

/-- The ranges of the quantity and the target moisture (R88). -/
def Charge.inRange (c : Charge) : Bool :=
  decide (1 ≤ c.kg) && decide (c.kg ≤ Config.maxTransferKg) && decide (80 ≤ c.target) && decide (c.target ≤ 250)

/-- The draw plan of a charge (R88). -/
def State.chargePlan (s : State) (tank : BinNo) (kg : Nat) : Plan :=
  s.planBin tank (min kg s.settings.dryer.batchMax) (some Config.maxPortions) none none

/-- A restricted bin named by a station that is not of SUPERVISOR class (R25). -/
def State.barredFrom (s : State) (st : StationNo) (b : BinNo) : Bool := (s.binSet b).restricted && !s.supervisor st

/-- A bin's class, or its IP lot, does not agree with an identity (R26, R88). -/
def Bin.wrongClass (x : Bin) (i : Option Identity) : Bool :=
  match x.identity with
  | none => false
  | some j => some j.cls != i.map Identity.cls
def Bin.wrongIp (x : Bin) (i : Option Identity) : Bool :=
  match x.identity with
  | none => false
  | some j => j.ip != i.bind Identity.ip

/-- The checks of R88 after the numbers, in order. -/
def State.chargeChecks (s : State) (st : StationNo) (c : Charge) (tank dest : BinNo) : List (Bool × Status) :=
  let plan := s.chargePlan tank c.kg
  let need := dryEstimate s.settings.dryer c.target plan.pieces
  [(s.dryer.state != .ready, .state),
   (!isTank tank, .mismatch),
   ((s.bin tank).hold.isSome, .protect),
   (s.barredFrom st tank, .notPermitted),
   ((s.bin tank).claim.isSome, .busy),
   (plan.pieces.isEmpty && plan.cause == .heldLot, .protect),
   (decide (plan.granted < Config.minCharge), .state),
   (isTank dest, .mismatch),
   ((s.bin dest).hold.isSome, .protect),
   (s.barredFrom st dest, .notPermitted),
   ((s.bin dest).fillOwner != .none, .busy),
   ((s.bin dest).wrongClass (s.bin tank).identity, .mismatch),
   ((s.bin dest).wrongIp (s.bin tank).identity, .mismatch),
   (decide (s.freeSpace dest < need ∨ s.freeSlots dest < plan.touched), .noSpace)]

/-- The batch is drawn, its space reserved and the dryer set drying (R89). -/
def State.charge (c : Charge) (tank dest : BinNo) (i : Identity) (s : State) : State :=
  let plan := s.chargePlan tank c.kg
  let need := dryEstimate s.settings.dryer c.target plan.pieces
  let r := s.draw tank plan.granted
  let s1 := r.1.foldl (fun t p => t.modLot p.lot Lot.addPortion) r.2
  let s2 := s1.reserve dest .batch i need r.1.length
  s2.setDryer { s2.dryer with
    state := .drying
    drying := some { remaining := s.settings.dryer.maxDrying, expired := false }
    batch := some { tank := tank, dest := dest, identity := i, target := c.target, phase := .wet,
                    wetTotal := plan.granted, dryEstimate := need, outlet := none, portions := r.1 } }

/-- The cause of a clamped charge, in the order of R89's table. -/
def PlanCause.chargeCode : PlanCause → Nat
  | .met => 0
  | .heldLot => 2
  | .layerCap => 3
  | .sourceEnd | .boundary | .spec | .manifest => 1

/-- The answer of an accepted charge (R89). -/
def chargeAnswer (asked need : Nat) (plan : Plan) : Answer :=
  let fields := mass plan.granted ++ small plan.touched ++ mass need
  if plan.granted = asked then ⟨.ok, fields⟩ else ⟨.clamped, fields ++ small plan.cause.chargeCode⟩

def actChargeBatch (st : StationNo) (c : Charge) (s : State) : State × Answer :=
  if !c.inRange then refuse .format s
  else
    match index 42 c.tank, index 42 c.dest with
    | some tank, some dest =>
      unlessFails (s.chargeChecks st c tank dest) s
        (let plan := s.chargePlan tank c.kg
         let need := dryEstimate s.settings.dryer c.target plan.pieces
         match (s.bin tank).identity with
         | some i => (s.charge c tank dest i, chargeAnswer c.kg need plan)
         | none => refuse .state s)
    | _, _ => refuse .noSuch s

def execChargeBatch (f : Frame) (s : State) : Result :=
  .next (serve 0x4A#8 dryerClasses decodeCharge actChargeBatch f s)

/-! ### Batch Dried (R91) -/

/-- What the shrink makes of a portion: the portion dried, and its losses (R53, R91). -/
def driedPortion (outlet handling : Nat) (p : Portion) : Portion × Shrink :=
  let x := shrink p.kg p.moisture outlet handling
  ({ p with kg := x.dry, moisture := x.moisture }, x)

/-- The losses of one portion are posted to its lot, and a portion dried to nothing leaves its lot's count (R8, R91). -/
def State.postShrink (lot : Nat) (x : Shrink) (s : State) : State :=
  s.modLot lot fun l => if x.dry = 0 then (l.lose x.water x.handling).dropPortion else l.lose x.water x.handling

/-- Steps 1 to 5 of R91 and the state of step 6: the batch is DRIED and waits for its leg. -/
def State.dryBatch (b : Batch) (reported : Nat) (s : State) : State :=
  let set := s.settings.dryer
  let outlet := floorOutlet set.floor reported
  let dried := b.portions.map (driedPortion outlet set.handling)
  let s1 := (s.raiseIf (decide (b.target + set.tolerance < reported)) flagUnderdried).raiseIf
    (decide (reported < set.floor)) flagMoistClamp
  let s2 := dried.foldl (fun t r => t.postShrink r.1.lot r.2) s1
  (s2.setDryer { s2.dryer with
    state := .dischargeWait, autoDischarge := true, drying := none
    batch := some { b with
      phase := .dried, outlet := some outlet
      portions := (dried.map Prod.fst).filter fun p => p.kg != 0 } }).raise flagBatchDried

/-- The outcome of a discharge launch in an answer: OK or the refusing code, and the transfer id (assumption log 4). -/
def encodeOutcome : LaunchOutcome → List Byte
  | .placed id _ => [Status.ok.code] ++ optional 2 short (some id)
  | .refused code _ => [code.code] ++ optional 2 short none

/-- The answer of Batch Dried (R91). -/
def driedAnswer (set : DryerSettings) (b : Batch) (reported : Nat) (o : LaunchOutcome) : List Byte :=
  let outlet := floorOutlet set.floor reported
  let dried := b.portions.map (driedPortion outlet set.handling)
  short outlet ++ mass (dried.map fun r => r.2.dry).sum ++ mass (dried.map fun r => r.2.water).sum ++
  mass (dried.map fun r => r.2.handling).sum ++
  listOf (fun r : Portion × Shrink => short r.1.lot ++ mass r.2.dry) dried ++ encodeOutcome o

def actBatchDried (_ : StationNo) (outlet : Nat) (s : State) : State × Answer :=
  match s.dryer.state, s.dryer.batch with
  | .drying, some b =>
    let reported := clampMoisture outlet
    let r := (s.dryBatch b reported).tryDischarge
    (r.1, ⟨.ok, driedAnswer s.settings.dryer b reported r.2⟩)
  | _, _ => refuse .state s

def execBatchDried (f : Frame) (s : State) : Result :=
  .next (serve 0x4B#8 (some [.dryer]) (decodeOne 2) actBatchDried f s)

/-! ### Discharge (R93) -/

/-- The answer of a discharge launch that a request tries at once (R93, R97). -/
def dischargeAnswer : LaunchOutcome → Answer
  | .placed id _ => ⟨.ok, short id⟩
  | .refused code _ => ⟨code, []⟩

/-- DISCHARGE_WAIT with auto-discharge set, and the launch tried at once (R93, R97). -/
def State.dischargeNow (stop : Bool) (s : State) : State × Answer :=
  let r := (s.setDryer { s.dryer with state := .dischargeWait, autoDischarge := true, stopPending := stop }).tryDischarge
  (r.1, dischargeAnswer r.2)

def actDischarge (_ : StationNo) (_ : Unit) (s : State) : State × Answer :=
  match s.dryer.state with
  | .dischargeWait => s.dischargeNow s.dryer.stopPending
  | .off => if s.dryer.batch.isSome then s.dischargeNow true else refuse .state s
  | _ => refuse .state s

def execDischarge (f : Frame) (s : State) : Result := .next (serve 0x4C#8 dryerClasses decodeNothing actDischarge f s)

/-! ### Suspension and faults (R96 to R98) -/

def actSuspendDryer (_ : StationNo) (_ : Unit) (s : State) : State × Answer :=
  unlessFails [(s.dryer.state != .drying, .state)] s (accept [] (s.setDryer { s.dryer with state := .suspended }))

def execSuspendDryer (f : Frame) (s : State) : Result :=
  .next (serve 0x4D#8 dryerClasses decodeNothing actSuspendDryer f s)

def actResumeDryer (_ : StationNo) (_ : Unit) (s : State) : State × Answer :=
  match s.dryer.state, s.dryer.batch with
  | .suspended, some b =>
    if s.estop then refuse .state s
    else
      match b.phase with
      | .wet => accept [] (s.warmUpDryer true)
      | .dried => s.dischargeNow s.dryer.stopPending
  | _, _ => refuse .state s

def execResumeDryer (f : Frame) (s : State) : Result :=
  .next (serve 0x4E#8 dryerClasses decodeNothing actResumeDryer f s)

/-- The transfer that is the dryer's discharge, as a victim. -/
def State.dischargeVictims (s : State) (reason : EndReason) : List Victim :=
  match s.dryer.discharge with
  | some id => s.victims (fun t => t.id == id) reason
  | none => []

/-- The dryer enters FAULT, and a live discharge ends with ABORTED (R98). -/
def State.faultDryer (s : State) : State :=
  let s1 := (s.setDryer { s.dryer with
    state := .fault, warmUp := none, returnMark := false, autoDischarge := false }).raise flagDryerFault
  s1.endTransfers (s1.dischargeVictims .aborted)

def actDryerFault (_ : StationNo) (_ : Unit) (s : State) : State × Answer :=
  match s.dryer.state with
  | .off => refuse .state s
  | .fault => accept [] (s.raise flagDryerFault)
  | _ => accept [] s.faultDryer

def execDryerFault (f : Frame) (s : State) : Result :=
  .next (serve 0x4F#8 dryerClasses decodeNothing actDryerFault f s)

def actClearDryerFault (_ : StationNo) (_ : Unit) (s : State) : State × Answer :=
  unlessFails [(s.dryer.state != .fault, .state)] s
    (accept [] (s.setDryer
      (if s.dryer.batch.isSome then { s.dryer with state := .suspended }
       else { s.dryer with state := .off, stopPending := false })))

def execClearDryerFault (f : Frame) (s : State) : Result :=
  .next (serve 0x50#8 onlySupervisor decodeNothing actClearDryerFault f s)

/-! ### Set Dryer Settings (R100) -/

inductive DryerSetting where
  | warmUp (s : Nat)
  | batchMax (kg : Nat)
  | maxDrying (s : Nat)
  | floor (tenths : Nat)
  | handling (points : Nat)
  | tolerance (tenths : Nat)
  | dischargeLeg (l : Nat)
  deriving DecidableEq, Repr

/-- A selector, and the one number its setting takes. -/
def decodeDryerSetting (p : List Byte) : Option DryerSetting := do
  let (k, p) ← takeU 1 p
  match k with
  | 0 => (decodeOne 4 p).map .warmUp
  | 1 => (decodeOne 4 p).map .batchMax
  | 2 => (decodeOne 4 p).map .maxDrying
  | 3 => (decodeOne 2 p).map .floor
  | 4 => (decodeOne 2 p).map .handling
  | 5 => (decodeOne 2 p).map .tolerance
  | 6 => (decodeOne 1 p).map .dischargeLeg
  | _ => none

/-- A number within a range. -/
def within (lo hi n : Nat) : Bool := decide (lo ≤ n) && decide (n ≤ hi)

/-- The ranges of the dryer settings (R100). -/
def DryerSetting.inRange : DryerSetting → Bool
  | .warmUp n => within 60 1800 n
  | .batchMax n => within 5000 60000 n
  | .maxDrying n => within 600 14400 n
  | .floor n => within 60 200 n
  | .handling n => within 0 100 n
  | .tolerance n => within 5 30 n
  | .dischargeLeg n => within 0 3 n

/-- The setting written (R100). -/
def DryerSettings.apply (d : DryerSettings) : DryerSetting → DryerSettings
  | .warmUp n => { d with warmUp := n }
  | .batchMax n => { d with batchMax := n }
  | .maxDrying n => { d with maxDrying := n }
  | .floor n => { d with floor := n }
  | .handling n => { d with handling := n }
  | .tolerance n => { d with tolerance := n }
  | .dischargeLeg n =>
    match index 4 n with
    | some l => { d with dischargeLeg := l }
    | none => d

def actSetDryerSettings (_ : StationNo) (x : DryerSetting) (s : State) : State × Answer :=
  unlessFails [(!x.inRange, .format), (s.committing, .busy)] s
    (accept [] { s with settings := { s.settings with dryer := s.settings.dryer.apply x } })

def execSetDryerSettings (f : Frame) (s : State) : Result :=
  .next (serve 0x51#8 onlySupervisor decodeDryerSetting actSetDryerSettings f s)

/-! ### Read Dryer (R101) -/

def encodePortion (p : Portion) : List Byte := short p.lot ++ mass p.kg ++ short p.moisture ++ short p.testWeight

def encodeBatch (b : Batch) : List Byte :=
  small b.tank.val ++ small b.dest.val ++ encodeIdentity b.identity ++ short b.target ++ small b.phase.code ++
  mass b.wetTotal ++ mass b.dryEstimate ++ optional 2 short b.outlet ++ listOf encodePortion b.portions

def encodeDryerSettings (d : DryerSettings) : List Byte :=
  long d.warmUp ++ mass d.batchMax ++ long d.maxDrying ++ short d.floor ++ short d.handling ++ short d.tolerance ++
  small d.dischargeLeg.val

/-- The kilograms and slots the batch holds reserved at its destination (R101). -/
def State.batchHeld (s : State) : Nat × Nat :=
  match s.dryer.batch with
  | none => (0, 0)
  | some b =>
    match (s.bin b.dest).held .batch with
    | some h => (h.kg, h.slots)
    | none => (0, 0)

def encodeDryer (s : State) : List Byte :=
  let d := s.dryer
  small d.state.code ++ onOff d.returnMark ++ onOff d.autoDischarge ++ onOff d.stopPending ++
  optional 4 long d.warmUp ++ optional 4 long (d.drying.map DryingTimer.remaining) ++
  optional 1 onOff (d.drying.map DryingTimer.expired) ++ optional 2 short d.discharge ++
  optional 21 encodeBatch d.batch ++ mass s.batchHeld.1 ++ small s.batchHeld.2 ++ encodeDryerSettings s.settings.dryer

def actReadDryer (_ : StationNo) (_ : Unit) (s : State) : State × Answer := accept (encodeDryer s) s

def execReadDryer (f : Frame) (s : State) : Result := .next (serve 0x52#8 everyStation decodeNothing actReadDryer f s)

/-! ### The dryer's timers (R87, R90) -/

/-- The expiry of the warm-up timer (R87). -/
def State.warmUpExpired (s : State) : State :=
  if s.dryer.state = .warming ∧ s.dryer.warmUp.isSome then
    if s.dryer.returnMark then s.setDryer { s.dryer with state := .drying, returnMark := false, warmUp := none }
    else (s.setDryer { s.dryer with state := .ready, warmUp := none }).raise flagDryerReady
  else s

def execWarmUpExpiry (s : State) : Result := .next (s.whenPowered State.warmUpExpired)

/-- The expiry of the drying timer, which runs in DRYING only (R90). -/
def State.dryingExpired (s : State) : State :=
  match s.dryer.state, s.dryer.drying with
  | .drying, some t =>
    if t.expired then s else (s.setDryer { s.dryer with drying := some { remaining := 0, expired := true } }).raise flagDryTimeout
  | _, _ => s

def execDryingTimerExpiry (s : State) : Result := .next (s.whenPowered State.dryingExpired)

end Sys2Proof.Machine
end

