-- ==== Sys2Proof/Machine/LegRequests.lean ====
section
/-! DEFINITION. The leg requests (R105 to R107, R118, R124, R126 to R129) and the cleanout expiry (R116). -/

namespace Sys2Proof.Machine

/-- The classes that stage, launch and abort. -/
def loadoutClasses : Classes := supervisorOr [.loadout]

/-! ### Stage Transfer (R105) -/

structure StageRequest where
  leg : Nat
  source : Place
  dest : Place
  kg : Nat
  attr : Attr
  deriving DecidableEq, Repr

def decodeStage (p : List Byte) : Option StageRequest := do
  let (l, p) ← takeU 1 p
  let (a, p) ← takePlace p
  let (b, p) ← takePlace p
  let (q, p) ← takeU 4 p
  let (t, p) ← takeEnum attrs p
  takeEnd { leg := l, source := a, dest := b, kg := q, attr := t } p

/-- A place that names a bin number above 41. -/
def Place.noSuch : Place → Bool
  | .bin n => decide (42 ≤ n)
  | _ => false

/-- The source of a well-formed request is a bin, and its destination a storage bin or a berth (R105). -/
def Place.sourceBin? : Place → Option BinNo
  | .bin n => index 42 n
  | _ => none
def Place.dest? : Place → Option Dest
  | .bin n => (index 42 n).bind fun b => if isTank b then none else some (.bin b)
  | .berth k => some (.berth k)
  | .dryer => none

/-- Another station's request stands in the staging area. -/
def Leg.stagedByOther (g : Leg) (st : StationNo) : Bool :=
  match g.staging with
  | some x => x.owner != st
  | none => false

/-- PROTECT or SEQUENCE is set on a leg: staging and launching are locked (R126). -/
def State.legLocked (s : State) (l : LegNo) : Bool := s.flag (flagProtect l) || s.flag (flagSequence l)

def actStageTransfer (st : StationNo) (r : StageRequest) (s : State) : State × Answer :=
  if r.kg = 0 ∨ Config.maxTransferKg < r.kg then refuse .format s
  else
    match index 4 r.leg with
    | none => refuse .noSuch s
    | some l =>
      unlessFails
        [(r.source.noSuch || r.dest.noSuch, .noSuch), (s.legLocked l, .sequence), ((s.leg l).stagedByOther st, .busy)] s
        (match r.source.sourceBin?, r.dest.dest? with
          | some a, some b =>
            accept [] (s.setLeg l { s.leg l with
              staging := some { owner := st, source := a, dest := b, kg := r.kg, attr := r.attr } })
          | _, _ => refuse .sequence (s.raise (flagSequence l)))

def execStageTransfer (f : Frame) (s : State) : Result :=
  .next (serve 0x60#8 loadoutClasses decodeStage actStageTransfer f s)

/-! ### Launch (R107, R114) -/

def TransferState.code : TransferState → Nat
  | .buffered => 0
  | .cleanout _ => 1
  | .running => 2
  | .suspended => 3

/-- The launch a staged request asks for, with the owner as its station (R107). -/
def Staging.request (x : Staging) (l : LegNo) : LaunchRequest :=
  { origin := .station x.owner, leg := l, source := .bin x.source, dest := x.dest, kg := x.kg, attr := x.attr }

/-- The answer of a committed launch (R114): the id, the target, the clamp flags, the slot and the state. -/
def launchAnswer (l : LegNo) (slot : Slot) (asked : Nat) (s : State) : Answer :=
  match (s.leg l).slot slot with
  | some t =>
    ⟨if t.target = asked then .ok else .clamped,
      short t.id ++ mass t.target ++ flagSet t.clamps.bits ++ small slot.code ++ small t.state.code⟩
  | none => ⟨.ok, []⟩

/-- The launch of a staged request: committed, which empties the staging area, or refused, and a PROTECT refusal sets
the leg's PROTECT flag (R107). -/
def State.launchStaged (l : LegNo) (x : Staging) (s : State) : State × Answer :=
  match s.launch (x.request l) with
  | (s1, .placed _ slot) =>
    let s2 := s1.setLeg l { s1.leg l with staging := none }
    (s2, launchAnswer l slot x.kg s2)
  | (s1, .refused code limit) =>
    (s1.raiseIf (code == .protect) (flagProtect l), ⟨code, (limit.map fun m => small m.code).getD []⟩)

def actLaunch (st : StationNo) (n : Nat) (s : State) : State × Answer :=
  match index 4 n with
  | none => refuse .noSuch s
  | some l =>
    match (s.leg l).staging with
    | none => refuse .sequence (s.raise (flagSequence l))
    | some x => unlessFails [(x.owner != st, .notOwner), (s.legLocked l, .sequence)] s (s.launchStaged l x)

def execLaunch (f : Frame) (s : State) : Result := .next (serve 0x61#8 loadoutClasses (decodeOne 1) actLaunch f s)

/-! ### Withdraw Staging (R106) -/

def actWithdrawStaging (st : StationNo) (n : Nat) (s : State) : State × Answer :=
  match index 4 n with
  | none => refuse .noSuch s
  | some l =>
    unlessFails [((s.leg l).stagedByOther st && !s.supervisor st, .notOwner)] s
      (accept [] (s.setLeg l { s.leg l with staging := none }))

def execWithdrawStaging (f : Frame) (s : State) : Result :=
  .next (serve 0x62#8 loadoutClasses (decodeOne 1) actWithdrawStaging f s)

/-! ### Flow Report (R118 to R121, R158) -/

/-- The end a report brings about: the leg's judgement, and otherwise the berth's (R121, R158). -/
def State.reportEnd (s : State) (t : Transfer) : Option EndReason :=
  match s.judge t with
  | some reason => some reason
  | none =>
    match t.berth? with
    | some k => if (s.berth k).loadLimit < (s.berth k).cargo.q then some .overdraft else none
    | none => none

/-- A report of kilograms taken by the RUNNING ACTIVE transfer of a leg (R118 to R121, R158). -/
def State.flowReport (l : LegNo) (t : Transfer) (kg : Nat) (s : State) : State × Answer :=
  let r := s.moveReport l t kg
  match (r.2.leg l).active with
  | none => (r.2, ⟨.ok, []⟩)
  | some t1 =>
    let reason := r.2.reportEnd t1
    let s1 := match t1.berth? with
      | some k => r.2.overdraftCheck k (reason == some .overdraft)
      | none => r.2
    let s2 := match reason with
      | some e => s1.endTransfers [{ leg := l, slot := .active, reason := e }]
      | none => s1
    (s2, ⟨.ok, short t1.id ++ mass r.1 ++ mass (kg - r.1) ++ mass t1.delivered ++ mass t1.overrun ++ mass t1.target ++
      optional 1 (fun e : EndReason => small e.code) reason⟩)

/-- The RUNNING transfer in a leg's ACTIVE slot. -/
def Leg.running? (g : Leg) : Option Transfer := g.active.filter fun t => t.state == .running

def actFlowReport (_ : StationNo) (q : Nat × Nat) (s : State) : State × Answer :=
  match index 4 q.1 with
  | none => refuse .noSuch s
  | some l =>
    if q.2 = 0 ∨ 65535 < q.2 then refuse .format s
    else
      match (s.leg l).running? with
      | none => refuse .state s
      | some t => s.flowReport l t q.2

def execFlowReport (f : Frame) (s : State) : Result :=
  .next (serve 0x63#8 (some [.loadout, .dryer]) (decodeTwo 1 4) actFlowReport f s)

/-! ### Abort Transfer (R124) -/

def decodeAbort (p : List Byte) : Option (Nat × Slot) := do
  let (l, p) ← takeU 1 p
  let (k, p) ← takeEnum slots p
  takeEnd (l, k) p

def encodeSummary (x : Summary) : List Byte :=
  short x.id ++ small x.reason.code ++ mass x.delivered ++ mass x.overrun ++ flagSet x.clamps.bits

/-- The summary of a transfer ended with a reason (R122). -/
def Transfer.summary (t : Transfer) (reason : EndReason) : Summary :=
  { id := t.id, reason := reason, delivered := t.delivered, overrun := t.overrun, clamps := t.clamps }

def actAbortTransfer (_ : StationNo) (q : Nat × Slot) (s : State) : State × Answer :=
  match index 4 q.1 with
  | none => refuse .noSuch s
  | some l =>
    match (s.leg l).slot q.2 with
    | none => refuse .noSuch s
    | some t =>
      accept (encodeSummary (t.summary .aborted)) (s.endTransfers [{ leg := l, slot := q.2, reason := .aborted }])

def execAbortTransfer (f : Frame) (s : State) : Result :=
  .next (serve 0x64#8 loadoutClasses decodeAbort actAbortTransfer f s)

/-! ### Clear Leg Flags (R126), Mark Leg Clean (R127) and Set Leg Settings (R128) -/

/-- PROTECT, SEQUENCE and STOPPED of a leg's group. -/
def legLockMask : BitVec 16 := 0x1C#16

def actClearLegFlags (_ : StationNo) (n : Nat) (s : State) : State × Answer :=
  match index 4 n with
  | none => refuse .noSuch s
  | some l => unlessFails [(s.estop, .state)] s (accept [] (s.lower (legGroup l) legLockMask))

def execClearLegFlags (f : Frame) (s : State) : Result :=
  .next (serve 0x65#8 loadoutClasses (decodeOne 1) actClearLegFlags f s)

def actMarkLegClean (_ : StationNo) (n : Nat) (s : State) : State × Answer :=
  match index 4 n with
  | none => refuse .noSuch s
  | some l =>
    unlessFails [(!(s.leg l).empty, .busy)] s (accept [] (s.setLeg l { s.leg l with lastCarried := .clean }))

def execMarkLegClean (f : Frame) (s : State) : Result :=
  .next (serve 0x66#8 onlySupervisor (decodeOne 1) actMarkLegClean f s)

/-- The cleanout time of a leg, in the working copy. -/
def State.setCleanout (l : LegNo) (time : Nat) (s : State) : State :=
  { s with settings := { s.settings with cleanout := s.settings.cleanout.set l.val time l.isLt } }

def actSetLegSettings (_ : StationNo) (q : Nat × Nat) (s : State) : State × Answer :=
  match index 4 q.1 with
  | none => refuse .noSuch s
  | some l => unlessFails [(decide (900 < q.2), .format), (s.committing, .busy)] s (accept [] (s.setCleanout l q.2))

def execSetLegSettings (f : Frame) (s : State) : Result :=
  .next (serve 0x67#8 onlySupervisor (decodeTwo 1 4) actSetLegSettings f s)

/-! ### Read Leg (R129) -/

def encodeOrigin : Origin → List Byte
  | .station n => small 0 ++ small n.val
  | .dryer => small 1 ++ small 0
  | .schedule e => small 2 ++ small e.val

/-- What a transfer still holds reserved at its destination bin (assumption log 21). A transfer to a berth has no
destination bin: Read Leg answers 0 and 0 for it, not absent fields (DESIGN CHOICE, assumption log 4). -/
def State.transferHeld (s : State) (t : Transfer) : Nat × Nat :=
  match t.dest with
  | .berth _ => (0, 0)
  | .bin d =>
    match (s.bin d).held (.transfer t.id) with
    | some h => (h.kg, h.slots)
    | none => (0, 0)

/-- The seconds a cleanout has left. -/
def TransferState.cleanoutLeft : TransferState → Option Nat
  | .cleanout n => some n
  | _ => none

def encodeTransfer (s : State) (t : Transfer) : List Byte :=
  short t.id ++ encodeOrigin t.origin ++ encodeSource t.source ++ encodeDest t.dest ++ mass t.target ++
  mass t.delivered ++ mass t.overrun ++ encodeIdentity t.identity ++ small t.attr.code ++ small t.state.code ++
  flagSet t.clamps.bits ++ mass (s.transferHeld t).1 ++ small (s.transferHeld t).2 ++
  optional 4 mass t.originalRemaining ++ optional 4 long t.state.cleanoutLeft

def encodeStaging (x : Staging) : List Byte :=
  small x.owner.val ++ small x.source.val ++ encodeDest x.dest ++ mass x.kg ++ small x.attr.code

def encodeLastCarried : LastCarried → List Byte
  | .unknown => small 0 ++ optional 4 encodeIdentity none
  | .clean => small 1 ++ optional 4 encodeIdentity none
  | .carried i => small 2 ++ optional 4 encodeIdentity (some i)

def encodeLeg (s : State) (l : LegNo) : List Byte :=
  let g := s.leg l
  optional 41 (encodeTransfer s) g.active ++ optional 41 (encodeTransfer s) g.buffered ++
  optional 41 (encodeTransfer s) g.suspended ++ optional 8 encodeStaging g.staging ++
  encodeLastCarried g.lastCarried ++ long (s.settings.cleanout.get l) ++ onOff g.bufferFree ++ onOff (s.legRun l) ++
  flagSet (s.group (legGroup l)).flags ++ optional 13 encodeSummary g.lastEnded

def actReadLeg (_ : StationNo) (n : Nat) (s : State) : State × Answer :=
  match index 4 n with
  | none => refuse .noSuch s
  | some l => accept (encodeLeg s l) s

def execReadLeg (f : Frame) (s : State) : Result := .next (serve 0x68#8 everyStation (decodeOne 1) actReadLeg f s)

/-! ### Cleanout expiry (R116) -/

def execCleanoutExpiry (l : LegNo) (s : State) : Result := .next (s.whenPowered (State.cleanoutDone l))

end Sys2Proof.Machine
end

