-- ==== Sys2Proof/Machine/Berths.lean ====
section
/-! DEFINITION. The berth and river requests (R147 to R168), the berths' lines (R147), the spout timer (R153) and the
stale expiry of the stage (R165). Every berth request names its berth as 0 or 1; any other value is NO_SUCH. -/

namespace Sys2Proof.Machine

/-! ### Accept Barge (R149) -/

def decodeBarge (p : List Byte) : Option (Nat × Barge) := do
  let (k, p) ← takeU 1 p
  let (n, p) ← takeText 12 p
  let (l, p) ← takeU 2 p
  let (t, p) ← takeU 2 p
  let (m, p) ← takeU 2 p
  takeEnd (k, { name := n, lightDraft := l, tpc := t, maxDraft := m }) p

/-- The ranges of a barge record, with the maximum draft above the light draft (R149). -/
def Barge.inRange (g : Barge) : Bool :=
  g.name.all printable && within 20 200 g.lightDraft && within 500 20000 g.tpc && within 100 450 g.maxDraft &&
    decide (g.lightDraft < g.maxDraft)

/-- A berth with nothing of a barge: what Release Barge leaves, and what Accept Barge starts from (R149, R162). The
spout's timeout select, which neither rule names, stays as it was (DESIGN CHOICE, assumption log 34). -/
def Berth.cleared (b : Berth) (state : BerthState) (barge : Option Barge) : Berth :=
  { b with
    state := state, barge := barge, loadLimit := 0, overLimit := false, order := none, plan := none, current := none
    commanded := none, movePending := false, spoutTimer := none, cargo := Cargo.zero, manifest := [] }

def State.acceptBarge (k : BerthNo) (g : Barge) (s : State) : State :=
  (s.setBerth k ((s.berth k).cleared .assigned (some g))).recomputeLimit k

def actAcceptBarge (_ : StationNo) (q : Nat × Barge) (s : State) : State × Answer :=
  match index 2 q.1 with
  | none => refuse .noSuch s
  | some k =>
    let s1 := s.acceptBarge k q.2
    unlessFails [(!q.2.inRange, .format), ((s.berth k).state != .vacant, .state)] s
      (accept (mass (s1.berth k).loadLimit) s1)

def execAcceptBarge (f : Frame) (s : State) : Result :=
  .next (serve 0x80#8 loadoutClasses decodeBarge actAcceptBarge f s)

/-! ### Set Load Order and Set Position Plan (R150) -/

structure OrderRequest where
  berth : Nat
  commodity : Nat
  grade : Nat
  maxMoisture : Nat
  minTestWeight : Nat
  target : Nat
  deriving DecidableEq, Repr

def decodeOrder (p : List Byte) : Option OrderRequest := do
  let (k, p) ← takeU 1 p
  let (c, p) ← takeU 1 p
  let (g, p) ← takeU 1 p
  let (m, p) ← takeU 2 p
  let (t, p) ← takeU 2 p
  let (q, p) ← takeU 4 p
  takeEnd { berth := k, commodity := c, grade := g, maxMoisture := m, minTestWeight := t, target := q } p

/-- The greatest cargo and planned quantity, in kilograms. -/
def maxCargo : Nat := 8600000

/-- The order a request gives, when every value lies in its range. -/
def OrderRequest.order? (r : OrderRequest) : Option LoadOrder :=
  (classOf r.commodity r.grade).bind fun c =>
    if r.maxMoisture ≤ 400 ∧ r.minTestWeight ≤ 1000 ∧ 1 ≤ r.target ∧ r.target ≤ maxCargo then
      some { cls := c, maxMoisture := r.maxMoisture, minTestWeight := r.minTestWeight, target := r.target }
    else none

/-- The class of a barge that holds grain cannot change (R150). -/
def Berth.changesClass (b : Berth) (o : LoadOrder) : Bool :=
  decide (0 < b.cargo.q) &&
  match b.order with
  | some old => old.cls != o.cls
  | none => false

def actSetLoadOrder (_ : StationNo) (r : OrderRequest) (s : State) : State × Answer :=
  match index 2 r.berth with
  | none => refuse .noSuch s
  | some k =>
    match r.order? with
    | none => refuse .format s
    | some o =>
      let b := s.berth k
      unlessFails [(b.barge.isNone, .state), (b.claim.isSome, .busy), (b.changesClass o, .mismatch)] s
        (accept [] ((s.setBerth k { b with order := some o }).orderChanged k))

def execSetLoadOrder (f : Frame) (s : State) : Result :=
  .next (serve 0x81#8 loadoutClasses decodeOrder actSetLoadOrder f s)

def decodePlan (p : List Byte) : Option (Nat × List Nat) := do
  let (k, p) ← takeU 1 p
  let (n, p) ← takeU 1 p
  if 6 < n then none
  else
    let (qs, p) ← takeMany 4 n p
    takeEnd (k, qs) p

/-- The count and the quantities lie in their ranges (R150). -/
def planRange (qs : List Nat) : Bool := within 1 6 qs.length && qs.all fun q => within 1 maxCargo q

/-- The old entries that a plan of n entries drops hold loaded kilograms (R150). -/
def Berth.dropsLoaded (b : Berth) (n : Nat) : Bool :=
  ((b.plan.getD []).drop n).any fun p => decide (0 < p.loaded)

/-- The entries of a new plan keep the loaded kilograms of the old entries with the same number (R150). -/
def replacePlan (old : List Position) (qs : List Nat) : List Position :=
  qs.mapIdx fun i q => { planned := q, loaded := (old[i]?.map Position.loaded).getD 0 }

/-- A position number that a plan of n entries holds. -/
def keepPosition (n : Nat) (p : Option Nat) : Option Nat := p.filter fun i => decide (i ≤ n)

/-- The new plan, with the current and commanded positions beyond it forgotten (R150). -/
def Berth.setPlan (b : Berth) (qs : List Nat) : Berth :=
  let kept := keepPosition qs.length b.commanded
  { b with
    plan := some (replacePlan (b.plan.getD []) qs)
    current := keepPosition qs.length b.current
    commanded := kept
    movePending := b.movePending && kept.isSome
    spoutTimer := if kept.isSome then b.spoutTimer else none }

def actSetPositionPlan (_ : StationNo) (q : Nat × List Nat) (s : State) : State × Answer :=
  match index 2 q.1 with
  | none => refuse .noSuch s
  | some k =>
    let b := s.berth k
    unlessFails
      [(!planRange q.2, .format), (b.barge.isNone, .state), (b.claim.isSome, .busy),
       (b.dropsLoaded q.2.length, .state)] s
      (accept [] ((s.setBerth k (b.setPlan q.2)).orderChanged k))

def execSetPositionPlan (f : Frame) (s : State) : Result :=
  .next (serve 0x82#8 loadoutClasses decodePlan actSetPositionPlan f s)

/-! ### Set Berth Enable (R148) -/

def decodeEnable (p : List Byte) : Option (Nat × Bool) := do
  let (k, p) ← takeU 1 p
  let (v, p) ← takeOnOff p
  takeEnd (k, v) p

/-- A change of a READY condition: a berth that is LOADING and has lost it halts, any other is tested again
(R151, R159). -/
def State.conditionChanged (k : BerthNo) (lost : Bool) (cause : HaltCause) (s : State) : State :=
  if (s.berth k).state = .loading ∧ lost then s.haltLoading k cause .berthHalt else s.settleReady k

def actSetBerthEnable (_ : StationNo) (q : Nat × Bool) (s : State) : State × Answer :=
  match index 2 q.1 with
  | none => refuse .noSuch s
  | some k =>
    accept [] ((s.setBerth k { s.berth k with enabled := q.2 }).conditionChanged k (!q.2) .disabled)

def execSetBerthEnable (f : Frame) (s : State) : Result :=
  .next (serve 0x83#8 loadoutClasses decodeEnable actSetBerthEnable f s)

/-! ### The spout (R152, R153) -/

structure SpoutCommand where
  berth : Nat
  position : Nat
  select : Nat
  deriving DecidableEq, Repr

/-- The berth, the position and the timeout select, which R175 gives no type: it is one byte (DESIGN CHOICE, assumption
log 4). -/
def decodeSpout (p : List Byte) : Option SpoutCommand := do
  let (k, p) ← takeU 1 p
  let (n, p) ← takeU 1 p
  let (t, p) ← takeU 1 p
  takeEnd { berth := k, position := n, select := t } p

/-- The spout timer's time by timeout select (R152). -/
def spoutSeconds (select : Nat) : Nat :=
  match select with
  | 0 => 60
  | 1 => 120
  | 2 => 300
  | _ => 600

def State.commandSpout (k : BerthNo) (n select : Nat) (s : State) : State :=
  (s.setBerth k { s.berth k with
    commanded := some n, movePending := true, timeoutSelect := select
    spoutTimer := some (spoutSeconds select) }).settleReady k

def actSetSpoutPosition (_ : StationNo) (c : SpoutCommand) (s : State) : State × Answer :=
  match index 2 c.berth with
  | none => refuse .noSuch s
  | some k =>
    let b := s.berth k
    unlessFails
      [(!within 1 6 c.position || decide (3 < c.select), .format), (b.plan.isNone, .state),
       (decide ((b.plan.getD []).length < c.position), .noSuch), (b.state == .loading, .busy)] s
      (accept [] (s.commandSpout k c.position c.select))

def execSetSpoutPosition (f : Frame) (s : State) : Result :=
  .next (serve 0x84#8 loadoutClasses decodeSpout actSetSpoutPosition f s)

/-- The spout has arrived over its commanded position (R153). -/
def State.spoutArrived (k : BerthNo) (n : Nat) (s : State) : State :=
  ((s.setBerth k { s.berth k with current := some n, movePending := false, spoutTimer := none }).raiseIf
    (s.berth k).enabled (flagSpoutDone k)).settleReady k

def actSpoutArrived (_ : StationNo) (q : Nat × Nat) (s : State) : State × Answer :=
  match index 2 q.1 with
  | none => refuse .noSuch s
  | some k =>
    unlessFails [((s.berth k).commanded != some q.2, .mismatch)] s (accept [] (s.spoutArrived k q.2))

def execSpoutArrived (f : Frame) (s : State) : Result :=
  .next (serve 0x85#8 (some [.loadout]) (decodeTwo 1 1) actSpoutArrived f s)

/-- The spout timer expires (R153); with no move pending there is no expiry. -/
def State.spoutExpired (k : BerthNo) (s : State) : State :=
  let b := s.berth k
  if b.movePending ∧ b.spoutTimer.isSome then
    ((s.setBerth k { b with current := none, movePending := false, spoutTimer := none }).raise
      (flagSpoutTimeout k)).settleReady k
  else s

def execSpoutTimerExpiry (k : BerthNo) (s : State) : Result := .next (s.whenPowered (State.spoutExpired k))

/-! ### Resume Berth (R161) and Release Barge (R162) -/

def Berth.isHalted (b : Berth) : Bool :=
  match b.state with
  | .halted _ => true
  | _ => false

/-- Every halting cause is absent (R161). -/
def State.mayResume (s : State) (k : BerthNo) : Bool :=
  let b := s.berth k
  b.present && b.moored && b.enabled && decide (b.cargo.q ≤ b.loadLimit) && !s.estop

def actResumeBerth (_ : StationNo) (n : Nat) (s : State) : State × Answer :=
  match index 2 n with
  | none => refuse .noSuch s
  | some k =>
    let s1 := s.completionTest k
    unlessFails [(!(s.berth k).isHalted, .state), (!s.mayResume k, .state)] s
      (accept (small (s1.berth k).state.code) s1)

def execResumeBerth (f : Frame) (s : State) : Result :=
  .next (serve 0x86#8 loadoutClasses (decodeOne 1) actResumeBerth f s)

def encodeFinalCargo (b : Berth) : List Byte :=
  mass b.cargo.q ++ optional 2 short (average b.cargo.q b.cargo.s) ++ optional 2 short (average b.cargo.q b.cargo.t) ++
  small b.manifest.length

/-- The barge leaves: its lots' manifest references fall and the berth is VACANT (R11, R162). -/
def State.releaseBarge (k : BerthNo) (s : State) : State :=
  let s1 := (s.berth k).manifest.foldl (fun t e => t.modLot e.lot Lot.dropManifest) s
  s1.setBerth k ((s.berth k).cleared .vacant none)

def actReleaseBarge (_ : StationNo) (n : Nat) (s : State) : State × Answer :=
  match index 2 n with
  | none => refuse .noSuch s
  | some k =>
    let b := s.berth k
    unlessFails [(b.state == .vacant, .state), (b.claim.isSome, .busy)] s
      (accept (encodeFinalCargo b) (s.releaseBarge k))

def execReleaseBarge (f : Frame) (s : State) : Result :=
  .next (serve 0x87#8 loadoutClasses (decodeOne 1) actReleaseBarge f s)

/-! ### The river stage (R164, R165, R167) -/

/-- A reading is taken (R164). -/
def State.readStage (z : Int) (s : State) : State :=
  { s with river :=
      { stage := clampStage z, readingTime := s.terminalTime, known := true, stale := false
        staleTimer := some s.settings.river.staleTime } }.recomputeLimits

/-- A berth's load limit in an answer: absent with no barge record. -/
def encodeLimit (b : Berth) : List Byte := optional 4 mass (b.barge.map fun _ => b.loadLimit)

def actStageReading (_ : StationNo) (z : Int) (s : State) : State × Answer :=
  let s1 := s.readStage z
  accept (degrees (clampStage z) ++ encodeLimit (s1.berth 0) ++ encodeLimit (s1.berth 1)) s1

def execStageReading (f : Frame) (s : State) : Result :=
  .next (serve 0x88#8 (supervisorOr [.gauge]) (decodeSigned 2) actStageReading f s)

/-- The stale expiry of the stage (R165); a stopped timer has none. -/
def State.riverExpired (s : State) : State :=
  if s.river.staleTimer.isSome then
    ({ s with river := { s.river with stale := true, staleTimer := none } }.raise flagStageStale).recomputeLimits
  else s

def execRiverStaleExpiry (s : State) : Result := .next (s.whenPowered State.riverExpired)

inductive RiverSetting where
  | channelDepth (cm : Nat)
  | clearance (cm : Nat)
  | staleMargin (cm : Nat)
  | staleTime (s : Nat)
  deriving DecidableEq, Repr

def decodeRiverSetting (p : List Byte) : Option RiverSetting := do
  let (k, p) ← takeU 1 p
  match k with
  | 0 => (decodeOne 2 p).map .channelDepth
  | 1 => (decodeOne 2 p).map .clearance
  | 2 => (decodeOne 2 p).map .staleMargin
  | 3 => (decodeOne 4 p).map .staleTime
  | _ => none

/-- The ranges of the river settings (R167). -/
def RiverSetting.inRange : RiverSetting → Bool
  | .channelDepth n => within 100 1500 n
  | .clearance n => within 0 100 n
  | .staleMargin n => within 0 100 n
  | .staleTime n => within 300 7200 n

def RiverSettings.apply (r : RiverSettings) : RiverSetting → RiverSettings
  | .channelDepth n => { r with channelDepth := n }
  | .clearance n => { r with clearance := n }
  | .staleMargin n => { r with staleMargin := n }
  | .staleTime n => { r with staleTime := n }

/-- A new channel depth, clearance or margin recomputes both limits; a new stale time does not (R167). -/
def State.setRiver (x : RiverSetting) (s : State) : State :=
  let s1 := { s with settings := { s.settings with river := s.settings.river.apply x } }
  match x with
  | .staleTime _ => s1
  | _ => s1.recomputeLimits

def actSetRiverSettings (_ : StationNo) (x : RiverSetting) (s : State) : State × Answer :=
  unlessFails [(!x.inRange, .format), (s.committing, .busy)] s (accept [] (s.setRiver x))

def execSetRiverSettings (f : Frame) (s : State) : Result :=
  .next (serve 0x89#8 onlySupervisor decodeRiverSetting actSetRiverSettings f s)

/-! ### Reads (R168) -/

def encodeBarge (g : Barge) : List Byte := g.name ++ short g.lightDraft ++ short g.tpc ++ short g.maxDraft

def encodeOrder (o : LoadOrder) : List Byte :=
  encodeClass o.cls ++ short o.maxMoisture ++ short o.minTestWeight ++ mass o.target

def BerthState.cause : BerthState → Option HaltCause
  | .halted c => some c
  | _ => none

/-- The fields of Read Berth (R168). A berth with no position plan answers a list of no entries, and a barge record or a
load order is absent as a whole (DESIGN CHOICE, assumption log 4). -/
def encodeBerth (s : State) (k : BerthNo) : List Byte :=
  let b := s.berth k
  small b.state.code ++ optional 1 (fun c : HaltCause => small c.code) b.state.cause ++ onOff b.present ++
  onOff b.moored ++ onOff b.button ++ onOff b.enabled ++ small (s.lamp k).code ++ optional 18 encodeBarge b.barge ++
  encodeLimit b ++ optional 1 onOff (b.barge.map fun _ => b.overLimit) ++ optional 10 encodeOrder b.order ++
  listOf (fun p : Position => mass p.planned ++ mass p.loaded) (b.plan.getD []) ++ optional 1 small b.current ++
  optional 1 small b.commanded ++ onOff b.movePending ++ small b.timeoutSelect ++ optional 4 long b.spoutTimer ++
  mass b.cargo.q ++ optional 2 short (average b.cargo.q b.cargo.s) ++ optional 2 short (average b.cargo.q b.cargo.t) ++
  listOf (fun e : Manifested => short e.lot ++ mass e.kg) b.manifest ++ optional 2 short b.claim ++
  optional 4 mass b.figures.draft ++ optional 4 mass b.figures.position ++ optional 4 mass b.figures.order

def actReadBerth (_ : StationNo) (n : Nat) (s : State) : State × Answer :=
  match index 2 n with
  | none => refuse .noSuch s
  | some k => accept (encodeBerth s k) s

def execReadBerth (f : Frame) (s : State) : Result :=
  .next (serve 0x8A#8 everyStation (decodeOne 1) actReadBerth f s)

/-- The fields of Read River (R168). The stage in use is absent while no stage is known (DESIGN CHOICE, assumption
log 4). -/
def encodeRiver (s : State) : List Byte :=
  let r := s.river
  let set := s.settings.river
  optional 2 degrees (if r.known then some r.stage else none) ++ long r.readingTime ++ onOff r.stale ++
  optional 4 long r.staleTimer ++ optional 2 degrees (stageUsed set r) ++ short set.channelDepth ++
  short set.clearance ++ short set.staleMargin ++ long set.staleTime

def actReadRiver (_ : StationNo) (_ : Unit) (s : State) : State × Answer := accept (encodeRiver s) s

def execReadRiver (f : Frame) (s : State) : Result := .next (serve 0x8B#8 everyStation decodeNothing actReadRiver f s)

/-! ### The berths' lines (R147) -/

/-- A change of PRESENT; a level equal to the last state is no change. -/
def State.presentChanged (k : BerthNo) (level : Bool) (s : State) : State :=
  if (s.berth k).present = level then s
  else
    ((s.setBerth k { s.berth k with present := level }).raise (flagPresentChanged k)).conditionChanged k (!level) .present

def execPresentChange (k : BerthNo) (level : Bool) (s : State) : Result :=
  .next (s.whenPowered (State.presentChanged k level))

/-- A change of MOORED. -/
def State.mooredChanged (k : BerthNo) (level : Bool) (s : State) : State :=
  if (s.berth k).moored = level then s
  else
    ((s.setBerth k { s.berth k with moored := level }).raise (flagMooringChanged k)).conditionChanged k (!level) .moored

def execMooredChange (k : BerthNo) (level : Bool) (s : State) : Result :=
  .next (s.whenPowered (State.mooredChanged k level))

/-- BUTTON becomes active. -/
def State.buttonPressed (k : BerthNo) (s : State) : State :=
  if (s.berth k).button then s
  else (s.setBerth k { s.berth k with button := true }).raise (flagButton k)

def execButtonPress (k : BerthNo) (s : State) : Result := .next (s.whenPowered (State.buttonPressed k))

/-- BUTTON becomes inactive. -/
def State.buttonReleased (k : BerthNo) (s : State) : State := s.setBerth k { s.berth k with button := false }

def execButtonRelease (k : BerthNo) (s : State) : Result := .next (s.whenPowered (State.buttonReleased k))

end Sys2Proof.Machine
end

