-- ==== Sys2Proof/Machine/Rotation.lean ====
section
/-! DEFINITION. The temperature and schedule requests (R132 to R144) and the stale expiry of a bin (R134). -/

namespace Sys2Proof.Machine

/-! ### Temperature Report (R132) -/

def decodeTemperature (p : List Byte) : Option (Nat × Int) := do
  let (b, p) ← takeU 1 p
  let (z, p) ← takeI 2 p
  takeEnd (b, z) p

/-- Steps 1 and 2 of R132, the reading and the baseline, and then the hot state (R133). -/
def State.takeReading (b : BinNo) (z : Int) (s : State) : State :=
  let x := s.bin b
  (s.setBin b { x with temp := { x.temp with
    lastReading := some z, readingTime := some s.terminalTime
    baseline := some (x.temp.baseline.getD z) } }).evaluateHot b

/-- The bin is FRESH and its stale timer restarts (R132, R134). -/
def State.freshen (b : BinNo) (s : State) : State :=
  let x := s.bin b
  s.setBin b { x with temp := { x.temp with stale := false, staleTimer := some s.settings.rotation.staleTime } }

/-- A report of a bin: the schedules are examined when its hot or stale state has changed (R132). -/
def State.reportTemperature (b : BinNo) (z : Int) (s : State) : State :=
  let s1 := (s.takeReading b z).freshen b
  let before := (s.bin b).temp
  let after := (s1.bin b).temp
  if before.hot ≠ after.hot ∨ before.stale ≠ after.stale then s1.examine else s1

/-- The rise of a bin: its last reading less its baseline. -/
def TempFields.rise (t : TempFields) : Int :=
  match t.lastReading, t.baseline with
  | some r, some b => r - b
  | _, _ => 0

/-- Temperature Report (R132): the hot and stale states are answered as in `encodeTemp`, HOT and STALE as 1 (DESIGN
CHOICE, assumption log 4). -/
def actTemperatureReport (_ : StationNo) (q : Nat × Int) (s : State) : State × Answer :=
  match index 42 q.1 with
  | none => refuse .noSuch s
  | some b =>
    let s1 := s.reportTemperature b (clampTemperature q.2)
    let t := (s1.bin b).temp
    accept (onOff t.hot ++ onOff t.stale ++ degrees t.rise) s1

def execTemperatureReport (f : Frame) (s : State) : Result :=
  .next (serve 0x70#8 (supervisorOr [.scanner]) decodeTemperature actTemperatureReport f s)

/-- The stale expiry of a bin (R134); a stopped timer has none. -/
def State.staleExpired (b : BinNo) (s : State) : State :=
  let x := s.bin b
  if x.temp.staleTimer.isSome then
    ((s.setBin b { x with temp := { x.temp with stale := true, staleTimer := none } }).raise flagTempStale).examine
  else s

def execStaleExpiry (b : BinNo) (s : State) : Result := .next (s.whenPowered (State.staleExpired b))

/-! ### Set Schedule (R137) -/

structure ScheduleRequest where
  entry : Nat
  source : Nat
  dest : Nat
  leg : Nat
  kg : Nat
  passes : Nat
  condition : Condition
  deriving DecidableEq, Repr

/-- The conditions by their enumeration; the day count follows IF_AGE only (R176). -/
def takeCondition (p : List Byte) : Option (Condition × List Byte) := do
  let (k, p) ← takeU 1 p
  match k with
  | 0 => some (.always, p)
  | 1 => some (.ifHot, p)
  | 2 => some (.ifHotRebase, p)
  | 3 => do
    let (n, p) ← takeU 2 p
    some (.ifAge n, p)
  | _ => none

def decodeSchedule (p : List Byte) : Option ScheduleRequest := do
  let (e, p) ← takeU 1 p
  let (a, p) ← takeU 1 p
  let (b, p) ← takeU 1 p
  let (l, p) ← takeU 1 p
  let (q, p) ← takeU 4 p
  let (n, p) ← takeU 1 p
  let (c, p) ← takeCondition p
  takeEnd { entry := e, source := a, dest := b, leg := l, kg := q, passes := n, condition := c } p

/-- The quantity and the days lie in their ranges (R137); every byte is a number of passes. -/
def ScheduleRequest.inRange (r : ScheduleRequest) : Bool :=
  decide (r.kg ≤ Config.maxTransferKg) &&
  match r.condition with
  | .ifAge n => within 1 365 n
  | _ => true

/-- The entry a request fills (R137). -/
def ScheduleRequest.toEntry (r : ScheduleRequest) (source dest : BinNo) (leg : LegNo) : Entry :=
  { source := source, dest := dest, leg := leg, kg := r.kg
    remaining := if r.passes = 0 then none else some r.passes
    done := 0, condition := r.condition, state := .waiting, reason := none, inFlight := none, origin := .set }

def actSetSchedule (_ : StationNo) (r : ScheduleRequest) (s : State) : State × Answer :=
  if !r.inRange then refuse .format s
  else
    match index 8 r.entry, index 42 r.source, index 42 r.dest, index 4 r.leg with
    | some n, some a, some b, some l =>
      unlessFails
        [(isTank b, .mismatch), (!fillable (s.entry n), .busy), ((s.bin a).hold.isSome || (s.bin b).hold.isSome, .protect)] s
        (accept [] (s.setEntry n (some (r.toEntry a b l))).examine)
    | _, _, _, _ => refuse .noSuch s

def execSetSchedule (f : Frame) (s : State) : Result :=
  .next (serve 0x71#8 onlySupervisor decodeSchedule actSetSchedule f s)

/-! ### End Schedule (R142) -/

def decodeEndSchedule (p : List Byte) : Option (Nat × Bool) := do
  let (n, p) ← takeU 1 p
  let (a, p) ← takeOnOff p
  takeEnd (n, a) p

/-- The live pass of an entry, as a victim. -/
def State.passVictims (s : State) (e : Entry) : List Victim :=
  match e.inFlight with
  | some id => s.victims (fun t => t.id == id) .aborted
  | none => []

/-- The entry ends, unless it has; its pass is aborted when that is asked for (R142). -/
def State.endSchedule (n : EntryNo) (e : Entry) (abort : Bool) (s : State) : State :=
  let s1 := if e.state = .ended then s else s.endEntry n .ended
  if abort then s1.endTransfers (s1.passVictims e) else s1

def actEndSchedule (_ : StationNo) (q : Nat × Bool) (s : State) : State × Answer :=
  match index 8 q.1 with
  | none => refuse .noSuch s
  | some n =>
    match s.entry n with
    | none => refuse .noSuch s
    | some e => accept [] (s.endSchedule n e q.2)

def execEndSchedule (f : Frame) (s : State) : Result :=
  .next (serve 0x72#8 onlySupervisor decodeEndSchedule actEndSchedule f s)

/-! ### Set Rotation Settings (R135) -/

inductive RotationSetting where
  | staleTime (s : Nat)
  | autoTurnLeg (l : Nat)
  deriving DecidableEq, Repr

def decodeRotationSetting (p : List Byte) : Option RotationSetting := do
  let (k, p) ← takeU 1 p
  match k with
  | 0 => (decodeOne 4 p).map .staleTime
  | 1 => (decodeOne 1 p).map .autoTurnLeg
  | _ => none

/-- The ranges of the rotation settings (R135). -/
def RotationSetting.inRange : RotationSetting → Bool
  | .staleTime n => within 3600 604800 n
  | .autoTurnLeg n => within 0 3 n

def RotationSettings.apply (r : RotationSettings) : RotationSetting → RotationSettings
  | .staleTime n => { r with staleTime := n }
  | .autoTurnLeg n =>
    match index 4 n with
    | some l => { r with autoTurnLeg := l }
    | none => r

def actSetRotationSettings (_ : StationNo) (x : RotationSetting) (s : State) : State × Answer :=
  unlessFails [(!x.inRange, .format), (s.committing, .busy)] s
    (accept [] { s with settings := { s.settings with rotation := s.settings.rotation.apply x } })

def execSetRotationSettings (f : Frame) (s : State) : Result :=
  .next (serve 0x73#8 onlySupervisor decodeRotationSetting actSetRotationSettings f s)

/-! ### Read Schedules (R144) -/

/-- A condition in an answer (R144): its code, a presence byte and the days, which are 0 and absent but for IF_AGE
(DESIGN CHOICE, assumption log 4). -/
def encodeCondition : Condition → List Byte
  | .always => small 0 ++ optional 2 short none
  | .ifHot => small 1 ++ optional 2 short none
  | .ifHotRebase => small 2 ++ optional 2 short none
  | .ifAge n => small 3 ++ optional 2 short (some n)

def encodeEntry (s : State) (e : Entry) : List Byte :=
  small e.source.val ++ small e.dest.val ++ small e.leg.val ++ mass e.kg ++ small (e.remaining.getD 0) ++
  short e.done ++ encodeCondition e.condition ++ small e.state.code ++ small e.origin.code ++
  optional 1 (fun r : EntryEnd => small r.code) e.reason ++ optional 2 short e.inFlight ++ onOff (s.conditionHolds e)

/-- The eight entries, with no count byte before them, and the two settings (R144). A free entry is sent as a presence
byte 0 and 22 zero bytes (DESIGN CHOICE, assumption log 4). -/
def encodeSchedules (s : State) : List Byte :=
  (allEntries.flatMap fun n => optional 22 (encodeEntry s) (s.entry n)) ++ long s.settings.rotation.staleTime ++
  small s.settings.rotation.autoTurnLeg.val

def actReadSchedules (_ : StationNo) (_ : Unit) (s : State) : State × Answer := accept (encodeSchedules s) s

def execReadSchedules (f : Frame) (s : State) : Result :=
  .next (serve 0x74#8 everyStation decodeNothing actReadSchedules f s)

end Sys2Proof.Machine
end

