-- ==== Sys2Proof/Machine/Stations.lean ====
section
/-! DEFINITION. The station table requests (R178, R179) and the event requests (R183 to R185). -/

namespace Sys2Proof.Machine

/-! ### Read Stations (R179) -/

/-- How many legs' staging areas a station owns. -/
def State.stagedLegs (s : State) (n : StationNo) : Nat :=
  (allLegs.filter fun l => ((s.leg l).staging.map Staging.owner) == some n).length

/-- The 16 entries and then the 16 numbers of legs (R179), with no count byte before them (DESIGN CHOICE, assumption
log 4). -/
def encodeStations (s : State) : List Byte :=
  (allStations.flatMap fun n => small (s.station n).cls.code ++ onOff (s.station n).enabled) ++
  allStations.flatMap fun n => small (s.stagedLegs n)

def actReadStations (_ : StationNo) (_ : Unit) (s : State) : State × Answer := accept (encodeStations s) s

def execReadStations (f : Frame) (s : State) : Result :=
  .next (serve 0x90#8 everyStation decodeNothing actReadStations f s)

/-! ### Set Station (R178) -/

def decodeStation (p : List Byte) : Option (Nat × Station) := do
  let (n, p) ← takeU 1 p
  let (c, p) ← takeEnum stationClasses p
  let (e, p) ← takeOnOff p
  takeEnd (n, { cls := c, enabled := e }) p

/-- Empties the staging areas a station owns (R106, R178). -/
def State.dropStagings (n : StationNo) (s : State) : State :=
  allLegs.foldl (fun t l =>
    if ((t.leg l).staging.map Staging.owner) = some n then t.setLeg l { t.leg l with staging := none } else t) s

def actSetStation (_ : StationNo) (q : Nat × Station) (s : State) : State × Answer :=
  match index 16 q.1 with
  | none => refuse .noSuch s
  | some n =>
    unlessFails [(n == 0, .state), (s.committing, .busy)] s
      (let s1 := s.setStation n q.2
       accept [] (if (s.station n).enabled && !q.2.enabled then s1.dropStagings n else s1))

def execSetStation (f : Frame) (s : State) : Result :=
  .next (serve 0x91#8 onlySupervisor decodeStation actSetStation f s)

/-! ### Read Events (R183) -/

def allGroups : List (Fin 11) := [0, 1, 2, 3, 4, 5, 6, 7, 8, 9, 10]

/-- One bit for each group that holds an enabled flag that is set (R183). -/
def State.eventSummary (s : State) : BitVec 16 :=
  allGroups.foldl (fun m g => if (s.group g).asks then m ||| BitVec.twoPow 16 g.val else m) 0#16

/-- The flags and enables of the 11 groups, with no count byte before them, the summary and ATTN (R183; DESIGN CHOICE,
assumption log 4). -/
def encodeEvents (s : State) : List Byte :=
  (allGroups.flatMap fun g => flagSet (s.group g).flags ++ flagSet (s.group g).enables) ++ flagSet s.eventSummary ++
  onOff s.attn

def actReadEvents (_ : StationNo) (_ : Unit) (s : State) : State × Answer := accept (encodeEvents s) s

def execReadEvents (f : Frame) (s : State) : Result :=
  .next (serve 0x92#8 everyStation decodeNothing actReadEvents f s)

/-! ### Clear Events (R184) and Set Event Enables (R185) -/

/-- The group number and the flag set; a bit beyond the flags of its group does not decode (R176). A group above 10
has no flags to compare with and goes to the block, which answers it NO_SUCH. R175 gives no type to a group number: it is
one byte (DESIGN CHOICE, assumption log 4). -/
def decodeFlags (p : List Byte) : Option (Nat × BitVec 16) := do
  let (g, p) ← takeU 1 p
  let (m, p) ← takeU 2 p
  match index 11 g with
  | some k => if BitVec.ofNat 16 m &&& ~~~ groupMask k = 0#16 then takeEnd (g, BitVec.ofNat 16 m) p else none
  | none => takeEnd (g, BitVec.ofNat 16 m) p

/-- STOPPED of a leg's group, which is not cleared while ESTOP is asserted (R184). -/
def State.keptFlags (s : State) (g : Fin 11) : BitVec 16 :=
  if s.estop ∧ 4 ≤ g.val ∧ g.val ≤ 7 then 0x10#16 else 0#16

def actClearEvents (_ : StationNo) (q : Nat × BitVec 16) (s : State) : State × Answer :=
  match index 11 q.1 with
  | none => refuse .noSuch s
  | some g =>
    let m := q.2 &&& ~~~ s.keptFlags g
    let s1 := s.lower g m
    accept (flagSet ((s.group g).flags &&& m) ++ flagSet (s1.group g).flags) s1

def execClearEvents (f : Frame) (s : State) : Result :=
  .next (serve 0x93#8 onlySupervisor decodeFlags actClearEvents f s)

def actSetEventEnables (_ : StationNo) (q : Nat × BitVec 16) (s : State) : State × Answer :=
  match index 11 q.1 with
  | none => refuse .noSuch s
  | some g => accept [] (s.setGroup g { s.group g with enables := q.2 })

def execSetEventEnables (f : Frame) (s : State) : Result :=
  .next (serve 0x94#8 onlySupervisor decodeFlags actSetEventEnables f s)

end Sys2Proof.Machine
end

