-- ==== Sys2Proof/Machine/Startup.lean ====
section
/-! DEFINITION. Settings, time and start-up: the requests (R188, R189, R191, R192), the ends of a commit (R189), the
starts (R190, R193), emergency stop (R96, R125, R171), RESET, BACKUP_LOST and main power (R192). -/

namespace Sys2Proof.Machine

/-! ### Set Lot Size (R188) -/

/-- Every OPEN RECEIVING lot makes the size check of R12 against the lot size in force. -/
def State.checkSizes (s : State) : State := { s with lots := s.lots.map (Lot.sizeCheck s.settings.lotSize) }

/-- How many lots a lot size closes. -/
def State.wouldClose (s : State) (size : Nat) : Nat :=
  (s.lots.filter fun l => l.isOpenReceiving && decide (size ≤ l.received + l.pendingEstimate)).length

def actSetLotSize (_ : StationNo) (size : Nat) (s : State) : State × Answer :=
  unlessFails [(!within 20000 5000000 size, .format), (s.committing, .busy)] s
    (accept (small (s.wouldClose size)) { s with settings := { s.settings with lotSize := size } }.checkSizes)

def execSetLotSize (f : Frame) (s : State) : Result :=
  .next (serve 0xA4#8 onlySupervisor (decodeOne 4) actSetLotSize f s)

/-! ### Committing (R189) -/

def State.bank (s : State) (b : Fin 2) : Bank := if b = 0 then s.bank0 else s.bank1
def State.setBank (b : Fin 2) (x : Bank) (s : State) : State :=
  if b = 0 then { s with bank0 := x } else { s with bank1 := x }

/-- The generation of the current bank, 0 when no bank is current (R191). -/
def State.generation (s : State) : Nat :=
  match s.currentBank with
  | some b => (s.bank b).generation
  | none => 0

/-- The bank a commit writes: the one that is not current, and bank 0 when none is (R189, R190). -/
def State.otherBank (s : State) : Fin 2 := if s.currentBank = some 0 then 1 else 0

def actCommitSettings (_ : StationNo) (_ : Unit) (s : State) : State × Answer :=
  unlessFails [(s.committing, .busy)] s
    (accept [] { s with commit := .writing s.otherBank (wrapNext Config.maxGeneration s.generation) s.settings })

def execCommitSettings (f : Frame) (s : State) : Result :=
  .next (serve 0xA0#8 onlySupervisor decodeNothing actCommitSettings f s)

/-- Commit done: the written bank becomes current (R189). With no commit writing there is no such event. -/
def State.commitEnds (s : State) : State :=
  match s.commit with
  | .idle => s
  | .writing b g x =>
    ({ s.setBank b (Bank.written g x) with
      currentBank := some b, commit := .idle, commitResult := some .done }).raise flagCommitDone

def execCommitDone (s : State) : Result := .next (s.whenPowered State.commitEnds)

/-- Commit failed: the current bank stays current (R189); the bank that was written is left bad (DEDUCED,
assumption log 17). -/
def State.commitFails (s : State) : State :=
  match s.commit with
  | .idle => s
  | .writing b g x =>
    ({ s.setBank b (Bank.spoilt g x) with commit := .idle, commitResult := some .failed }).raise flagCommitFailed

def execCommitFailed (s : State) : Result := .next (s.whenPowered State.commitFails)

/-- A start or a loss of power abandons a commit that is writing; whether the bank is already spoilt is a free value
(R189; DEDUCED, assumption log 10). -/
def State.abandonCommit (s : State) : State :=
  match s.commit with
  | .idle => s
  | .writing b g x =>
    let s1 := { s with commit := .idle, freeCount := s.freeCount + 1 }
    if Config.abandonedBankSpoilt s.freeCount then s1.setBank b (Bank.spoilt g x) else s1

/-! ### Time (R191) -/

def actSetTime (_ : StationNo) (t : Nat) (s : State) : State × Answer :=
  accept (long s.terminalTime ++ onOff s.timeValid) { s with terminalTime := t, timeValid := true }

def execSetTime (f : Frame) (s : State) : Result := .next (serve 0xA1#8 onlySupervisor (decodeOne 4) actSetTime f s)

def encodeTime (s : State) : List Byte :=
  long s.terminalTime ++ onOff s.timeValid ++ long s.timebase ++ small s.startKind.code ++ onOff s.defaulted ++
  onOff s.backupLost ++ onOff s.committing ++ long s.generation ++
  optional 1 (fun r : CommitResult => small r.code) s.commitResult

def actReadTime (_ : StationNo) (_ : Unit) (s : State) : State × Answer := accept (encodeTime s) s

def execReadTime (f : Frame) (s : State) : Result := .next (serve 0xA2#8 everyStation decodeNothing actReadTime f s)

/-! ### Reset Part (R192) -/

def actResetPart (_ : StationNo) (_ : Unit) (s : State) : State × Answer :=
  unlessFails [(s.committing, .busy)] s (accept [] { s with resetPending := true })

def execResetPart (f : Frame) (s : State) : Result :=
  .next (serve 0xA3#8 onlySupervisor decodeNothing actResetPart f s)

/-! ### What every start does (R187, R190, R193) -/

/-- Stage 2: the settings image is chosen and loaded into the working copy (R190). -/
def State.loadSettings (s : State) : State :=
  match chooseBank s.bank0 s.bank1 with
  | some b => { s with settings := (s.bank b).image.loaded, currentBank := some b, defaulted := false }
  | none => { s with settings := Settings.factory, currentBank := none, defaulted := true }

/-- The input lines as the start finds them, with no change event (R169, R193; DESIGN CHOICE, assumption log 18). -/
def State.readLines (p : Pins) (s : State) : State :=
  let s1 := { s with estop := p.estop, resetLine := p.reset, backupLost := p.backupLost }
  let s2 := s1.setBerth 0 { s1.berth 0 with present := p.presentA, moored := p.mooredA, button := p.buttonA }
  s2.setBerth 1 { s2.berth 1 with present := p.presentB, moored := p.mooredB, button := p.buttonB }

/-- The port, the timebase and the record of the start (R187, R191). -/
def State.beginRun (kind : StartKind) (s : State) : State :=
  { s with
    powered := true, startKind := kind, timebase := 0, commitResult := none, receiver := .hunting, response := none
    resetPending := false }

/-! ### The warm start -/

/-- A ticket's age is carried across the start on terminal time, and restarts at 0 when it is not known (R83). -/
def State.carryTicket (s : State) (t : Ticket) : Ticket :=
  { t with grossBase := -(((s.age t.grossTime).getD 0 : Nat) : Int) }

/-- What is left of a running stale timer across the start: it may be 0 or less (R145). -/
def State.carriedStale (s : State) (t : TempFields) : Option Int :=
  t.staleTimer.map fun left =>
    match t.readingTime.bind s.age with
    | some a => (s.settings.rotation.staleTime : Int) - a
    | none => left

/-- The bins whose carried timer has run out (R145). -/
def State.staleAtStart (s : State) : List BinNo :=
  allBins.filter fun b =>
    match s.carriedStale (s.bin b).temp with
    | some left => decide (left ≤ 0)
    | none => false

/-- The temperature fields of a bin across the start (R145). -/
def State.carryTemp (s : State) (x : Bin) : Bin :=
  { x with temp := { x.temp with staleTimer := (s.carriedStale x.temp).map Int.toNat } }

/-- The dryer's state after a warm start, by its state before it (R102). SUSPENDED holds a batch; a dryer that the
start finds with none is OFF (DESIGN CHOICE, assumption log 30). -/
def warmDryerState (before : Dryer) (batch : Option Batch) : DryerState :=
  match before.state with
  | .warming => if before.returnMark && batch.isSome then .suspended else .off
  | .drying | .suspended => if batch.isSome then .suspended else .off
  | .fault => .fault
  | .off | .ready | .dischargeWait | .discharging => .off

/-- The dryer after a warm start: the batch and its drying timer are kept (R102). -/
def State.warmDryer (before : Dryer) (s : State) : State :=
  s.setDryer { s.dryer with
    state := warmDryerState before s.dryer.batch, returnMark := false, autoDischarge := false, stopPending := false, warmUp := none }

/-- Every live transfer ends with reason RESET, leg by leg and in slot order; nothing succeeds them (R130, R193). -/
def State.resetTransfers (s : State) : State :=
  (s.victims (fun _ => true) .reset).foldl (fun t v => t.endSlot v.leg v.slot v.reason) s

/-- A leg after a warm start (R130): its slots have been emptied. -/
def Leg.warm (g : Leg) : Leg := { g with staging := none, lastCarried := .unknown }

/-- A pending spout move is cleared as at a spout timeout (R169). -/
def Berth.warm (b : Berth) : Berth :=
  if b.movePending then { b with movePending := false, spoutTimer := none, current := none } else b

/-- The river stage after a warm start: a known stage is STALE and its timer stopped (R169). -/
def River.warm (r : River) : River := { r with stale := r.known || r.stale, staleTimer := none }

/-- Stage 3 of a warm start: every block's own rule (R21, R45, R83, R102, R130, R145, R169). The flags raised here are
cleared at stage 4. -/
def State.warmRecords (p : Pins) (s : State) : State :=
  let s1 := s.resetTransfers.warmDryer s.dryer
  let s2 := { s1.checkSizes with
    tickets := s1.tickets.map s1.carryTicket
    channels := Vector.replicate 3 Channel.started
    bins := s1.bins.map s1.carryTemp
    legs := s1.legs.map Leg.warm
    berths := s1.berths.map Berth.warm
    river := s1.river.warm }
  allBerths.foldl (fun t k => t.recomputeLimit k) (s2.readLines p)

/-- The berths that the start has found newly over their limit (R169). -/
def newlyOver (before after : State) : List BerthNo :=
  allBerths.filter fun k => !(before.berth k).overLimit && (after.berth k).overLimit

/-- A stale expiry made as the start completes: the examination follows once for all (R145, R193). -/
def State.staleNow (b : BinNo) (s : State) : State :=
  let x := s.bin b
  (s.setBin b { x with temp := { x.temp with stale := true, staleTimer := none } }).raise flagTempStale

/-- Stage 6 of a warm start: tickets past their timeout, stale bins, OVERDRAFT, and one examination (R83, R145, R169,
R193; DEDUCED, assumption log 25). -/
def State.completeWarm (stale : List BinNo) (newlyOver : List BerthNo) (s : State) : State :=
  let s1 := stale.foldl (fun t b => t.staleNow b) s.expireOverdue
  (newlyOver.foldl (fun t k => t.raise (flagOverdraft k)) s1).examine

/-- A warm start, in the stages of R193. -/
def State.warmStart (p : Pins) (s : State) : State :=
  let s2 := s.abandonCommit.loadSettings
  let s3 := (s2.warmRecords p).beginRun .warm
  let s5 := (s3.clearAllFlags.raise flagStartWarm).raiseIf s3.defaulted flagSettingsDefaulted
  s5.completeWarm s2.staleAtStart (newlyOver s s3)

/-! ### The cold start -/

/-- A cold start, in the stages of R193: every record table is emptied. The store is kept, and so is what is waiting
for the part. Every schedule entry is free, so the examination of stage 6 finds nothing to launch. -/
def State.coldStart (p : Pins) (s : State) : State :=
  let s2 := s.abandonCommit.loadSettings
  let s3 := { State.reset with
    settings := s2.settings, bank0 := s2.bank0, bank1 := s2.bank1, currentBank := s2.currentBank
    defaulted := s2.defaulted, freeCount := s2.freeCount, pending := s2.pending }
  ((s3.readLines p).clearAllFlags.enableAll.raise flagStartCold).raiseIf s3.defaulted flagSettingsDefaulted

/-! ### Lines and power -/

/-- The assertion of ESTOP at the dryer (R96). -/
def Dryer.stopped (d : Dryer) : Dryer :=
  match d.state with
  | .drying => { d with state := .suspended }
  | .warming =>
    { d with state := if d.returnMark then .suspended else .off, returnMark := false, warmUp := none }
  | .ready => { d with state := .off }
  | .off | .dischargeWait | .discharging | .suspended | .fault => d

/-- The assertion of ESTOP at the legs, before the ends: STOPPED on each leg that holds a transfer, and every
last-carried identity UNKNOWN (R125). -/
def State.stopLegs (s : State) : State :=
  allLegs.foldl (fun t l =>
    (t.setLeg l { t.leg l with lastCarried := .unknown }).raiseIf (!(t.leg l).empty) (flagStopped l)) s

/-- A qualified assertion of ESTOP (R96, R125); a line already asserted does not change (DESIGN CHOICE, assumption
log 15). -/
def State.assertEstop (s : State) : State :=
  if s.estop then s
  else
    let s1 := { s with estop := true, dryer := s.dryer.stopped }.stopLegs
    s1.endTransfers (s1.victims (fun _ => true) .estop)

def execEstopAsserted (s : State) : Result := .next (s.whenPowered State.assertEstop)

/-- A qualified release of ESTOP (R171). -/
def State.releaseEstop (s : State) : State := { s with estop := false }

def execEstopReleased (s : State) : Result := .next (s.whenPowered State.releaseEstop)

/-- A qualified assertion of RESET causes a warm start (R171, R192); a line already asserted does not change. -/
def State.assertReset (p : Pins) (s : State) : State := if s.resetLine then s else s.warmStart p

def execResetAsserted (p : Pins) (s : State) : Result := .next (s.whenPowered (State.assertReset p))

/-- A qualified release of RESET (R171). -/
def State.releaseReset (s : State) : State := { s with resetLine := false }

def execResetReleased (s : State) : Result := .next (s.whenPowered State.releaseReset)

/-- A change of BACKUP_LOST while main power is on changes the level Read Time shows, and nothing else (R192). -/
def State.setBackupLost (level : Bool) (s : State) : State := { s with backupLost := level }

def execBackupLostChange (level : Bool) (s : State) : Result := .next (s.whenPowered (State.setBackupLost level))

/-- Main power is lost: the part stops, a commit is abandoned, and a frame or an answer in progress is lost
(R189, R192). -/
def State.losePower (s : State) : State :=
  { s.abandonCommit with powered := false, receiver := .hunting, response := none, resetPending := false }

def execMainPowerLoss (s : State) : Result := .next (s.whenPowered State.losePower)

/-- Main power returns: a warm start, or a cold one with BACKUP_LOST asserted (R192). A return that finds main power on
implies its loss (DESIGN CHOICE, assumption log 15). -/
def State.returnPower (p : Pins) (s : State) : State :=
  if p.backupLost then s.losePower.coldStart p else s.losePower.warmStart p

def execMainPowerReturn (p : Pins) (s : State) : Result := .next (s.returnPower p)

end Sys2Proof.Machine
end

