-- ==== Sys2Proof/Machine/PortCommands.lean ====
section
/-! DEFINITION. The receiver's own commands (R173, R177): a frame with an unknown code, bytes that no well-formed frame
comes from, a gap, and the end of a response. -/

namespace Sys2Proof.Machine

/-- The request codes, each with what takes it (The Request Port and Stations, "Request codes"). -/
def execRequest (code : Byte) (f : Frame) (s : State) : Option Result :=
  match code.toNat with
  | 0x10 => some (execReadLot f s)
  | 0x11 => some (execFindLots f s)
  | 0x12 => some (execCloseReceivingLot f s)
  | 0x13 => some (execCloseIpLot f s)
  | 0x14 => some (execSetLotHold f s)
  | 0x15 => some (execClearLotHold f s)
  | 0x16 => some (execAmendLot f s)
  | 0x17 => some (execRetireLot f s)
  | 0x20 => some (execReadBin f s)
  | 0x21 => some (execReadLayers f s)
  | 0x22 => some (execSetBinSettings f s)
  | 0x23 => some (execSetBinHold f s)
  | 0x24 => some (execClearBinHold f s)
  | 0x25 => some (execSweepClose f s)
  | 0x30 => some (execScaleSample f s)
  | 0x31 => some (execSetCalibration f s)
  | 0x32 => some (execSetScaleParameters f s)
  | 0x33 => some (execZeroScale f s)
  | 0x34 => some (execWeighIn f s)
  | 0x35 => some (execGradeReport f s)
  | 0x36 => some (execAssignDump f s)
  | 0x37 => some (execDumpReport f s)
  | 0x38 => some (execWeighOut f s)
  | 0x39 => some (execVoidTicket f s)
  | 0x3A => some (execForgetVehicle f s)
  | 0x3B => some (execSetIntakeSettings f s)
  | 0x3C => some (execReadScale f s)
  | 0x3D => some (execReadVehicle f s)
  | 0x3E => some (execReadTicket f s)
  | 0x3F => some (execListTickets f s)
  | 0x40 => some (execReadIntakeStatus f s)
  | 0x48 => some (execStartDryer f s)
  | 0x49 => some (execStopDryer f s)
  | 0x4A => some (execChargeBatch f s)
  | 0x4B => some (execBatchDried f s)
  | 0x4C => some (execDischarge f s)
  | 0x4D => some (execSuspendDryer f s)
  | 0x4E => some (execResumeDryer f s)
  | 0x4F => some (execDryerFault f s)
  | 0x50 => some (execClearDryerFault f s)
  | 0x51 => some (execSetDryerSettings f s)
  | 0x52 => some (execReadDryer f s)
  | 0x60 => some (execStageTransfer f s)
  | 0x61 => some (execLaunch f s)
  | 0x62 => some (execWithdrawStaging f s)
  | 0x63 => some (execFlowReport f s)
  | 0x64 => some (execAbortTransfer f s)
  | 0x65 => some (execClearLegFlags f s)
  | 0x66 => some (execMarkLegClean f s)
  | 0x67 => some (execSetLegSettings f s)
  | 0x68 => some (execReadLeg f s)
  | 0x70 => some (execTemperatureReport f s)
  | 0x71 => some (execSetSchedule f s)
  | 0x72 => some (execEndSchedule f s)
  | 0x73 => some (execSetRotationSettings f s)
  | 0x74 => some (execReadSchedules f s)
  | 0x80 => some (execAcceptBarge f s)
  | 0x81 => some (execSetLoadOrder f s)
  | 0x82 => some (execSetPositionPlan f s)
  | 0x83 => some (execSetBerthEnable f s)
  | 0x84 => some (execSetSpoutPosition f s)
  | 0x85 => some (execSpoutArrived f s)
  | 0x86 => some (execResumeBerth f s)
  | 0x87 => some (execReleaseBarge f s)
  | 0x88 => some (execStageReading f s)
  | 0x89 => some (execSetRiverSettings f s)
  | 0x8A => some (execReadBerth f s)
  | 0x8B => some (execReadRiver f s)
  | 0x90 => some (execReadStations f s)
  | 0x91 => some (execSetStation f s)
  | 0x92 => some (execReadEvents f s)
  | 0x93 => some (execClearEvents f s)
  | 0x94 => some (execSetEventEnables f s)
  | 0xA0 => some (execCommitSettings f s)
  | 0xA1 => some (execSetTime f s)
  | 0xA2 => some (execReadTime f s)
  | 0xA3 => some (execResetPart f s)
  | 0xA4 => some (execSetLotSize f s)
  | _ => none

/-- A frame whose code is not a request code: NOT_ENABLED comes before UNKNOWN_REQUEST (R177). -/
def takeUnknown (f : Frame) (s : State) : State × Answer :=
  if !(s.station f.station).enabled then refuse .notEnabled s else refuse .unknownRequest s

/-- A well-formed frame reaches the part with any code (R177). -/
def takeFrame (code : Byte) (f : Frame) (s : State) : Result :=
  match execRequest code f s with
  | some r => r
  | none => .next (if s.listening then respond code f (takeUnknown f s) else s)

def execUnknownRequest (code : Byte) (f : Frame) (s : State) : Result := takeFrame code f s

/-- Bytes reach the receiver (R173). Those of a discarded frame bring it back to HUNTING and change nothing else; bytes
that do complete a well-formed frame have it taken, whatever the row they are given under (DESIGN CHOICE,
assumption log 14). -/
def execFrameDiscarded (bytes : List Byte) (s : State) : Result :=
  if s.powered then
    match s.receiver.feed bytes with
    | (r, none) => .next { s with receiver := r }
    | (_, some (code, f)) => takeFrame code f s
  else .next s

/-- The receiver after a gap of more than 4 ms that the byte `b` ends (R173). -/
def Receiver.afterGap (r : Receiver) (b : Byte) : Receiver :=
  match r with
  | .closed => .closed
  | .hunting | .inFrame _ => (Receiver.hunting.byte b).1

def execFrameGapTimeout (b : Byte) (s : State) : Result :=
  .next (s.whenPowered fun t => { t with receiver := t.receiver.afterGap b })

/-- The last stop bit of the response has been sent: TX_ENABLE is released and the receiver hunts (R173, R174); a
warm start begins then when Reset Part has been answered OK (R192). With no response being sent there is no such
event. -/
def State.endResponse (p : Pins) (s : State) : State :=
  match s.response with
  | none => s
  | some _ =>
    if s.resetPending then s.warmStart p else { s with receiver := .hunting, response := none }

def execResponseSent (p : Pins) (s : State) : Result := .next (s.whenPowered (State.endResponse p))

end Sys2Proof.Machine
end

