-- ==== Sys2Proof/Machine/Clock.lean ====
section
/-! DEFINITION. One second of the part's oscillator, which an empty queue lets pass (DESIGN CHOICE, assumption log 12). It moves the
timebase, terminal time and the running timers, and puts the expiries that are due on the queue. -/

namespace Sys2Proof.Machine

/-- A running timer loses one second. -/
def countDown (t : Option Nat) : Option Nat := t.map (· - 1)

/-- A running timer has come to its end. -/
def ranOut (t : Option Nat) : Bool := t == some 0

/-- The drying timer runs in DRYING and until it has expired (R90). -/
def Dryer.countDown (d : Dryer) : Dryer :=
  { d with
    warmUp := Machine.countDown d.warmUp
    drying :=
      match d.state, d.drying with
      | .drying, some t => some (if t.expired then t else { t with remaining := t.remaining - 1 })
      | _, t => t }

/-- A cleanout runs in the ACTIVE slot (R116). -/
def Leg.countDown (g : Leg) : Leg :=
  { g with active := g.active.map fun t =>
      match t.state with
      | .cleanout n => { t with state := .cleanout (n - 1) }
      | _ => t }

def Channel.countDown (c : Channel) : Channel := { c with signal := Machine.countDown c.signal }
def Bin.countDown (x : Bin) : Bin := { x with temp := { x.temp with staleTimer := Machine.countDown x.temp.staleTimer } }
def Berth.countDown (b : Berth) : Berth := { b with spoutTimer := Machine.countDown b.spoutTimer }

/-- Terminal time rises by 1, wrapping after 4,294,967,295 (R191). -/
def State.terminalTick (s : State) : State := { s with terminalTime := (s.terminalTime + 1) % Config.timeModulus }

/-- Every clock and running timer moves by one second. -/
def State.countDown (s : State) : State :=
  { s.terminalTick with
    timebase := s.timebase + 1
    channels := s.channels.map Channel.countDown
    bins := s.bins.map Bin.countDown
    dryer := s.dryer.countDown
    legs := s.legs.map Leg.countDown
    berths := s.berths.map Berth.countDown
    river := { s.river with staleTimer := Machine.countDown s.river.staleTimer } }

def Leg.cleanoutDue (g : Leg) : Bool :=
  match g.active with
  | some t => ranOut t.state.cleanoutLeft
  | none => false

def Dryer.dryingDue (d : Dryer) : Bool :=
  match d.state, d.drying with
  | .drying, some t => !t.expired && t.remaining == 0
  | _, _ => false

/-- The expiries that are due: scales, tickets in ascending order of number (R79), the dryer, cleanouts, bins, the
river, spouts. Their order among blocks is DESIGN CHOICE (assumption log 12). -/
def State.due (s : State) : List Instr :=
  (allChannels.filter fun c => ranOut (s.channel c).signal).map .signalExpiry ++
  (s.tickets.filter s.overdue).map (fun t => .ticketExpiry t.number) ++
  (if ranOut s.dryer.warmUp then [.warmUpExpiry] else []) ++
  (if s.dryer.dryingDue then [.dryingTimerExpiry] else []) ++
  (allLegs.filter fun l => (s.leg l).cleanoutDue).map .cleanoutExpiry ++
  (allBins.filter fun b => ranOut (s.bin b).temp.staleTimer).map .staleExpiry ++
  (if ranOut s.river.staleTimer then [.riverStaleExpiry] else []) ++
  (allBerths.filter fun k => ranOut (s.berth k).spoutTimer).map .spoutTimerExpiry

/-- One second passes. Without main power only terminal time counts, on the backup supply (R191). -/
def State.tick (s : State) : State :=
  if s.powered then { s.countDown with pending := s.pending ++ s.countDown.due } else s.terminalTick

end Sys2Proof.Machine
end

