-- ==== Sys2Proof/Machine/Dispatch.lean ====
section
/-! DEFINITION. The command dispatch: one arm per row of the table, each one call of the row's meaning. -/

namespace Sys2Proof.Machine

def exec (i : Instr) (s : State) : Host.Outcome State Fault Refusal :=
  match i with
  | .readLot f => Sys2Proof.Machine.execReadLot f s
  | .findLots f => Sys2Proof.Machine.execFindLots f s
  | .closeReceivingLot f => Sys2Proof.Machine.execCloseReceivingLot f s
  | .closeIpLot f => Sys2Proof.Machine.execCloseIpLot f s
  | .setLotHold f => Sys2Proof.Machine.execSetLotHold f s
  | .clearLotHold f => Sys2Proof.Machine.execClearLotHold f s
  | .amendLot f => Sys2Proof.Machine.execAmendLot f s
  | .retireLot f => Sys2Proof.Machine.execRetireLot f s
  | .readBin f => Sys2Proof.Machine.execReadBin f s
  | .readLayers f => Sys2Proof.Machine.execReadLayers f s
  | .setBinSettings f => Sys2Proof.Machine.execSetBinSettings f s
  | .setBinHold f => Sys2Proof.Machine.execSetBinHold f s
  | .clearBinHold f => Sys2Proof.Machine.execClearBinHold f s
  | .sweepClose f => Sys2Proof.Machine.execSweepClose f s
  | .scaleSample f => Sys2Proof.Machine.execScaleSample f s
  | .setCalibration f => Sys2Proof.Machine.execSetCalibration f s
  | .setScaleParameters f => Sys2Proof.Machine.execSetScaleParameters f s
  | .zeroScale f => Sys2Proof.Machine.execZeroScale f s
  | .weighIn f => Sys2Proof.Machine.execWeighIn f s
  | .gradeReport f => Sys2Proof.Machine.execGradeReport f s
  | .assignDump f => Sys2Proof.Machine.execAssignDump f s
  | .dumpReport f => Sys2Proof.Machine.execDumpReport f s
  | .weighOut f => Sys2Proof.Machine.execWeighOut f s
  | .voidTicket f => Sys2Proof.Machine.execVoidTicket f s
  | .forgetVehicle f => Sys2Proof.Machine.execForgetVehicle f s
  | .setIntakeSettings f => Sys2Proof.Machine.execSetIntakeSettings f s
  | .readScale f => Sys2Proof.Machine.execReadScale f s
  | .readVehicle f => Sys2Proof.Machine.execReadVehicle f s
  | .readTicket f => Sys2Proof.Machine.execReadTicket f s
  | .listTickets f => Sys2Proof.Machine.execListTickets f s
  | .readIntakeStatus f => Sys2Proof.Machine.execReadIntakeStatus f s
  | .startDryer f => Sys2Proof.Machine.execStartDryer f s
  | .stopDryer f => Sys2Proof.Machine.execStopDryer f s
  | .chargeBatch f => Sys2Proof.Machine.execChargeBatch f s
  | .batchDried f => Sys2Proof.Machine.execBatchDried f s
  | .discharge f => Sys2Proof.Machine.execDischarge f s
  | .suspendDryer f => Sys2Proof.Machine.execSuspendDryer f s
  | .resumeDryer f => Sys2Proof.Machine.execResumeDryer f s
  | .dryerFault f => Sys2Proof.Machine.execDryerFault f s
  | .clearDryerFault f => Sys2Proof.Machine.execClearDryerFault f s
  | .setDryerSettings f => Sys2Proof.Machine.execSetDryerSettings f s
  | .readDryer f => Sys2Proof.Machine.execReadDryer f s
  | .stageTransfer f => Sys2Proof.Machine.execStageTransfer f s
  | .launch f => Sys2Proof.Machine.execLaunch f s
  | .withdrawStaging f => Sys2Proof.Machine.execWithdrawStaging f s
  | .flowReport f => Sys2Proof.Machine.execFlowReport f s
  | .abortTransfer f => Sys2Proof.Machine.execAbortTransfer f s
  | .clearLegFlags f => Sys2Proof.Machine.execClearLegFlags f s
  | .markLegClean f => Sys2Proof.Machine.execMarkLegClean f s
  | .setLegSettings f => Sys2Proof.Machine.execSetLegSettings f s
  | .readLeg f => Sys2Proof.Machine.execReadLeg f s
  | .temperatureReport f => Sys2Proof.Machine.execTemperatureReport f s
  | .setSchedule f => Sys2Proof.Machine.execSetSchedule f s
  | .endSchedule f => Sys2Proof.Machine.execEndSchedule f s
  | .setRotationSettings f => Sys2Proof.Machine.execSetRotationSettings f s
  | .readSchedules f => Sys2Proof.Machine.execReadSchedules f s
  | .acceptBarge f => Sys2Proof.Machine.execAcceptBarge f s
  | .setLoadOrder f => Sys2Proof.Machine.execSetLoadOrder f s
  | .setPositionPlan f => Sys2Proof.Machine.execSetPositionPlan f s
  | .setBerthEnable f => Sys2Proof.Machine.execSetBerthEnable f s
  | .setSpoutPosition f => Sys2Proof.Machine.execSetSpoutPosition f s
  | .spoutArrived f => Sys2Proof.Machine.execSpoutArrived f s
  | .resumeBerth f => Sys2Proof.Machine.execResumeBerth f s
  | .releaseBarge f => Sys2Proof.Machine.execReleaseBarge f s
  | .stageReading f => Sys2Proof.Machine.execStageReading f s
  | .setRiverSettings f => Sys2Proof.Machine.execSetRiverSettings f s
  | .readBerth f => Sys2Proof.Machine.execReadBerth f s
  | .readRiver f => Sys2Proof.Machine.execReadRiver f s
  | .readStations f => Sys2Proof.Machine.execReadStations f s
  | .setStation f => Sys2Proof.Machine.execSetStation f s
  | .readEvents f => Sys2Proof.Machine.execReadEvents f s
  | .clearEvents f => Sys2Proof.Machine.execClearEvents f s
  | .setEventEnables f => Sys2Proof.Machine.execSetEventEnables f s
  | .commitSettings f => Sys2Proof.Machine.execCommitSettings f s
  | .setTime f => Sys2Proof.Machine.execSetTime f s
  | .readTime f => Sys2Proof.Machine.execReadTime f s
  | .resetPart f => Sys2Proof.Machine.execResetPart f s
  | .setLotSize f => Sys2Proof.Machine.execSetLotSize f s
  | .unknownRequest code f => Sys2Proof.Machine.execUnknownRequest code f s
  | .frameDiscarded bytes => Sys2Proof.Machine.execFrameDiscarded bytes s
  | .frameGapTimeout next => Sys2Proof.Machine.execFrameGapTimeout next s
  | .responseSent pins => Sys2Proof.Machine.execResponseSent pins s
  | .signalExpiry c => Sys2Proof.Machine.execSignalExpiry c s
  | .ticketExpiry number => Sys2Proof.Machine.execTicketExpiry number s
  | .warmUpExpiry => Sys2Proof.Machine.execWarmUpExpiry s
  | .dryingTimerExpiry => Sys2Proof.Machine.execDryingTimerExpiry s
  | .cleanoutExpiry leg => Sys2Proof.Machine.execCleanoutExpiry leg s
  | .staleExpiry bin => Sys2Proof.Machine.execStaleExpiry bin s
  | .riverStaleExpiry => Sys2Proof.Machine.execRiverStaleExpiry s
  | .spoutTimerExpiry berth => Sys2Proof.Machine.execSpoutTimerExpiry berth s
  | .commitDone => Sys2Proof.Machine.execCommitDone s
  | .commitFailed => Sys2Proof.Machine.execCommitFailed s
  | .estopAsserted => Sys2Proof.Machine.execEstopAsserted s
  | .estopReleased => Sys2Proof.Machine.execEstopReleased s
  | .resetAsserted pins => Sys2Proof.Machine.execResetAsserted pins s
  | .mainPowerReturn pins => Sys2Proof.Machine.execMainPowerReturn pins s
  | .backupLostChange level => Sys2Proof.Machine.execBackupLostChange level s
  | .presentChange berth level => Sys2Proof.Machine.execPresentChange berth level s
  | .mooredChange berth level => Sys2Proof.Machine.execMooredChange berth level s
  | .buttonPress berth => Sys2Proof.Machine.execButtonPress berth s
  | .buttonRelease berth => Sys2Proof.Machine.execButtonRelease berth s
  | .mainPowerLoss => Sys2Proof.Machine.execMainPowerLoss s
  | .resetReleased => Sys2Proof.Machine.execResetReleased s

end Sys2Proof.Machine
end

