-- ==== Sys2Proof/WellFormed.lean ====
section
/-! DEFINITION. The commands a sender can send: the rows' operands within what R172, R173 and R177 allow. The meanings
are total and act on the others too. -/

namespace Sys2Proof

/-- The request codes (The Request Port and Stations, "Request codes"). -/
def isRequestCode (code : Byte) : Bool :=
  let n := code.toNat
  (0x10 ≤ n && n ≤ 0x17) || (0x20 ≤ n && n ≤ 0x25) || (0x30 ≤ n && n ≤ 0x40) || (0x48 ≤ n && n ≤ 0x52) ||
  (0x60 ≤ n && n ≤ 0x68) || (0x70 ≤ n && n ≤ 0x74) || (0x80 ≤ n && n ≤ 0x8B) || (0x90 ≤ n && n ≤ 0x94) ||
  (0xA0 ≤ n && n ≤ 0xA4)

/-- A payload of 0 to 240 bytes (R172). -/
def Frame.fits (f : Frame) : Bool := f.payload.length ≤ Config.maxPayload

/-- The bytes of one discarded frame, from SYNC to the byte at which the receiver gives it up (R173). -/
def isDiscarded (bytes : List Byte) : Bool :=
  bytes.head? == some Machine.sync &&
  Machine.Receiver.feed .hunting bytes == (.hunting, none) &&
  (match Machine.Receiver.feed .hunting bytes.dropLast with
    | (.inFrame _, none) => true
    | _ => false)

/-- The command is one that can reach the part. -/
def Instr.wellFormed : Instr → Bool
  | .readLot f => f.fits
  | .findLots f => f.fits
  | .closeReceivingLot f => f.fits
  | .closeIpLot f => f.fits
  | .setLotHold f => f.fits
  | .clearLotHold f => f.fits
  | .amendLot f => f.fits
  | .retireLot f => f.fits
  | .readBin f => f.fits
  | .readLayers f => f.fits
  | .setBinSettings f => f.fits
  | .setBinHold f => f.fits
  | .clearBinHold f => f.fits
  | .sweepClose f => f.fits
  | .scaleSample f => f.fits
  | .setCalibration f => f.fits
  | .setScaleParameters f => f.fits
  | .zeroScale f => f.fits
  | .weighIn f => f.fits
  | .gradeReport f => f.fits
  | .assignDump f => f.fits
  | .dumpReport f => f.fits
  | .weighOut f => f.fits
  | .voidTicket f => f.fits
  | .forgetVehicle f => f.fits
  | .setIntakeSettings f => f.fits
  | .readScale f => f.fits
  | .readVehicle f => f.fits
  | .readTicket f => f.fits
  | .listTickets f => f.fits
  | .readIntakeStatus f => f.fits
  | .startDryer f => f.fits
  | .stopDryer f => f.fits
  | .chargeBatch f => f.fits
  | .batchDried f => f.fits
  | .discharge f => f.fits
  | .suspendDryer f => f.fits
  | .resumeDryer f => f.fits
  | .dryerFault f => f.fits
  | .clearDryerFault f => f.fits
  | .setDryerSettings f => f.fits
  | .readDryer f => f.fits
  | .stageTransfer f => f.fits
  | .launch f => f.fits
  | .withdrawStaging f => f.fits
  | .flowReport f => f.fits
  | .abortTransfer f => f.fits
  | .clearLegFlags f => f.fits
  | .markLegClean f => f.fits
  | .setLegSettings f => f.fits
  | .readLeg f => f.fits
  | .temperatureReport f => f.fits
  | .setSchedule f => f.fits
  | .endSchedule f => f.fits
  | .setRotationSettings f => f.fits
  | .readSchedules f => f.fits
  | .acceptBarge f => f.fits
  | .setLoadOrder f => f.fits
  | .setPositionPlan f => f.fits
  | .setBerthEnable f => f.fits
  | .setSpoutPosition f => f.fits
  | .spoutArrived f => f.fits
  | .resumeBerth f => f.fits
  | .releaseBarge f => f.fits
  | .stageReading f => f.fits
  | .setRiverSettings f => f.fits
  | .readBerth f => f.fits
  | .readRiver f => f.fits
  | .readStations f => f.fits
  | .setStation f => f.fits
  | .readEvents f => f.fits
  | .clearEvents f => f.fits
  | .setEventEnables f => f.fits
  | .commitSettings f => f.fits
  | .setTime f => f.fits
  | .readTime f => f.fits
  | .resetPart f => f.fits
  | .setLotSize f => f.fits
  | .unknownRequest code f => !isRequestCode code && f.fits
  | .frameDiscarded bytes => isDiscarded bytes
  | .frameGapTimeout _ => true
  | .responseSent _ => true
  | .signalExpiry _ => true
  | .ticketExpiry number => decide (1 ≤ number) && decide (number ≤ Config.maxTicketNo)
  | .warmUpExpiry => true
  | .dryingTimerExpiry => true
  | .cleanoutExpiry _ => true
  | .staleExpiry _ => true
  | .riverStaleExpiry => true
  | .spoutTimerExpiry _ => true
  | .commitDone => true
  | .commitFailed => true
  | .estopAsserted => true
  | .estopReleased => true
  | .resetAsserted _ => true
  | .mainPowerReturn _ => true
  | .backupLostChange _ => true
  | .presentChange _ _ => true
  | .mooredChange _ _ => true
  | .buttonPress _ => true
  | .buttonRelease _ => true
  | .mainPowerLoss => true
  | .resetReleased => true

end Sys2Proof
end

