-- ==== Sys2Proof/Safety.lean ====
section
/-! DEFINITION. The terms the statements use: when a request is heard, what a request is, the laws a run keeps, and
which records an event leaves alone. -/

namespace Sys2Proof.Machine

/-! ### Requests -/

/-- A request is heard: the port is open to it, its station is enabled and its class is accepted (R173, R177). -/
structure Heard (s : State) (f : Frame) (cs : Classes) : Prop where
  listening : s.listening = true
  enabled : (s.station f.station).enabled = true
  accepted : cs.accept (s.station f.station).cls = true

/-- The part takes a frame with a code, answers `a` and is in state `t` but for the port. -/
def answered (code : Byte) (f : Frame) (t : State) (a : Answer) : Result := .next (respond code f (t, a))

/-- A request's code and the classes it accepts (The Request Port and Stations, "Request codes", and each chapter's
table of classes); none for a command that is no request. -/
structure RequestKind where
  code : Byte
  classes : Classes
  frame : Frame

def request? : Instr → Option RequestKind
  | .readLot f => some ⟨0x10#8, everyStation, f⟩
  | .findLots f => some ⟨0x11#8, everyStation, f⟩
  | .closeReceivingLot f => some ⟨0x12#8, onlySupervisor, f⟩
  | .closeIpLot f => some ⟨0x13#8, supervisorOr [.grader], f⟩
  | .setLotHold f => some ⟨0x14#8, supervisorOr [.grader], f⟩
  | .clearLotHold f => some ⟨0x15#8, supervisorOr [.grader], f⟩
  | .amendLot f => some ⟨0x16#8, supervisorOr [.grader], f⟩
  | .retireLot f => some ⟨0x17#8, onlySupervisor, f⟩
  | .readBin f => some ⟨0x20#8, everyStation, f⟩
  | .readLayers f => some ⟨0x21#8, everyStation, f⟩
  | .setBinSettings f => some ⟨0x22#8, onlySupervisor, f⟩
  | .setBinHold f => some ⟨0x23#8, supervisorOr [.grader], f⟩
  | .clearBinHold f => some ⟨0x24#8, supervisorOr [.grader], f⟩
  | .sweepClose f => some ⟨0x25#8, onlySupervisor, f⟩
  | .scaleSample f => some ⟨0x30#8, some [.scale], f⟩
  | .setCalibration f => some ⟨0x31#8, onlySupervisor, f⟩
  | .setScaleParameters f => some ⟨0x32#8, onlySupervisor, f⟩
  | .zeroScale f => some ⟨0x33#8, supervisorOr [.scale], f⟩
  | .weighIn f => some ⟨0x34#8, supervisorOr [.scale], f⟩
  | .gradeReport f => some ⟨0x35#8, supervisorOr [.grader], f⟩
  | .assignDump f => some ⟨0x36#8, supervisorOr [.grader, .scale], f⟩
  | .dumpReport f => some ⟨0x37#8, supervisorOr [.scale], f⟩
  | .weighOut f => some ⟨0x38#8, supervisorOr [.scale], f⟩
  | .voidTicket f => some ⟨0x39#8, onlySupervisor, f⟩
  | .forgetVehicle f => some ⟨0x3A#8, onlySupervisor, f⟩
  | .setIntakeSettings f => some ⟨0x3B#8, onlySupervisor, f⟩
  | .readScale f => some ⟨0x3C#8, everyStation, f⟩
  | .readVehicle f => some ⟨0x3D#8, everyStation, f⟩
  | .readTicket f => some ⟨0x3E#8, everyStation, f⟩
  | .listTickets f => some ⟨0x3F#8, everyStation, f⟩
  | .readIntakeStatus f => some ⟨0x40#8, everyStation, f⟩
  | .startDryer f => some ⟨0x48#8, supervisorOr [.dryer], f⟩
  | .stopDryer f => some ⟨0x49#8, supervisorOr [.dryer], f⟩
  | .chargeBatch f => some ⟨0x4A#8, supervisorOr [.dryer], f⟩
  | .batchDried f => some ⟨0x4B#8, some [.dryer], f⟩
  | .discharge f => some ⟨0x4C#8, supervisorOr [.dryer], f⟩
  | .suspendDryer f => some ⟨0x4D#8, supervisorOr [.dryer], f⟩
  | .resumeDryer f => some ⟨0x4E#8, supervisorOr [.dryer], f⟩
  | .dryerFault f => some ⟨0x4F#8, supervisorOr [.dryer], f⟩
  | .clearDryerFault f => some ⟨0x50#8, onlySupervisor, f⟩
  | .setDryerSettings f => some ⟨0x51#8, onlySupervisor, f⟩
  | .readDryer f => some ⟨0x52#8, everyStation, f⟩
  | .stageTransfer f => some ⟨0x60#8, supervisorOr [.loadout], f⟩
  | .launch f => some ⟨0x61#8, supervisorOr [.loadout], f⟩
  | .withdrawStaging f => some ⟨0x62#8, supervisorOr [.loadout], f⟩
  | .flowReport f => some ⟨0x63#8, some [.loadout, .dryer], f⟩
  | .abortTransfer f => some ⟨0x64#8, supervisorOr [.loadout], f⟩
  | .clearLegFlags f => some ⟨0x65#8, supervisorOr [.loadout], f⟩
  | .markLegClean f => some ⟨0x66#8, onlySupervisor, f⟩
  | .setLegSettings f => some ⟨0x67#8, onlySupervisor, f⟩
  | .readLeg f => some ⟨0x68#8, everyStation, f⟩
  | .temperatureReport f => some ⟨0x70#8, supervisorOr [.scanner], f⟩
  | .setSchedule f => some ⟨0x71#8, onlySupervisor, f⟩
  | .endSchedule f => some ⟨0x72#8, onlySupervisor, f⟩
  | .setRotationSettings f => some ⟨0x73#8, onlySupervisor, f⟩
  | .readSchedules f => some ⟨0x74#8, everyStation, f⟩
  | .acceptBarge f => some ⟨0x80#8, supervisorOr [.loadout], f⟩
  | .setLoadOrder f => some ⟨0x81#8, supervisorOr [.loadout], f⟩
  | .setPositionPlan f => some ⟨0x82#8, supervisorOr [.loadout], f⟩
  | .setBerthEnable f => some ⟨0x83#8, supervisorOr [.loadout], f⟩
  | .setSpoutPosition f => some ⟨0x84#8, supervisorOr [.loadout], f⟩
  | .spoutArrived f => some ⟨0x85#8, some [.loadout], f⟩
  | .resumeBerth f => some ⟨0x86#8, supervisorOr [.loadout], f⟩
  | .releaseBarge f => some ⟨0x87#8, supervisorOr [.loadout], f⟩
  | .stageReading f => some ⟨0x88#8, supervisorOr [.gauge], f⟩
  | .setRiverSettings f => some ⟨0x89#8, onlySupervisor, f⟩
  | .readBerth f => some ⟨0x8A#8, everyStation, f⟩
  | .readRiver f => some ⟨0x8B#8, everyStation, f⟩
  | .readStations f => some ⟨0x90#8, everyStation, f⟩
  | .setStation f => some ⟨0x91#8, onlySupervisor, f⟩
  | .readEvents f => some ⟨0x92#8, everyStation, f⟩
  | .clearEvents f => some ⟨0x93#8, onlySupervisor, f⟩
  | .setEventEnables f => some ⟨0x94#8, onlySupervisor, f⟩
  | .commitSettings f => some ⟨0xA0#8, onlySupervisor, f⟩
  | .setTime f => some ⟨0xA1#8, onlySupervisor, f⟩
  | .readTime f => some ⟨0xA2#8, everyStation, f⟩
  | .resetPart f => some ⟨0xA3#8, onlySupervisor, f⟩
  | .setLotSize f => some ⟨0xA4#8, onlySupervisor, f⟩
  | .unknownRequest _ _ => none
  | .frameDiscarded _ => none
  | .frameGapTimeout _ => none
  | .responseSent _ => none
  | .signalExpiry _ => none
  | .ticketExpiry _ => none
  | .warmUpExpiry => none
  | .dryingTimerExpiry => none
  | .cleanoutExpiry _ => none
  | .staleExpiry _ => none
  | .riverStaleExpiry => none
  | .spoutTimerExpiry _ => none
  | .commitDone => none
  | .commitFailed => none
  | .estopAsserted => none
  | .estopReleased => none
  | .resetAsserted _ => none
  | .mainPowerReturn _ => none
  | .backupLostChange _ => none
  | .presentChange _ _ => none
  | .mooredChange _ _ => none
  | .buttonPress _ => none
  | .buttonRelease _ => none
  | .mainPowerLoss => none
  | .resetReleased => none

/-- The records and settings of two states are the same: only the port differs. -/
def sameButPort (s t : State) : Prop := t = { s with receiver := t.receiver, response := t.response }

/-! ### Laws -/

/-- Layers plus reserved slots stay within the layer capacity, and no layer is of 0 kg (R28). -/
def Bin.layersFit (b : BinNo) (x : Bin) : Prop :=
  x.layers.length + x.reservedSlots ≤ layerCapacity b ∧ ∀ l ∈ x.layers, 1 ≤ l.kg

/-- The layer law of every bin, and no portion of 0 kg in the batch (R28, The Dryer, "The dryer record"). -/
def LayerLaw (s : State) : Prop :=
  (∀ b, (s.bin b).layersFit b) ∧ ∀ x, s.dryer.batch = some x → ∀ p ∈ x.portions, 1 ≤ p.kg

/-- The ACTIVE slot is empty only when the other two are (R103). -/
def SlotLaw (s : State) : Prop := ∀ l, (s.leg l).active = none → (s.leg l).buffered = none ∧ (s.leg l).suspended = none

/-- While ESTOP is asserted no slot of any leg holds a transfer (R117). -/
def EstopLaw (s : State) : Prop := s.estop = true → ∀ l, (s.leg l).empty = true

/-- Station 0 is SUPERVISOR and enabled (R180). -/
def StationLaw (s : State) : Prop := s.station 0 = { cls := .supervisor, enabled := true }

/-- The receiver is CLOSED exactly while a response is being sent (R173, R174). -/
def PortLaw (s : State) : Prop := s.receiver = .closed ↔ s.response.isSome = true

/-- No two lots have one number and no two open tickets have one number; both tables are held in ascending order
(R1, R70). -/
def TableLaw (s : State) : Prop :=
  (s.lots.map Lot.no).Pairwise (· < ·) ∧ (s.tickets.map Ticket.number).Pairwise (· < ·)

/-- The vehicle registry (R68): no tag twice, at most 64 entries, and an entry with an open ticket is of a ticket in
the table, which holds at most 32; so a full registry has an entry to retire. -/
structure RegistryLaw (s : State) : Prop where
  tags : (s.vehicles.map Vehicle.tag).Nodup
  room : s.vehicles.length ≤ Config.maxVehicles ∧ s.tickets.length ≤ Config.maxTickets
  linked : ∀ v ∈ s.vehicles, ∀ n, v.openTicket = some n → ∃ t ∈ s.tickets, t.number = n ∧ t.tag = v.tag

/-- The dryer's state and its batch agree (The Dryer, the state table). -/
def Dryer.agrees (d : Dryer) : Prop :=
  match d.state with
  | .off => ∀ b, d.batch = some b → b.phase = .dried
  | .warming => if d.returnMark then ∃ b, d.batch = some b ∧ b.phase = .wet else d.batch = none
  | .ready => d.batch = none
  | .drying => ∃ b, d.batch = some b ∧ b.phase = .wet
  | .dischargeWait | .discharging => ∃ b, d.batch = some b ∧ b.phase = .dried
  | .suspended => d.batch.isSome = true
  | .fault => True

def DryerLaw (s : State) : Prop := s.dryer.agrees

/-- A berth's cargo is the sum of its manifest, which has no lot twice and at most 16 entries (Berths and Barge
Loading, "The berth record"). -/
def Berth.manifestAgrees (b : Berth) : Prop :=
  b.cargo.q = (b.manifest.map Manifested.kg).sum ∧ (b.manifest.map Manifested.lot).Nodup ∧
    b.manifest.length ≤ Config.maxManifest

def ManifestLaw (s : State) : Prop := ∀ k, (s.berth k).manifestAgrees

/-! ### Live transfers -/

/-- The live transfers, leg by leg and in slot order. -/
def State.live (s : State) : List Transfer :=
  allLegs.flatMap fun l => endOrder.filterMap fun k => (s.leg l).slot k

/-- No two live transfers have one id (R104). -/
def IdLaw (s : State) : Prop := (s.live.map Transfer.id).Nodup

/-- No transfer in any slot of any leg names a bin that is under hold (R38). -/
def HoldLaw (s : State) : Prop := ∀ x ∈ s.live, ∀ b ∈ x.bins, (s.bin b).hold = none

/-- The dryer and its discharge transfer agree (R92, R95, "The dryer record"): the transfer of origin DRYER is the one
whose id the dryer has, it goes from the dryer to the batch's destination, it is live, and the dryer has it in
DISCHARGING only. -/
structure DischargeLaw (s : State) : Prop where
  named : ∀ x ∈ s.live, x.origin = .dryer ↔ s.dryer.discharge = some x.id
  route : ∀ x ∈ s.live, x.origin = .dryer →
    x.source = .dryer ∧ s.dryer.batch.map (fun b => Dest.bin b.dest) = some x.dest
  live : ∀ id, s.dryer.discharge = some id → ∃ x ∈ s.live, x.id = id
  state : s.dryer.discharge.isSome = true ↔ s.dryer.state = .discharging

/-! ### Berths -/

/-- What holds of a berth at every moment: it is VACANT without a barge record and then has no manifest; it is LOADING
while a transfer to it is ACTIVE (R156); of ASSIGNED and READY it is in READY exactly while the READY conditions hold
(R151); it is over limit while its cargo exceeds its load limit; in LOADING the spout stands over a position; its
positions are those of its plan; and its cargo is the sum of its positions' loaded kilograms ("The berth record"). -/
structure State.BerthStands (s : State) (k : BerthNo) : Prop where
  vacant : (s.berth k).state = .vacant ↔ (s.berth k).barge = none
  empty : (s.berth k).state = .vacant → (s.berth k).manifest = []
  loading : (s.berth k).state = .loading ↔ ∃ l, (s.leg l).active.bind Transfer.berth? = some k
  ready : (s.berth k).state = .ready → (s.berth k).readyConditions = true
  assigned : (s.berth k).state = .assigned → (s.berth k).readyConditions = false
  limit : (s.berth k).overLimit = true ↔ (s.berth k).loadLimit < (s.berth k).cargo.q
  spout : (s.berth k).state = .loading → (s.berth k).movePending = false ∧ (s.berth k).currentPosition ≠ none
  positions : ∀ n, (s.berth k).current = some n ∨ (s.berth k).commanded = some n →
    1 ≤ n ∧ n ≤ ((s.berth k).plan.getD []).length
  cargo : (s.berth k).cargo.q = (((s.berth k).plan.getD []).map Position.loaded).sum

/-- Every berth stands as it must, and holds the id of a live transfer to it as its claim (R114). -/
structure BerthLaw (s : State) : Prop where
  claims : ∀ x ∈ s.live, ∀ k, x.berth? = some k → (s.berth k).claim = some x.id
  berths : ∀ k, s.BerthStands k

/-! ### The lots' accounts -/

/-- The portions of the dryer's batch. -/
def State.portions (s : State) : List Portion := (s.dryer.batch.map Batch.portions).getD []

/-- What stands under a lot's number: its layers in all bins, its portions, the tickets bound to it, and the berths
whose manifest lists it. -/
def State.layersOf (s : State) (n : Nat) : List Layer :=
  allBins.flatMap fun b => (s.bin b).layers.filter fun x => x.lot == n
def State.portionsOf (s : State) (n : Nat) : List Portion := s.portions.filter fun p => p.lot == n
def State.ticketsOf (s : State) (n : Nat) : List Ticket :=
  s.tickets.filter fun t => t.assignment.map Assignment.lot == some n
def State.manifestsOf (s : State) (n : Nat) : List BerthNo :=
  allBerths.filter fun k => (s.berth k).manifest.any fun e => e.lot == n

/-- A lot's accounts balance (R6), its standing is the grain of its layers and portions (R10), and its counts are those
of the layers, portions, tickets and manifests that name it (R3, R5, R10, R11). -/
structure State.Balanced (s : State) (l : Lot) : Prop where
  accounts : l.received = l.standing + l.waterLoss + l.handlingLoss + l.shipped + l.writtenOff
  standing : l.standing =
    ((s.layersOf l.no).map Layer.kg).sum + ((s.portionsOf l.no).map Portion.kg).sum
  layers : l.layerCount = (s.layersOf l.no).length
  portions : l.portionCount = (s.portionsOf l.no).length
  tickets : l.pendingTickets = (s.ticketsOf l.no).length
  estimate : l.pendingEstimate =
    ((s.ticketsOf l.no).map fun t => (t.assignment.map Assignment.estimate).getD 0).sum
  manifests : l.manifestRefs = (s.manifestsOf l.no).length

/-- The handling shrink of a set of settings lies in its range (R100). -/
def Settings.handlingFits (x : Settings) : Prop := x.dryer.handling ≤ 100

/-- Every lot is balanced, and every layer, portion, manifest entry and bound ticket names a lot that is present (R20).
What keeps it so: a ticket is bound exactly in ASSIGNED and DUMPED and then holds a slot at its destination (R29, R74),
a ticket's reservation is of an open ticket bound there, and the handling shrink lies in its range. -/
structure AccountLaw (s : State) : Prop where
  lots : ∀ l ∈ s.lots, s.Balanced l
  layers : ∀ b, ∀ x ∈ (s.bin b).layers, (s.lot? x.lot).isSome = true
  portions : ∀ p ∈ s.portions, (s.lot? p.lot).isSome = true
  manifests : ∀ k, ∀ e ∈ (s.berth k).manifest, (s.lot? e.lot).isSome = true
  tickets : ∀ t ∈ s.tickets, ∀ a ∈ t.assignment, (s.lot? a.lot).isSome = true
  bound : ∀ t ∈ s.tickets, t.assignment.isSome = true ↔ t.state = .assigned ∨ t.state = .dumped
  reserved : ∀ t ∈ s.tickets, ∀ a ∈ t.assignment, ∃ h ∈ (s.bin a.dest).held (.ticket t.number), 1 ≤ h.slots
  holders : ∀ b, ∀ h ∈ (s.bin b).holders, ∀ n, h.who = .ticket n →
    ∃ t ∈ s.tickets, t.number = n ∧ t.assignment.map Assignment.dest = some b
  handling : s.settings.handlingFits ∧ s.bank0.image.handlingFits ∧ s.bank1.image.handlingFits ∧
    ∀ b g x, s.commit = .writing b g x → x.handlingFits

/-! ### Automatic assignment, as R73 and R75 say it -/

/-- A bin passes every bin check of R73 for a ticket's grade and estimate, asked for by a station. -/
structure State.TakesDump (s : State) (st : StationNo) (g : Grade) (kg : Nat) (b : BinNo) : Prop where
  kind : s.isWet g = isTank b
  hold : (s.bin b).hold = none
  restricted : (s.binSet b).restricted = true → (s.station st).cls = .supervisor
  owner : (s.bin b).fillOwner = .none ∨ (s.bin b).fillOwner = .intake
  identity : ∀ i, (s.bin b).identity = some i → i = { cls := g.cls, ip := g.ip }
  space : kg ≤ s.freeSpace b
  slot : 1 ≤ s.freeSlots b

/-- Of two bins that pass, automatic assignment takes `b` before `c` (R75): for wet grain the one with the larger free
space, and the lower number of two equal ones; for dry grain a bin of the ticket's class before an UNASSIGNED one, and
otherwise the lower number. -/
def State.dumpsBefore (s : State) (g : Grade) (b c : BinNo) : Prop :=
  if s.isWet g = true then s.freeSpace c < s.freeSpace b ∨ s.freeSpace c = s.freeSpace b ∧ b ≤ c
  else
    if (s.bin b).identity ≠ none then (s.bin c).identity = none ∨ b ≤ c
    else (s.bin c).identity = none ∧ b ≤ c

/-- The bin automatic assignment chooses: it passes, and it comes before every other that passes (R75). -/
def State.DumpChoice (s : State) (st : StationNo) (g : Grade) (kg : Nat) (b : BinNo) : Prop :=
  s.TakesDump st g kg b ∧ ∀ c, s.TakesDump st g kg c → s.dumpsBefore g b c

/-! ### A staged launch, as R108 to R113 and R155 say it -/

/-- Emergency stop does not stand in the way of a launch on a leg (R108). -/
def State.legOpen (s : State) (l : LegNo) : Prop := s.estop = false ∧ s.flag (flagStopped l) = false

/-- No bin the request names is under hold (R108). -/
def State.stagedUnheld (s : State) (x : Staging) : Prop :=
  (s.bin x.source).hold = none ∧ ∀ d, x.dest = .bin d → (s.bin d).hold = none

/-- No bin the request names is restricted to a station of another class (R25, R108). -/
def State.stagedPermitted (s : State) (x : Staging) : Prop :=
  (s.station x.owner).cls = .supervisor ∨
    (s.binSet x.source).restricted = false ∧ ∀ d, x.dest = .bin d → (s.binSet d).restricted = false

/-- The claims and reservations of the places the request names leave it free (R109, its BUSY cases). -/
def State.stagedFree (s : State) (x : Staging) : Prop :=
  (s.bin x.source).claim = none ∧
    match x.dest with
    | .bin d =>
      if d = x.source then (s.bin d).fillOwner = .none
      else (∀ id, (s.bin x.source).fillOwner ≠ .transfer id) ∧ (s.bin d).claim = none ∧ (s.bin d).fillOwner = .none
    | .berth k => (∀ id, (s.bin x.source).fillOwner ≠ .transfer id) ∧ (s.berth k).claim = none

/-- A berth the request names is READY (R109). -/
def State.stagedReady (s : State) (x : Staging) : Prop := ∀ k, x.dest = .berth k → (s.berth k).state = .ready

/-- The destination agrees with the source's identity: a bin as R26 says, a berth as R154 says (R110). -/
def State.stagedAgrees (s : State) (x : Staging) : Prop :=
  ∀ i, (s.bin x.source).identity = some i →
    (∀ d, x.dest = .bin d → (s.bin d).identity = none ∨ (s.bin d).identity = some i) ∧
    ∀ k, x.dest = .berth k →
      (∃ o, (s.berth k).order = some o ∧ o.cls = i.cls) ∧
      ∀ e ∈ (s.berth k).manifest,
        match i.ip with
        | some n => e.lot = n
        | none => ∀ m, s.lot? e.lot = some m → m.kind = .receiving

/-- The draw plan of the request (R111): a self-turn is bounded by the bin's contents; a berth bounds the request by the
least of its figures, and each layer by its own limits (R155). -/
def State.stagedPlan (s : State) (x : Staging) : Plan :=
  match x.dest with
  | .bin d => s.planBin x.source x.kg none (if d = x.source then some (s.bin d).contents else none) none
  | .berth k => s.planBin x.source (min x.kg (s.berth k).figures.least) none none (s.berth k).bound

/-- The target the request is granted: the plan's grant, cut to the free space of another bin (R112). -/
def State.stagedTarget (s : State) (x : Staging) : Nat :=
  match x.dest with
  | .bin d => if d = x.source then (s.stagedPlan x).granted else min (s.stagedPlan x).granted (s.freeSpace d)
  | .berth _ => (s.stagedPlan x).granted

/-- The slots the request needs at its destination: one for a self-turn, and otherwise as many as the target touches
layers (R112); none at a berth. -/
def State.stagedSlots (s : State) (x : Staging) : Nat :=
  match x.dest with
  | .bin d => if d = x.source then 1 else (drawLayers (s.bin x.source).layers (s.stagedTarget x)).1.length
  | .berth _ => 0

/-- Another bin has free space, and a bin has the slots (R112). -/
def State.stagedSpace (s : State) (x : Staging) : Prop := ∀ d, x.dest = .bin d → d ≠ x.source → s.freeSpace d ≠ 0
def State.stagedHasSlots (s : State) (x : Staging) : Prop := ∀ d, x.dest = .bin d → s.stagedSlots x ≤ s.freeSlots d

/-- The clamp flags of the launch: those of the plan's cause, of each figure equal to the least when a berth cut the
request, and of the space check (R35, R112, R155). -/
def State.stagedClamps (s : State) (x : Staging) : ClampFlags :=
  match x.dest with
  | .bin _ => { (s.stagedPlan x).cause.clamps with space := decide (s.stagedTarget x < (s.stagedPlan x).granted) }
  | .berth k =>
    let f := (s.berth k).figures
    if (s.stagedPlan x).cause = .met ∧ f.least < x.kg then
      { ClampFlags.none with
        draft := decide (f.draft = some f.least), position := decide (f.position = some f.least)
        order := decide (f.order = some f.least) }
    else (s.stagedPlan x).cause.clamps

/-- A launch takes the ACTIVE slot of a leg from the transfer in it (R113). -/
def Leg.givesWay (g : Leg) (attr : Attr) : Prop :=
  attr = .priority ∧ g.suspended = none ∧ ∃ a, g.active = some a ∧ a.attr = .yield

/-- A launch finds no slot on a leg (R113). -/
def Leg.full (g : Leg) (attr : Attr) : Prop := g.active ≠ none ∧ ¬ g.givesWay attr ∧ g.buffered ≠ none

/-! ### A pass of a schedule entry, as R138 and R140 say it -/

/-- What a pass asks for, as a staged request is read: the entry's source and destination, its quantity or the whole
source, and YIELD (R140). A pass has no owner, and the owner is read by the check of restricted bins alone, which is
not made for it. -/
def Entry.pass (s : State) (e : Entry) : Staging :=
  { owner := 0, source := e.source, dest := .bin e.dest
    kg := if e.kg = 0 then min (s.bin e.source).contents 4000000 else e.kg, attr := .yield }

/-- An entry that an examination finds ready to launch (R138). -/
def State.passDue (s : State) (e : Entry) : Prop :=
  e.state = .waiting ∧ s.conditionHolds e = true ∧ ((s.leg e.leg).active = none ∨ (s.leg e.leg).buffered = none)

/-- An entry has ended with a reason, which sets SCHEDULE_ENDED (R136). -/
def State.entryEnded (s : State) (n : EntryNo) (e : Entry) (reason : EntryEnd) : State :=
  (s.setEntry n (some { e with state := .ended, reason := some reason })).raise flagScheduleEnded

/-! ### What the end of transfers leaves alone (R122) -/

/-- The same grain in a bin: its layers, its hold and its temperature fields. -/
def Bin.sameGrain (x y : Bin) : Prop := y.layers = x.layers ∧ y.hold = x.hold

/-- The same cargo at a berth. -/
def Berth.sameCargo (x y : Berth) : Prop :=
  y.cargo = x.cargo ∧ y.manifest = x.manifest ∧ y.plan = x.plan ∧ y.order = x.order ∧ y.barge = x.barge

/-- No grain has moved, and the machine outside bins, legs, berths, entries, the dryer, the event flags and the id
counter stands as it stood. -/
structure NoGrainMoved (s t : State) : Prop where
  frame : t = { s with bins := t.bins, legs := t.legs, berths := t.berths, schedules := t.schedules
                       dryer := t.dryer, events := t.events, nextTransfer := t.nextTransfer }
  bins : ∀ b, (s.bin b).sameGrain (t.bin b)
  berths : ∀ k, (s.berth k).sameCargo (t.berth k)
  portions : t.portions = s.portions

/-- All the grain of the part in kilograms: in its bins, in the dryer's batch and in the barges at its berths. -/
def State.grain (s : State) : Nat :=
  (allBins.map fun b => (s.bin b).contents).sum + (s.portions.map Portion.kg).sum +
    (allBerths.map fun k => (s.berth k).cargo.q).sum

end Sys2Proof.Machine
end

