-- ==== Sys2Proof/Certificates/Slice0/Obligations.lean ====
section
/-! DEFINITION. The statements for the provers. -/

section

open Sys2Proof Sys2Proof.Machine

/-! ### The queue, reset and the laws -/

/-- A step runs the command at the front of the queue, with the queue's rest. -/
def Obligations.StepRunsTheFront : Prop :=
  ∀ (c : Instr) (rest : List Instr) (s : State), s.pending = c :: rest → step s = exec c { s with pending := rest }

/-- The model's choice (assumption log 12): on an empty queue one second passes. Terminal time always counts (R191);
with main power on the timebase counts, each running timer loses a second, a cleanout and the drying timer of a dryer
in DRYING among them, and no record changes otherwise. The expiries of the timers that this brings to 0, and of the
tickets whose age reaches the timeout, join the queue, in the order of log 12. -/
def Obligations.EmptyQueueLetsASecondPass : Prop :=
  ∀ s : State, s.pending = [] →
    let time := (s.terminalTime + 1) % 4294967296
    let less (timer : Option Nat) : Option Nat := timer.map (· - 1)
    let last (timer : Option Nat) : Bool := timer == some 1 || timer == some 0
    let cleans (t : Transfer) : Option Nat :=
      match t.state with
      | .cleanout n => some n
      | _ => none
    let dries := s.dryer.state = .drying ∧ s.dryer.drying.map DryingTimer.expired = some false
    (s.powered = false → step s = .next { s with terminalTime := time }) ∧
    (s.powered = true → step s = .next { s with
      timebase := s.timebase + 1
      terminalTime := time
      channels := s.channels.map fun c => { c with signal := less c.signal }
      bins := s.bins.map fun b => { b with temp := { b.temp with staleTimer := less b.temp.staleTimer } }
      dryer := { s.dryer with
        warmUp := less s.dryer.warmUp
        drying := if dries then s.dryer.drying.map fun d => { d with remaining := d.remaining - 1 } else s.dryer.drying }
      legs := s.legs.map fun g =>
        { g with active := g.active.map fun t => { t with state := ((cleans t).map fun n => .cleanout (n - 1)).getD t.state } }
      berths := s.berths.map fun b => { b with spoutTimer := less b.spoutTimer }
      river := { s.river with staleTimer := less s.river.staleTimer }
      pending :=
        (allChannels.filter fun c => last (s.channel c).signal).map .signalExpiry ++
        (s.tickets.filter fun t => decide ((s.settings.intake.ticketTimeout * 60 : Int) ≤ s.timebase + 1 - t.grossBase)).map
          (fun t => .ticketExpiry t.number) ++
        (if last s.dryer.warmUp = true then [.warmUpExpiry] else []) ++
        (if dries ∧ last (s.dryer.drying.map DryingTimer.remaining) = true then [.dryingTimerExpiry] else []) ++
        (allLegs.filter fun l => last ((s.leg l).active.bind cleans)).map .cleanoutExpiry ++
        (allBins.filter fun b => last (s.bin b).temp.staleTimer).map .staleExpiry ++
        (if last s.river.staleTimer = true then [.riverStaleExpiry] else []) ++
        (allBerths.filter fun k => last (s.berth k).spoutTimer).map .spoutTimerExpiry })

/-- The state right after reset keeps every law of the model. -/
def Obligations.ResetKeepsEveryLaw : Prop :=
  LayerLaw State.reset ∧ SlotLaw State.reset ∧ EstopLaw State.reset ∧ StationLaw State.reset ∧ PortLaw State.reset ∧
    TableLaw State.reset ∧ RegistryLaw State.reset ∧ DryerLaw State.reset ∧ ManifestLaw State.reset ∧ IdLaw State.reset ∧
    HoldLaw State.reset ∧ DischargeLaw State.reset ∧ BerthLaw State.reset ∧ AccountLaw State.reset

/-- Every step keeps the layer law (R28). -/
def Obligations.EveryStepKeepsTheLayerLaw : Prop := ∀ s t : State, LayerLaw s → step s = .next t → LayerLaw t

/-- Every step keeps the relation of a leg's slots (R103), no two live transfers under one id (R104), and no transfer
in any slot that names a bin under hold (R38). -/
def Obligations.EveryStepKeepsTheSlotRelation : Prop :=
  ∀ s t : State, step s = .next t →
    (SlotLaw s → SlotLaw t) ∧ (IdLaw s → IdLaw t) ∧ (HoldLaw s → HoldLaw t)

/-- Every step keeps the legs empty while ESTOP is asserted, and no leg then asserts LEG_RUN (R117). -/
def Obligations.EveryStepKeepsTheLegsEmptyUnderEstop : Prop :=
  ∀ s t : State, EstopLaw s → step s = .next t → EstopLaw t ∧ (t.estop = true → ∀ l, t.legRun l = false)

/-- Every step leaves station 0 SUPERVISOR and enabled (R180). -/
def Obligations.EveryStepKeepsStationZero : Prop := ∀ s t : State, StationLaw s → step s = .next t → StationLaw t

/-- Every step keeps the receiver CLOSED exactly while a response is being sent (R173, R174). -/
def Obligations.EveryStepKeepsThePortLaw : Prop := ∀ s t : State, PortLaw s → step s = .next t → PortLaw t

/-- Every step keeps the lot table and the ticket table in ascending order, with no number twice (R1, R4, R70), and so
keeps the vehicle registry: no tag twice, at most 64 entries and at most 32 open tickets, and the open ticket of an
entry in the ticket table (R68, R71). -/
def Obligations.EveryStepKeepsTheTablesInOrder : Prop :=
  ∀ s t : State, TableLaw s → step s = .next t → TableLaw t ∧ (RegistryLaw s → RegistryLaw t)

/-- Every step keeps the dryer's state and its batch in agreement with the state table of The Dryer, and its discharge
with the live transfer of origin DRYER, which the dryer has in DISCHARGING only (R92, R95). -/
def Obligations.EveryStepKeepsTheDryerLaw : Prop :=
  ∀ s t : State, DryerLaw s → step s = .next t → DryerLaw t ∧ (IdLaw s → DischargeLaw s → DischargeLaw t)

/-- Every step keeps each berth's cargo the sum of its manifest, with at most 16 entries and no lot twice. So it keeps
the cargo the sum of the positions' loaded kilograms, with every berth standing as it must (R151, R156, R158, R166) and
holding the id of the live transfer to it as its claim (R114), and every lot's accounts balanced: received is standing,
the losses, what was shipped and what was written off (R6), standing is the grain of its layers and portions (R10), and
its counts are those of the layers, portions, tickets and manifests that name it (R3, R5, R10, R11). -/
def Obligations.EveryStepKeepsTheManifestLaw : Prop :=
  ∀ s t : State, ManifestLaw s → step s = .next t →
    ManifestLaw t ∧ (IdLaw s → BerthLaw s → BerthLaw t) ∧
      (IdLaw s → BerthLaw s → TableLaw s → DryerLaw s → AccountLaw s → AccountLaw t)

/-- No command puts anything on the queue or takes anything from it. The queue is the model's own, and so is this
statement: assumption log 1 (DESIGN CHOICE), for every command, the starts and the loss of power among them. -/
def Obligations.NoCommandTouchesTheQueue : Prop :=
  ∀ (c : Instr) (s t : State), exec c s = .next t → t.pending = s.pending

/-- With main power off, every command but the return of main power changes nothing (R189, R192). -/
def Obligations.PowerOffIgnoresEveryCommand : Prop :=
  ∀ (c : Instr) (s : State), s.powered = false → (∀ p, c ≠ .mainPowerReturn p) → exec c s = .next s

/-! ### The port -/

/-- A frame of any code that fits is read back by a hunting receiver exactly as it was sent (R172, R173). -/
def Obligations.ReceiverReadsEveryFrameItIsSent : Prop :=
  ∀ (code : Byte) (f : Frame), f.fits = true → Receiver.feed .hunting (Sys2Proof.Machine.Frame.bytes code f) = (.closed, some (code, f))

/-- Each request that reaches an open port is answered once, with its own station, tag and code (R174). -/
def Obligations.EveryRequestIsAnsweredWithItsOwnTag : Prop :=
  ∀ (i : Instr) (k : RequestKind) (s : State), request? i = some k → s.listening = true →
    ∃ t r, exec i s = .next t ∧ t.receiver = .closed ∧ t.response = some r ∧
      r.station = k.frame.station ∧ r.tag = k.frame.tag ∧ r.code = k.code

/-- The first checks of R177: a disabled station is answered NOT_ENABLED before anything else is looked at, an unknown
code UNKNOWN_REQUEST, and a class that the request does not accept NOT_PERMITTED; none of them changes a record. -/
def Obligations.PortChecksComeInOrder : Prop :=
  (∀ (i : Instr) (k : RequestKind) (s : State), request? i = some k → s.listening = true →
    ((s.station k.frame.station).enabled = false → exec i s = answered k.code k.frame s ⟨.notEnabled, []⟩) ∧
    ((s.station k.frame.station).enabled = true → k.classes.accept (s.station k.frame.station).cls = false →
      exec i s = answered k.code k.frame s ⟨.notPermitted, []⟩)) ∧
  ∀ (code : Byte) (f : Frame) (s : State), isRequestCode code = false → s.listening = true →
    ((s.station f.station).enabled = false →
      exec (.unknownRequest code f) s = answered code f s ⟨.notEnabled, []⟩) ∧
    ((s.station f.station).enabled = true →
      exec (.unknownRequest code f) s = answered code f s ⟨.unknownRequest, []⟩)

/-- A request answered with a refusal changes no record, but for the four requests whose rules name a change
(The Request Port and Stations, "Status codes"). -/
def Obligations.RefusedRequestsChangeNothing : Prop :=
  ∀ (i : Instr) (k : RequestKind) (s t : State) (r : Response), request? i = some k →
    i ≠ .stageTransfer k.frame → i ≠ .launch k.frame → i ≠ .discharge k.frame → i ≠ .resumeDryer k.frame →
    exec i s = .next t → t.response = some r → 0x10 ≤ r.status.code.toNat → sameButPort s t

/-- The receiver's own commands (R173): a discarded frame is not answered and changes no state, a gap abandons the
frame in progress and its last byte is taken as a HUNTING byte, a CLOSED receiver discards everything it is sent, and
the end of a response opens the receiver. The first clause, on a request row given while the receiver is CLOSED, is the
model's reading (assumption log 16, DEDUCED), and that FRAME_DISCARDED feeds its bytes to the receiver is log 14
(DESIGN CHOICE). -/
def Obligations.ReceiverCommandsChangeOnlyTheReceiver : Prop :=
  (∀ (i : Instr) (k : RequestKind) (s : State), request? i = some k → s.receiver = .closed → exec i s = .next s) ∧
  (∀ (bytes : List Byte) (s : State), s.powered = true → s.receiver = .hunting → isDiscarded bytes = true →
    exec (.frameDiscarded bytes) s = .next s) ∧
  (∀ (bytes : List Byte) (s : State), s.powered = true → s.receiver = .closed →
    exec (.frameDiscarded bytes) s = .next s) ∧
  (∀ (b : Byte) (s : State) (collected : List Byte), s.powered = true → s.receiver = .inFrame collected →
    exec (.frameGapTimeout b) s = .next { s with receiver := if b = 0xC7#8 then .inFrame [] else .hunting }) ∧
  (∀ (b : Byte) (s : State), s.powered = true → s.receiver = .closed → exec (.frameGapTimeout b) s = .next s) ∧
  (∀ (p : Pins) (s : State), s.powered = true → s.response.isSome = true → s.resetPending = false →
    exec (.responseSent p) s = .next { s with receiver := .hunting, response := none })

/-! ### Reads -/

/-- Every read answers its fields and changes nothing (R18, R19, R43, R44, R69, R82, R101, R129, R144, R168, R179, R183,
R191). -/
def Obligations.ReadsAnswerAndChangeNothing : Prop :=
  ∀ (s : State) (f : Frame), Heard s f everyStation →
    (∀ n l, decodeOne 2 f.payload = some n → s.lot? n = some l →
      exec (.readLot f) s = answered 0x10#8 f s ⟨.ok, encodeLot l⟩) ∧
    (∀ q start, decodeFindLots f.payload = some (q, start) → q.inRange = true →
      exec (.findLots f) s = answered 0x11#8 f s
        ⟨.ok, listOf short ((s.matchingLots q start).take 8) ++ onOff (decide (8 < (s.matchingLots q start).length))⟩) ∧
    (∀ b : BinNo, decodeOne 1 f.payload = some b.val →
      exec (.readBin f) s = answered 0x20#8 f s ⟨.ok, encodeBin s b⟩) ∧
    (∀ (b : BinNo) (first : Nat), decodeTwo 1 1 f.payload = some (b.val, first) → 1 ≤ first →
      exec (.readLayers f) s = answered 0x21#8 f s
        ⟨.ok, small (s.bin b).layers.length ++ small (((s.bin b).layers.drop (first - 1)).take 16).length ++
          encodeLayers first (((s.bin b).layers.drop (first - 1)).take 16)⟩) ∧
    (∀ c : ChannelNo, decodeOne 1 f.payload = some c.val →
      exec (.readScale f) s = answered 0x3C#8 f s ⟨.ok, encodeScale (s.scaleSet c) (s.channel c)⟩) ∧
    (∀ tag v, decodeTag f.payload = some tag → s.vehicle? tag = some v →
      exec (.readVehicle f) s = answered 0x3D#8 f s ⟨.ok, encodeVehicle s v⟩) ∧
    (∀ n t, decodeOne 4 f.payload = some n → s.ticket? n = some t →
      exec (.readTicket f) s = answered 0x3E#8 f s ⟨.ok, encodeTicket s t⟩) ∧
    (∀ start, decodeOne 4 f.payload = some start → start ≤ 999999 →
      exec (.listTickets f) s = answered 0x3F#8 f s
        ⟨.ok, listOf (fun t : Ticket => long t.number ++ small t.state.code) ((s.ticketsAbove start).take 16) ++
          onOff (decide (16 < (s.ticketsAbove start).length))⟩) ∧
    (f.payload = [] → exec (.readIntakeStatus f) s = answered 0x40#8 f s ⟨.ok, encodeIntakeStatus s⟩) ∧
    (f.payload = [] → exec (.readDryer f) s = answered 0x52#8 f s ⟨.ok, encodeDryer s⟩) ∧
    (∀ l : LegNo, decodeOne 1 f.payload = some l.val →
      exec (.readLeg f) s = answered 0x68#8 f s ⟨.ok, encodeLeg s l⟩) ∧
    (f.payload = [] → exec (.readSchedules f) s = answered 0x74#8 f s ⟨.ok, encodeSchedules s⟩) ∧
    (∀ k : BerthNo, decodeOne 1 f.payload = some k.val →
      exec (.readBerth f) s = answered 0x8A#8 f s ⟨.ok, encodeBerth s k⟩) ∧
    (f.payload = [] → exec (.readRiver f) s = answered 0x8B#8 f s ⟨.ok, encodeRiver s⟩) ∧
    (f.payload = [] → exec (.readStations f) s = answered 0x90#8 f s ⟨.ok, encodeStations s⟩) ∧
    (f.payload = [] → exec (.readEvents f) s = answered 0x92#8 f s ⟨.ok, encodeEvents s⟩) ∧
    (f.payload = [] → exec (.readTime f) s = answered 0xA2#8 f s ⟨.ok, encodeTime s⟩)

/-! ### Lots -/

/-- Closing lots (R13, R14): number 0 closes every OPEN RECEIVING lot, any other number its own lot, and the count is
answered. Close IP Lot does the same to an IP lot. Both answer NO_SUCH, MISMATCH and STATE by the lot they find, and
nothing but the lots' states changes. That a CLOSED lot of the other kind is answered MISMATCH, and not STATE, is the
order of assumption log 5 (DEDUCED). -/
def Obligations.ClosingLots : Prop :=
  (∀ (s : State) (f : Frame), Heard s f onlySupervisor →
    (decodeOne 2 f.payload = some 0 →
      exec (.closeReceivingLot f) s = answered 0x12#8 f
        { s with lots := s.lots.map fun l =>
            if l.kind = .receiving ∧ l.state = .opened then { l with state := .closed } else l }
        ⟨.ok, small (s.lots.filter fun l => l.kind == .receiving && l.state == .opened).length⟩) ∧
    (∀ n, decodeOne 2 f.payload = some n → n ≠ 0 →
      exec (.closeReceivingLot f) s =
        match s.lot? n with
        | none => answered 0x12#8 f s ⟨.noSuch, []⟩
        | some l =>
          if l.kind = .ip then answered 0x12#8 f s ⟨.mismatch, []⟩
          else if l.state = .closed then answered 0x12#8 f s ⟨.state, []⟩
          else answered 0x12#8 f
            { s with lots := s.lots.map fun l => if l.no = n then { l with state := .closed } else l }
            ⟨.ok, small 1⟩)) ∧
  ∀ (s : State) (f : Frame) (n : Nat), Heard s f (supervisorOr [.grader]) → decodeOne 2 f.payload = some n →
    exec (.closeIpLot f) s =
      match s.lot? n with
      | none => answered 0x13#8 f s ⟨.noSuch, []⟩
      | some l =>
        if l.kind = .receiving then answered 0x13#8 f s ⟨.mismatch, []⟩
        else if l.state = .closed then answered 0x13#8 f s ⟨.state, []⟩
        else answered 0x13#8 f
          { s with lots := s.lots.map fun l => if l.no = n then { l with state := .closed } else l } ⟨.ok, []⟩

/-- Lot holds (R15): a hold replaces the one before it, and a grader sets and clears QUALITY only; a lot with no hold
is left as it is. Amend Lot writes the selected fields of an IP lot together (R17). Amend Lot's order NO_SUCH,
MISMATCH, FORMAT is that of assumption log 5 (DEDUCED). -/
def Obligations.LotHoldsAndAmendments : Prop :=
  (∀ (s : State) (f : Frame), Heard s f (supervisorOr [.grader]) →
    (decodeLotHold f.payload = none → exec (.setLotHold f) s = answered 0x14#8 f s ⟨.format, []⟩) ∧
    (∀ n h, decodeLotHold f.payload = some (n, h) →
      exec (.setLotHold f) s =
        if s.lot? n = none then answered 0x14#8 f s ⟨.noSuch, []⟩
        else if (s.station f.station).cls = .grader ∧ h ≠ .quality then answered 0x14#8 f s ⟨.notPermitted, []⟩
        else answered 0x14#8 f
          { s with lots := s.lots.map fun m => if m.no = n then { m with hold := some h } else m } ⟨.ok, []⟩) ∧
    (∀ n, decodeOne 2 f.payload = some n →
      exec (.clearLotHold f) s =
        match (s.lot? n).map Lot.hold with
        | none => answered 0x15#8 f s ⟨.noSuch, []⟩
        | some none => answered 0x15#8 f s ⟨.ok, []⟩
        | some (some h) =>
          if (s.station f.station).cls = .grader ∧ h ≠ .quality then answered 0x15#8 f s ⟨.notPermitted, []⟩
          else answered 0x15#8 f
            { s with lots := s.lots.map fun m => if m.no = n then { m with hold := none } else m } ⟨.ok, []⟩)) ∧
  ∀ (s : State) (f : Frame), Heard s f (supervisorOr [.grader]) →
    (decodeAmendLot f.payload = none → exec (.amendLot f) s = answered 0x16#8 f s ⟨.format, []⟩) ∧
    ∀ a, decodeAmendLot f.payload = some a →
      exec (.amendLot f) s =
        match (s.lot? a.lot).map Lot.kind with
        | none => answered 0x16#8 f s ⟨.noSuch, []⟩
        | some .receiving => answered 0x16#8 f s ⟨.mismatch, []⟩
        | some .ip =>
          if a.selector ≠ .contract ∧ 9999 < a.owner ∨
              a.selector ≠ .owner ∧ ¬ ∀ b ∈ a.contract, printable b = true then
            answered 0x16#8 f s ⟨.format, []⟩
          else answered 0x16#8 f
            { s with lots := s.lots.map fun m =>
                if m.no = a.lot then
                  { m with
                    owner := if a.selector = .contract then m.owner else if a.owner = 0 then none else some a.owner
                    contract := if a.selector = .owner then m.contract
                      else if a.contract.all (· == 0x20#8) then none else some a.contract }
                else m } ⟨.ok, []⟩

/-- A lot is retired exactly when it is CLOSED, stands at 0, is named by nothing and has no hold (R20). -/
def Obligations.RetireLotNeedsALotNothingNames : Prop :=
  ∀ (s : State) (f : Frame) (n : Nat), Heard s f onlySupervisor → decodeOne 2 f.payload = some n →
    exec (.retireLot f) s =
      match s.lot? n with
      | none => answered 0x17#8 f s ⟨.noSuch, []⟩
      | some l =>
        if l.state = .closed ∧ l.standing = 0 ∧ l.pendingTickets = 0 ∧ l.layerCount = 0 ∧ l.portionCount = 0 ∧
            l.manifestRefs = 0 ∧ l.hold = none then
          answered 0x17#8 f { s with lots := s.lots.filter fun m => m.no != n } ⟨.ok, []⟩
        else answered 0x17#8 f s ⟨.state, []⟩

/-! ### Bins -/

/-- Set Bin Settings writes the five values together and sets OVERFULL when the new capacity brings it about
(R23, R24). -/
def Obligations.SetBinSettingsWritesFiveValues : Prop :=
  ∀ (s : State) (f : Frame) (b : BinNo) (x : BinSettings), Heard s f onlySupervisor →
    decodeBinSettings f.payload = some (b.val, x) → capacityRange b x.capacity = true →
    temperatureRange x.hotLimit = true → temperatureRange x.riseLimit = true →
    (isTank b = true → x.autoTurn = false) → s.commit = .idle →
    exec (.setBinSettings f) s = answered 0x22#8 f
      ((s.setBinSet b x).raiseIf
        (decide ((s.bin b).contents ≤ (s.binSet b).capacity ∧ x.capacity < (s.bin b).contents)) flagOverfull) ⟨.ok, []⟩

/-- Set Bin Hold on a held bin replaces the reason (R37); on a bin that was not held it leaves no transfer, no
ASSIGNED ticket and no WAITING or LAUNCHED entry that names the bin, and moves no grain (R38, R39). -/
def Obligations.SetBinHoldClearsTheBinsWork : Prop :=
  ∀ (s : State) (f : Frame) (b : BinNo) (h : BinHold), Heard s f (supervisorOr [.grader]) →
    decodeBinHold f.payload = some (b.val, h) → ((s.station f.station).cls = .grader → h = .quality) →
    ((s.bin b).hold.isSome = true →
      exec (.setBinHold f) s =
        answered 0x23#8 f (s.setBin b { s.bin b with hold := some h }) ⟨.ok, small 0 ++ small 0⟩) ∧
    ((s.bin b).hold = none →
      ∃ t, exec (.setBinHold f) s =
          answered 0x23#8 f t ⟨.ok, small (s.namingBin b).length ++ small (s.assignedTo b).length⟩ ∧
        (t.bin b).hold = some h ∧ t.namingBin b = [] ∧ t.assignedTo b = [] ∧
        (∀ n e, t.entry n = some e → e.names b = true → e.state = .ended) ∧
        (∀ c, (t.bin c).layers = (s.bin c).layers) ∧ (∀ c, c ≠ b → (t.bin c).hold = (s.bin c).hold) ∧
        (∀ k, (s.berth k).sameCargo (t.berth k)) ∧ t.portions = s.portions ∧
        t = { s with bins := t.bins, lots := t.lots, tickets := t.tickets, legs := t.legs, berths := t.berths
                     schedules := t.schedules, dryer := t.dryer, events := t.events, nextTransfer := t.nextTransfer })

/-- Clear Bin Hold (R40, R93): a bin with no hold is left as it is, a grader clears QUALITY only, and the dryer that
waits for the bin with auto-discharge set tries its launch in the same step. -/
def Obligations.ClearBinHoldRemovesTheHold : Prop :=
  ∀ (s : State) (f : Frame) (b : BinNo), Heard s f (supervisorOr [.grader]) → decodeOne 1 f.payload = some b.val →
    exec (.clearBinHold f) s =
      match (s.bin b).hold with
      | none => answered 0x24#8 f s ⟨.ok, []⟩
      | some h =>
        if (s.station f.station).cls = .grader ∧ h ≠ .quality then answered 0x24#8 f s ⟨.notPermitted, []⟩
        else answered 0x24#8 f
          (if (s.dryer.batch.map Batch.dest) = some b ∧ s.dryer.state = .dischargeWait ∧ s.dryer.autoDischarge = true
           then (s.setBin b { s.bin b with hold := none }).tryDischarge.1
           else s.setBin b { s.bin b with hold := none }) ⟨.ok, []⟩

/-- Sweep Close is refused PROTECT for a held bin, and then BUSY for a bin with a fill owner or a claim (R41). -/
def Obligations.SweepCloseRefusalsInOrder : Prop :=
  ∀ (s : State) (f : Frame) (b : BinNo), Heard s f onlySupervisor → decodeOne 1 f.payload = some b.val →
    ((s.bin b).hold.isSome = true → exec (.sweepClose f) s = answered 0x25#8 f s ⟨.protect, []⟩) ∧
    ((s.bin b).hold = none → ((s.bin b).fillOwner ≠ .none ∨ (s.bin b).claim.isSome = true) →
      exec (.sweepClose f) s = answered 0x25#8 f s ⟨.busy, []⟩)

/-- Sweep Close writes every layer off to its lot and returns the bin to UNASSIGNED (R42). -/
def Obligations.SweepCloseWritesOffEveryLayer : Prop :=
  ∀ (s : State) (f : Frame) (b : BinNo), Heard s f onlySupervisor → decodeOne 1 f.payload = some b.val →
    (s.bin b).hold = none → (s.bin b).holders = [] → (s.bin b).claim = none →
    ∃ t, exec (.sweepClose f) s =
        answered 0x25#8 f t ⟨.ok, small (s.bin b).layers.length ++ mass (s.bin b).contents⟩ ∧
      t = { s with bins := t.bins, lots := t.lots } ∧
      t.bin b = { s.bin b with layers := [], identity := none } ∧ (∀ c, c ≠ b → t.bin c = s.bin c) ∧
      ∀ n, t.lot? n = (s.lot? n).map fun l =>
        let mine := (s.bin b).layers.filter fun x => x.lot == n
        { l with
          writtenOff := l.writtenOff + (mine.map Layer.kg).sum
          standing := l.standing - (mine.map Layer.kg).sum
          layerCount := l.layerCount - mine.length }

/-! ### Intake -/

/-- A sample is converted, kept in the window and judged (R51, R62, R63). -/
def Obligations.ScaleSampleIsConvertedAndJudged : Prop :=
  ∀ (s : State) (f : Frame) (c : ChannelNo) (x : Int), Heard s f (some [.scale]) →
    decodeScaleSample f.payload = some (c.val, x) →
    let set := s.scaleSet c
    let w := convert set.cal x
    let all := (s.channel c).window ++ [{ counts := x, weight := w }]
    let window := all.drop (all.length - set.n)
    let status : ChannelStatus :=
      if w > (set.cal.capacity : Int) + 9 * set.cal.division then .overload
      else if w < -(20 * (set.cal.division : Int)) then .underload
      else if window.length = set.n ∧
        ∀ a ∈ window, ∀ b ∈ window, a.weight - b.weight ≤ (set.band : Int) * set.cal.division then .stable
      else .motion
    exec (.scaleSample f) s =
      if set.cal.calibrated = false then answered 0x30#8 f s ⟨.uncal, []⟩
      else
        answered 0x30#8 f
          ((s.setChannel c { window := window, lastSample := some s.timebase, signal := some 3, status := status }).raiseIf
            (decide ((status = .overload ∨ status = .underload) ∧ status ≠ (s.channel c).status)) flagScaleFault)
          ⟨.ok, weight w ++ small status.code⟩

/-- A converted weight is a whole number of divisions, the nearest one to the raw product in milligrams, and of two
equally near ones the one further from zero (R50). -/
def Obligations.ConversionRoundsHalvesAwayFromZero : Prop :=
  ∀ (cal : Calibration) (c : Int), 0 < cal.division →
    ∃ n : Int, convert cal c = n * cal.division ∧
      let p := (c - cal.zero) * cal.span
      let unit : Int := 1000000 * cal.division
      2 * (p - n * unit).natAbs ≤ unit.natAbs ∧ (2 * (p - n * unit).natAbs = unit.natAbs → p.natAbs ≤ (n * unit).natAbs)

/-- The requests that set a channel up empty its window (R62, R65, R66), and so does its signal expiry, which leaves
NO_SIGNAL and stops the timer (R64). That a running signal timer means a sample within 3 seconds, which decides the
status after a set-up, is assumption log 23 (DEDUCED); that the signal expiry acts whatever seconds are left, and not
with the timer stopped, is log 13 (DESIGN CHOICE). -/
def Obligations.ChannelSetUpEmptiesTheWindow : Prop :=
  (∀ (s : State) (f : Frame) (c : ChannelNo) (q : Calibration), Heard s f onlySupervisor → s.commit = .idle →
    decodeCalibration f.payload = some (c.val, q) → 1 ≤ q.span → q.span ≤ 10000000 →
    q.division ∈ [1, 2, 5, 10, 20, 50] → 1000 ≤ q.capacity → q.capacity ≤ 120000 →
    exec (.setCalibration f) s = answered 0x31#8 f
      ((s.setScaleSet c { s.scaleSet c with cal := q }).setChannel c
        { s.channel c with
          window := [], status := if (s.channel c).signal.isSome = true then .motion else .noSignal }) ⟨.ok, []⟩) ∧
  (∀ (s : State) (f : Frame) (c : ChannelNo) (n band : Nat), Heard s f onlySupervisor → s.commit = .idle →
    decodeScaleParameters f.payload = some (c.val, n, band) → 3 ≤ n → n ≤ 16 → 1 ≤ band → band ≤ 5 →
    exec (.setScaleParameters f) s = answered 0x32#8 f
      ((s.setScaleSet c { s.scaleSet c with n := n, band := band }).setChannel c
        { s.channel c with
          window := []
          status := if (s.scaleSet c).cal.calibrated = false then (s.channel c).status
            else if (s.channel c).signal.isSome = true then .motion else .noSignal }) ⟨.ok, []⟩) ∧
  (∀ (s : State) (f : Frame) (c : ChannelNo), Heard s f (supervisorOr [.scale]) → decodeOne 1 f.payload = some c.val →
    let set := s.scaleSet c
    let x := s.channel c
    (set.cal.calibrated = false → exec (.zeroScale f) s = answered 0x33#8 f s ⟨.uncal, []⟩) ∧
    (set.cal.calibrated = true → x.status = .motion → exec (.zeroScale f) s = answered 0x33#8 f s ⟨.motion, []⟩) ∧
    (set.cal.calibrated = true → x.status ≠ .motion → x.status ≠ .stable →
      exec (.zeroScale f) s = answered 0x33#8 f s ⟨.state, []⟩) ∧
    (set.cal.calibrated = true → x.status = .stable → s.commit = .idle → ∀ last, x.window.getLast? = some last →
      50 * last.weight.natAbs ≤ set.cal.capacity →
      exec (.zeroScale f) s = answered 0x33#8 f
        ((s.setScaleSet c { set with cal := { set.cal with zero := newZero x.window } }).setChannel c
          { x with window := [], status := .motion }) ⟨.ok, counts (newZero x.window)⟩)) ∧
  ∀ (s : State) (c : ChannelNo), s.powered = true →
    ((s.channel c).signal.isSome = true →
      exec (.signalExpiry c) s = .next
        ((s.setChannel c { s.channel c with window := [], signal := none, status := .noSignal }).raise flagScaleFault)) ∧
    ((s.channel c).signal = none → exec (.signalExpiry c) s = .next s)

/-- An accepted Weigh In opens one ticket under a number no open ticket holds, registers its vehicle, and changes
nothing else (R67, R68, R70, R71). A registered vehicle keeps its place and takes the class of the request; a new one
joins at the end. A registry of 64 entries retires one first: the entry with no open ticket and the smallest last-seen
time, the earliest registered of those with the same time; it alone leaves (R68). -/
def Obligations.WeighInOpensATicket : Prop :=
  ∀ (s : State) (f : Frame) (c : ChannelNo) (tag : List Byte) (cls : Fin 4) (single : Bool) (w : Int),
    Heard s f (supervisorOr [.scale]) → decodeWeighIn f.payload = some ⟨c.val, tag, cls.val, single⟩ →
    (∀ b ∈ tag, printable b = true) → (∃ b ∈ tag, b ≠ 0x20#8) → (s.scaleSet c).cal.calibrated = true →
    (s.channel c).status = .stable → (s.channel c).window.getLast?.map Sample.weight = some w →
    ((s.scaleSet c).cal.division : Int) ≤ w → w ≤ (s.scaleSet c).cal.capacity →
    (∀ v, s.vehicle? tag = some v → v.openTicket = none) → s.tickets.length < 32 →
    let n := s.nextTicketNo
    let honoured := s.honoursSinglePass tag single
    let fresh : Vehicle := { tag := tag, cls := cls, tare := none, openTicket := some n, lastSeen := s.terminalTime }
    ∃ t, exec (.weighIn f) s = answered 0x34#8 f t ⟨.ok, long n ++ mass w.toNat ++ onOff honoured⟩ ∧
      s.ticket? n = none ∧
      t = { s with
        vehicles := t.vehicles
        nextTicket := if n < 999999 then n + 1 else 1
        tickets := insertTicket
          { number := n, tag := tag, scale := c, gross := w.toNat, grossTime := s.terminalTime, grossBase := s.timebase,
            singlePass := honoured, grade := none, assignment := none, state := .weighedIn } s.tickets } ∧
      t.vehicle? tag = some
        { tag := tag, cls := cls, tare := (s.vehicle? tag).bind Vehicle.tare, openTicket := some n
          lastSeen := s.terminalTime } ∧
      (∀ other, other ≠ tag → t.vehicle? other = s.vehicle? other ∨
        (t.vehicle? other = none ∧ s.vehicle? tag = none ∧ 64 ≤ s.vehicles.length ∧
          ∃ v ∈ s.vehicles, v.tag = other ∧ v.openTicket = none ∧
            ∀ u ∈ s.vehicles, u.openTicket = none → v.lastSeen ≤ u.lastSeen)) ∧
      (s.vehicle? tag ≠ none → t.vehicles = s.vehicles.map fun v =>
        if v.tag = tag then { v with cls := cls, openTicket := some n, lastSeen := s.terminalTime } else v) ∧
      (s.vehicle? tag = none → s.vehicles.length < 64 → t.vehicles = s.vehicles ++ [fresh]) ∧
      ∀ before v after, s.vehicle? tag = none → 64 ≤ s.vehicles.length → (s.vehicles.map Vehicle.tag).Nodup →
        s.vehicles = before ++ v :: after → v.openTicket = none →
        (∀ u ∈ before, u.openTicket = none → v.lastSeen < u.lastSeen) →
        (∀ u ∈ after, u.openTicket = none → v.lastSeen ≤ u.lastSeen) →
        t.vehicles = before ++ after ++ [fresh] ∧ t.vehicles.length = s.vehicles.length

/-- A Grade Report grades a ticket that is not yet assigned; its measurements are clamped (R48, R72). With automatic
assignment set the ticket is then assigned to the bin that R75 chooses (`State.DumpChoice`), or stays GRADED with the
code that refused it: the lot's, or NO_SPACE when no bin passes. -/
def Obligations.GradeReportGradesTheTicket : Prop :=
  ∀ (s : State) (f : Frame) (r : GradeReport) (t : Ticket) (c : GrainClass), Heard s f (supervisorOr [.grader]) →
    decodeGradeReport f.payload = some r → s.ticket? r.ticket = some t → classOf r.commodity r.grade = some c →
    let g : Grade :=
      { cls := c, moisture := min r.moisture 400, testWeight := min r.testWeight 1000, foreign := min r.foreign 250
        ip := if r.ip = 0 then none else some r.ip }
    let wet := onOff (decide (s.settings.intake.dryLimit.get c.commodity < min r.moisture 400))
    let u := { s with tickets := s.tickets.map fun x =>
                  if x.number = r.ticket then { x with state := .graded, grade := some g } else x }
    ((t.state = .assigned ∨ t.state = .dumped) → exec (.gradeReport f) s = answered 0x35#8 f s ⟨.state, []⟩) ∧
    ((t.state = .weighedIn ∨ t.state = .graded) →
      (s.settings.intake.autoAssign = false →
        exec (.gradeReport f) s = answered 0x35#8 f u ⟨.ok, wet ++ encodeAssigned none⟩) ∧
      (s.settings.intake.autoAssign = true →
        ((∀ b, ¬ u.TakesDump f.station g (u.estimate t) b) →
          exec (.gradeReport f) s =
            answered 0x35#8 f (u.raise flagNoSpace) ⟨.ok, wet ++ encodeAssigned (some (.error .noSpace))⟩) ∧
        ∀ b, u.DumpChoice f.station g (u.estimate t) b →
          match u.bindCheck g (u.estimate t) with
          | .refused code =>
            exec (.gradeReport f) s = answered 0x35#8 f u ⟨.ok, wet ++ encodeAssigned (some (.error code))⟩
          | bound =>
            exec (.gradeReport f) s =
              answered 0x35#8 f (u.assign t g b bound) ⟨.ok, wet ++ encodeAssigned (some (.ok (b, bound.lot)))⟩))

/-- Assign Dump, when every check of R73 passes, binds the ticket to its lot, reserves its estimate and one slot at
the bin, and changes nothing else (R1, R3, R4, R12, R29, R74). AUTO answers as naming the bin does that R75 chooses: a
bin that passes every bin check of R73, for wet grain the tank with the larger free space, tank 40 of two equal ones,
for dry grain the lowest storage bin of the ticket's class, and the lowest UNASSIGNED one when there is none. It answers
NO_SPACE when no bin passes. -/
def Obligations.AssignDumpBindsAndReserves : Prop :=
  ∀ (s : State) (f : Frame) (n : Nat) (t : Ticket) (g : Grade), Heard s f (supervisorOr [.grader, .scale]) →
    s.ticket? n = some t → t.state = .graded → t.grade = some g →
    let kg := s.estimate t
    (∀ (b : BinNo) (m : Nat) (bound : BindResult), decodeTwo 4 1 f.payload = some (n, b.val) →
      s.isWet g = isTank b → (s.bin b).hold = none →
      ((s.binSet b).restricted = true → (s.station f.station).cls = .supervisor) →
      ((s.bin b).fillOwner = .none ∨ (s.bin b).fillOwner = .intake) →
      (∀ i, (s.bin b).identity = some i → i = { cls := g.cls, ip := g.ip }) →
      kg ≤ s.freeSpace b → 1 ≤ s.freeSlots b → s.bindCheck g kg = bound →
      (bound = .found m ∨ bound = .created m .receiving ∨ bound = .created m .ip) →
      ∃ u, exec (.assignDump f) s = answered 0x36#8 f u ⟨.ok, small b.val ++ short m ++ mass kg⟩ ∧
        u = { s with
          lots := u.lots
          bins := u.bins
          lastLot := if bound = .created m .receiving then m else s.lastLot
          tickets := s.tickets.map fun x =>
            if x.number = n then { x with state := .assigned, assignment := some { dest := b, lot := m, estimate := kg } }
            else x } ∧
        u.bin b = { s.bin b with
          identity := some { cls := g.cls, ip := g.ip }
          holders := (s.bin b).holders ++ [{ who := .ticket n, kg := kg, slots := 1 }] } ∧
        (∀ c, c ≠ b → u.bin c = s.bin c) ∧ (∀ k, k ≠ m → u.lot? k = s.lot? k) ∧
        u.lot? m = Option.map (α := Lot) (β := Lot) (fun l =>
          { l with
            pendingTickets := l.pendingTickets + 1, pendingEstimate := l.pendingEstimate + kg
            state := if l.kind = .receiving ∧ s.settings.lotSize ≤ l.received + (l.pendingEstimate + kg) then .closed
              else l.state })
          (match bound with
            | .created _ kind => some (newLot m kind g.cls)
            | _ => s.lot? m)) ∧
    (decodeTwo 4 1 f.payload = some (n, 0xFF) →
      ((∀ b, ¬ s.TakesDump f.station g kg b) → exec (.assignDump f) s = answered 0x36#8 f s ⟨.noSpace, []⟩) ∧
      ∀ (b : BinNo) (named : Frame), s.DumpChoice f.station g kg b → named.station = f.station →
        named.tag = f.tag → decodeTwo 4 1 named.payload = some (n, b.val) →
        exec (.assignDump f) s = exec (.assignDump named) s) ∧
    ((∃ b, s.TakesDump f.station g kg b) → ∃ b, s.DumpChoice f.station g kg b)

/-- A dump makes an ASSIGNED ticket DUMPED, or closes it on the stored tare when it is single-pass (R76). A weigh-out
closes a DUMPED ticket, rejects one that is not dumped yet, and stores the tare of a vehicle with none (R69, R77). -/
def Obligations.DumpAndWeighOutSettleTickets : Prop :=
  (∀ (s : State) (f : Frame) (n : Nat) (t : Ticket), Heard s f (supervisorOr [.scale]) →
    decodeOne 4 f.payload = some n → s.ticket? n = some t →
    let u := { s with tickets := s.tickets.map fun x => if x.number = n then { x with state := .dumped } else x }
    let r := t.settled (s.storedTare t.tag) .stored .storedTare s.terminalTime
    (t.state ≠ .assigned → exec (.dumpReport f) s = answered 0x37#8 f s ⟨.state, []⟩) ∧
    (t.state = .assigned → t.singlePass = false → exec (.dumpReport f) s = answered 0x37#8 f u ⟨.ok, []⟩) ∧
    (t.state = .assigned → t.singlePass = true →
      exec (.dumpReport f) s = answered 0x37#8 f { u.closeTicket t (s.storedTare t.tag) with lastClosed := some r }
        ⟨.ok, encodeSettlement r⟩)) ∧
  ∀ (s : State) (f : Frame) (c : ChannelNo) (tag : List Byte) (v : Vehicle) (w : Int),
    Heard s f (supervisorOr [.scale]) → decodeWeighOut f.payload = some (c.val, tag) → s.vehicle? tag = some v →
    (s.scaleSet c).cal.calibrated = true → (s.channel c).status = .stable →
    (s.channel c).window.getLast?.map Sample.weight = some w → ((s.scaleSet c).cal.division : Int) ≤ w →
    w ≤ (s.scaleSet c).cal.capacity →
    let seen (u : State) : State := u.modVehicle tag fun x => { x with lastSeen := s.terminalTime }
    let tared (u : State) : State :=
      u.modVehicle tag fun x => { x with tare := some { kg := w.toNat, stamp := s.terminalTime } }
    ((v.openTicket.bind fun n => s.ticket? n) = none →
      exec (.weighOut f) s = answered 0x38#8 f (seen (tared s)) ⟨.tareOnly, []⟩) ∧
    ∀ t, (v.openTicket.bind fun n => s.ticket? n) = some t →
      let closed := t.settled w.toNat .weighed .normal s.terminalTime
      let rejected := t.voided .rejected s.terminalTime
      (t.state = .dumped →
        exec (.weighOut f) s = answered 0x38#8 f
          (seen (tared { s.closeTicket t w.toNat with lastClosed := some closed })) ⟨.ok, encodeSettlement closed⟩) ∧
      (t.state ≠ .dumped →
        exec (.weighOut f) s = answered 0x38#8 f (seen { s.voidTicket t with lastClosed := some rejected })
          ⟨.ok, encodeSettlement rejected⟩)

/-- The close of a ticket (R78). With a net above 0 it puts that net into the bin and into the lot's accounts, once
(R5, R7, R10, R31, R33). With a net of 0 or below nothing is deposited, the lot is credited with 0, and the record says
NEGATIVE_NET. In both cases the ticket's reservation is released, its binding ends and its vehicle is free. -/
def Obligations.ClosingATicketDepositsItsNet : Prop :=
  (∀ (s : State) (t : Ticket) (a : Assignment) (g : Grade) (l : Lot) (h : Holder) (tare : Nat),
    t.assignment = some a → t.grade = some g → s.lot? a.lot = some l →
    (s.bin a.dest).held (.ticket t.number) = some h → 1 ≤ h.slots → tare < t.gross →
    let net := t.gross - tare
    let u := s.closeTicket t tare
    u = { s with lots := u.lots, bins := u.bins, tickets := s.tickets.filter fun x => x.number != t.number
                 vehicles := s.vehicles.map fun v => if v.tag = t.tag then { v with openTicket := none } else v
                 events := u.events } ∧
      (u.bin a.dest).contents = (s.bin a.dest).contents + net ∧
      ((u.bin a.dest).layers.map fun x => x.kg * x.moisture).sum =
        ((s.bin a.dest).layers.map fun x => x.kg * x.moisture).sum + net * g.moisture ∧
      (u.bin a.dest).holders.map Holder.who =
        ((s.bin a.dest).holders.map Holder.who).filter (fun x => x != .ticket t.number) ∧
      (∀ c, c ≠ a.dest → u.bin c = s.bin c) ∧ (∀ k, k ≠ a.lot → u.lot? k = s.lot? k) ∧
      (∃ m, u.lot? a.lot = some m ∧ m.received = l.received + net ∧ m.standing = l.standing + net ∧
        m.intakeMoisture = l.intakeMoisture + net * g.moisture ∧ m.pendingTickets = l.pendingTickets - 1 ∧
        m.pendingEstimate = l.pendingEstimate - a.estimate ∧ m.ticketCount = l.ticketCount + 1 ∧
        m.layerCount + (s.bin a.dest).layers.length = l.layerCount + (u.bin a.dest).layers.length ∧
        m.lastTicket = some t.number ∧ m.hold = l.hold ∧ m.kind = l.kind ∧ m.cls = l.cls) ∧
      ((s.bin a.dest).hold.isSome = true → u.flag flagHeldDeposit = true) ∧
      ∀ source outcome now, t.settled tare source outcome now =
        { number := t.number, tag := t.tag, outcome := outcome, gross := t.gross, tare := some tare, source := some source
          net := some net, dest := some a.dest, lot := some a.lot, time := now }) ∧
  ∀ (s : State) (t : Ticket) (a : Assignment) (l : Lot) (tare : Nat),
    t.assignment = some a → s.lot? a.lot = some l → t.gross ≤ tare →
    let u := s.closeTicket t tare
    let left := (s.bin a.dest).holders.filter fun h => h.who != .ticket t.number
    u = { s with lots := u.lots, bins := u.bins, tickets := s.tickets.filter fun x => x.number != t.number
                 vehicles := s.vehicles.map fun v => if v.tag = t.tag then { v with openTicket := none } else v } ∧
      u.bin a.dest = { s.bin a.dest with
        holders := left
        identity := if (s.bin a.dest).layers = [] ∧ left = [] ∧ (s.bin a.dest).claim = none then none
          else (s.bin a.dest).identity } ∧
      (∀ c, c ≠ a.dest → u.bin c = s.bin c) ∧ (∀ k, k ≠ a.lot → u.lot? k = s.lot? k) ∧
      u.lot? a.lot = some { l with
        ticketCount := l.ticketCount + 1, firstTicket := some (l.firstTicket.getD t.number), lastTicket := some t.number
        pendingTickets := l.pendingTickets - 1, pendingEstimate := l.pendingEstimate - a.estimate
        state := if l.kind = .receiving ∧ s.settings.lotSize ≤ l.received + (l.pendingEstimate - a.estimate) then .closed
          else l.state } ∧
      ∀ source outcome now, t.settled tare source outcome now =
        { number := t.number, tag := t.tag, outcome := .negativeNet, gross := t.gross, tare := some tare
          source := some source, net := some 0, dest := some a.dest, lot := some a.lot, time := now }

/-- A void, an expiry and a forgetting (R69, R79, R80). The void of an ASSIGNED ticket releases its reservation and
ends its binding; that of a ticket with no assignment, in WEIGHED_IN or GRADED, takes it from the table, frees its
vehicle and does nothing else. An expiry closes a DUMPED ticket on the vehicle's tare and voids any other;
TICKET_EXPIRED is set. That the expiry row acts on an open ticket whatever its age, and does nothing for a number that
is not open, is assumption log 13 (DESIGN CHOICE); what a void record says of a ticket that a bin hold returned, and of
the tare source, is log 31 (DESIGN CHOICE). -/
def Obligations.TicketsAreVoidedAndVehiclesForgotten : Prop :=
  (∀ (s : State) (f : Frame) (n : Nat) (t : Ticket), Heard s f onlySupervisor → decodeOne 4 f.payload = some n →
    s.ticket? n = some t →
    let r := t.voided .voided s.terminalTime
    (t.state = .dumped → exec (.voidTicket f) s = answered 0x39#8 f s ⟨.state, []⟩) ∧
    (t.state ≠ .dumped →
      exec (.voidTicket f) s =
        answered 0x39#8 f { s.voidTicket t with lastClosed := some r } ⟨.ok, encodeSettlement r⟩)) ∧
  (∀ (s : State) (t : Ticket) (a : Assignment), t.assignment = some a →
    ∃ u, s.voidTicket t = u ∧
      u = { s with lots := u.lots, bins := u.bins, tickets := s.tickets.filter fun x => x.number != t.number
                   vehicles := s.vehicles.map fun v => if v.tag = t.tag then { v with openTicket := none } else v } ∧
      u.lot? a.lot = (s.lot? a.lot).map (fun l =>
        { l with pendingTickets := l.pendingTickets - 1, pendingEstimate := l.pendingEstimate - a.estimate }) ∧
      (u.bin a.dest).holders = (s.bin a.dest).holders.filter (fun h => h.who != .ticket t.number) ∧
      (∀ b, (u.bin b).layers = (s.bin b).layers) ∧ (∀ b, b ≠ a.dest → u.bin b = s.bin b) ∧
      (∀ k, k ≠ a.lot → u.lot? k = s.lot? k) ∧
      ∀ outcome now, t.voided outcome now =
        { number := t.number, tag := t.tag, outcome := outcome, gross := t.gross, tare := none, source := none
          net := none, dest := some a.dest, lot := some a.lot, time := now }) ∧
  (∀ (s : State) (t : Ticket), t.assignment = none →
    s.voidTicket t = { s with
      tickets := s.tickets.filter fun x => x.number != t.number
      vehicles := s.vehicles.map fun v => if v.tag = t.tag then { v with openTicket := none } else v } ∧
    ∀ outcome now, t.voided outcome now =
      { number := t.number, tag := t.tag, outcome := outcome, gross := t.gross, tare := none, source := none
        net := none, dest := none, lot := none, time := now }) ∧
  (∀ (s : State) (f : Frame) (tag : List Byte) (v : Vehicle), Heard s f onlySupervisor →
    decodeTag f.payload = some tag → s.vehicle? tag = some v →
    exec (.forgetVehicle f) s =
      if v.openTicket.isSome = true then answered 0x3A#8 f s ⟨.state, []⟩
      else answered 0x3A#8 f { s with vehicles := s.vehicles.filter fun w => w.tag != tag } ⟨.ok, []⟩) ∧
  ∀ (s : State) (n : Nat), s.powered = true →
    (s.ticket? n = none → exec (.ticketExpiry n) s = .next s) ∧
    ∀ t, s.ticket? n = some t →
      exec (.ticketExpiry n) s = .next (State.raise flagTicketExpired
        (if t.state = .dumped then
          { s.closeTicket t (s.tareNow t.tag).1 with
            lastExpired := some (t.settled (s.tareNow t.tag).1 (s.tareNow t.tag).2 .estimatedTare s.terminalTime) }
        else { s.voidTicket t with lastExpired := some (t.voided .expired s.terminalTime) }))

/-- The settings requests write their one setting in the working copy and nothing else (R81, R100, R128, R135); a new
ticket timeout leaves no ticket past it (R79). While a commit writes they are BUSY (R189). -/
def Obligations.SettingsRequestsWriteTheWorkingCopy : Prop :=
  (∀ (s : State) (f : Frame) (x : IntakeSetting), Heard s f onlySupervisor → decodeIntakeSetting f.payload = some x →
    x.inRange = true →
    let u := { s with settings := { s.settings with intake := s.settings.intake.apply x } }
    (s.commit ≠ .idle → exec (.setIntakeSettings f) s = answered 0x3B#8 f s ⟨.busy, []⟩) ∧
    (s.commit = .idle → (∀ m, x ≠ .ticketTimeout m) → exec (.setIntakeSettings f) s = answered 0x3B#8 f u ⟨.ok, []⟩) ∧
    (s.commit = .idle → ∀ m, x = .ticketTimeout m →
      ∃ t, exec (.setIntakeSettings f) s = answered 0x3B#8 f t ⟨.ok, []⟩ ∧ t.settings = u.settings ∧
        (∀ k ∈ t.tickets, t.ticketAge k < m * 60) ∧ ((∀ k ∈ s.tickets, s.ticketAge k < m * 60) → t = u))) ∧
  (∀ (s : State) (f : Frame) (x : DryerSetting), Heard s f onlySupervisor → decodeDryerSetting f.payload = some x →
    x.inRange = true →
    exec (.setDryerSettings f) s =
      if s.commit = .idle then
        answered 0x51#8 f { s with settings := { s.settings with dryer := s.settings.dryer.apply x } } ⟨.ok, []⟩
      else answered 0x51#8 f s ⟨.busy, []⟩) ∧
  (∀ (s : State) (f : Frame) (l : LegNo) (n : Nat), Heard s f onlySupervisor →
    decodeTwo 1 4 f.payload = some (l.val, n) → n ≤ 900 →
    exec (.setLegSettings f) s =
      if s.commit = .idle then
        answered 0x67#8 f { s with settings := { s.settings with cleanout := s.settings.cleanout.set l.val n l.isLt } }
          ⟨.ok, []⟩
      else answered 0x67#8 f s ⟨.busy, []⟩) ∧
  ∀ (s : State) (f : Frame) (x : RotationSetting), Heard s f onlySupervisor →
    decodeRotationSetting f.payload = some x → x.inRange = true →
    exec (.setRotationSettings f) s =
      if s.commit = .idle then
        answered 0x73#8 f { s with settings := { s.settings with rotation := s.settings.rotation.apply x } } ⟨.ok, []⟩
      else answered 0x73#8 f s ⟨.busy, []⟩

/-! ### The dryer -/

/-- The requests that start, stop, suspend, resume and clear the dryer, by its state, and its two timers (R85, R86, R87,
R90, R96, R97, R98, R99). While ESTOP stays asserted a start is refused in every state, with a stop pending too. Each
changes the dryer record only, but for the flags DRYER_READY and DRY_TIMEOUT. That the two expiries act whatever seconds
are left, and not with the timer stopped or in another state, is assumption log 13 (DESIGN CHOICE). -/
def Obligations.DryerRequestsFollowTheStateTable : Prop :=
  (∀ (s : State) (f : Frame), Heard s f (supervisorOr [.dryer]) → f.payload = [] →
    let d := s.dryer
    let busy := d.state = .drying ∨ d.state = .dischargeWait ∨ d.state = .discharging
    (exec (.startDryer f) s =
      if s.estop = true then answered 0x48#8 f s ⟨.state, []⟩
      else if d.state = .off ∧ d.batch = none then
        answered 0x48#8 f { s with dryer := { d with
          state := .warming, returnMark := false, warmUp := some s.settings.dryer.warmUp } } ⟨.ok, []⟩
      else if busy ∧ d.stopPending = true then
        answered 0x48#8 f { s with dryer := { d with stopPending := false } } ⟨.ok, []⟩
      else answered 0x48#8 f s ⟨.state, []⟩) ∧
    (exec (.stopDryer f) s =
      if d.state = .off then answered 0x49#8 f s ⟨.ok, []⟩
      else if d.state = .ready then answered 0x49#8 f { s with dryer := { d with state := .off } } ⟨.ok, []⟩
      else if d.state = .warming ∧ d.returnMark = false then
        answered 0x49#8 f { s with dryer := { d with state := .off, warmUp := none } } ⟨.ok, []⟩
      else if busy then answered 0x49#8 f { s with dryer := { d with stopPending := true } } ⟨.ok, []⟩
      else answered 0x49#8 f s ⟨.state, []⟩) ∧
    (exec (.suspendDryer f) s =
      if d.state = .drying then answered 0x4D#8 f { s with dryer := { d with state := .suspended } } ⟨.ok, []⟩
      else answered 0x4D#8 f s ⟨.state, []⟩) ∧
    (∀ b, d.batch = some b → b.phase = .wet →
      exec (.resumeDryer f) s =
        if d.state = .suspended ∧ s.estop = false then
          answered 0x4E#8 f { s with dryer := { d with
            state := .warming, returnMark := true, warmUp := some s.settings.dryer.warmUp } } ⟨.ok, []⟩
        else answered 0x4E#8 f s ⟨.state, []⟩)) ∧
  (∀ (s : State) (f : Frame), Heard s f onlySupervisor → f.payload = [] →
    exec (.clearDryerFault f) s =
      if s.dryer.state ≠ .fault then answered 0x50#8 f s ⟨.state, []⟩
      else if s.dryer.batch = none then
        answered 0x50#8 f { s with dryer := { s.dryer with state := .off, stopPending := false } } ⟨.ok, []⟩
      else answered 0x50#8 f { s with dryer := { s.dryer with state := .suspended } } ⟨.ok, []⟩) ∧
  ∀ s : State, s.powered = true →
    (exec .warmUpExpiry s = .next
      (if s.dryer.state = .warming ∧ s.dryer.warmUp ≠ none then
        if s.dryer.returnMark = true then
          { s with dryer := { s.dryer with state := .drying, returnMark := false, warmUp := none } }
        else { s with dryer := { s.dryer with state := .ready, warmUp := none } }.raise flagDryerReady
      else s)) ∧
    ∀ timer, s.dryer.drying = some timer →
      exec .dryingTimerExpiry s = .next
        (if s.dryer.state = .drying ∧ timer.expired = false then
          { s with dryer := { s.dryer with drying := some { remaining := 0, expired := true } } }.raise flagDryTimeout
        else s)

/-- A charge that passes every check of R88 draws its plan from the tank, reserves the dry estimate at the
destination, and sets the dryer drying the pieces (R10, R29, R36, R54, R89). The premise is the layer law. -/
def Obligations.ChargeDrawsThePlanAndReserves : Prop :=
  ∀ (s : State) (f : Frame) (c : Charge) (tank dest : BinNo) (i : Identity), LayerLaw s →
    Heard s f (supervisorOr [.dryer]) → decodeCharge f.payload = some c → c.tank = tank.val → c.dest = dest.val →
    1 ≤ c.kg → c.kg ≤ 4000000 → 80 ≤ c.target → c.target ≤ 250 → s.dryer.state = .ready →
    isTank tank = true → isTank dest = false → (s.bin tank).hold = none → (s.bin dest).hold = none →
    ((s.binSet tank).restricted = true ∨ (s.binSet dest).restricted = true →
      (s.station f.station).cls = .supervisor) →
    (s.bin tank).claim = none → (s.bin dest).holders = [] → (s.bin tank).identity = some i →
    ((s.bin dest).identity = none ∨ (s.bin dest).identity = some i) →
    let plan := s.chargePlan tank c.kg
    let need := dryEstimate s.settings.dryer c.target plan.pieces
    1000 ≤ plan.granted → need ≤ s.freeSpace dest → plan.touched ≤ s.freeSlots dest →
    ∃ t, exec (.chargeBatch f) s = answered 0x4A#8 f t
        (if plan.granted = c.kg then ⟨.ok, mass plan.granted ++ small plan.touched ++ mass need⟩
        else ⟨.clamped, mass plan.granted ++ small plan.touched ++ mass need ++ small plan.cause.chargeCode⟩) ∧
      t = { s with
        lots := t.lots, bins := t.bins
        dryer := { s.dryer with
          state := .drying
          drying := some { remaining := s.settings.dryer.maxDrying, expired := false }
          batch := some
            { tank := tank, dest := dest, identity := i, target := c.target, phase := .wet, wetTotal := plan.granted,
              dryEstimate := need, outlet := none, portions := plan.pieces } } } ∧
      (t.bin tank).contents + plan.granted = (s.bin tank).contents ∧
      t.bin dest = { s.bin dest with
        identity := some i, holders := [{ who := .batch, kg := need, slots := plan.touched }] } ∧
      (∀ b, b ≠ tank → b ≠ dest → t.bin b = s.bin b) ∧
      ∀ n, t.lot? n = (s.lot? n).map fun l =>
        { l with
          layerCount := l.layerCount - (((s.bin tank).layers.take
            ((s.bin tank).layers.length - (t.bin tank).layers.length)).filter fun x => x.lot == n).length
          portionCount := l.portionCount + (plan.pieces.filter fun p => p.lot == n).length }

/-- A dried batch: every portion is shrunk, its losses are posted to its lot, portions dried to nothing leave, the
batch is DRIED and waits with auto-discharge set, and its discharge is tried (R8, R52, R53, R91, R93). -/
def Obligations.BatchDriedShrinksEveryPortion : Prop :=
  ∀ (s : State) (f : Frame) (reading : Nat) (b : Batch), Heard s f (some [.dryer]) →
    decodeOne 2 f.payload = some reading → s.dryer.state = .drying → s.dryer.batch = some b →
    let set := s.settings.dryer
    let reported := min reading 400
    let outlet := if reported < set.floor then set.floor else reported
    let shrunk (p : Portion) : Shrink := shrink p.kg p.moisture outlet set.handling
    let u := s.dryBatch b reported
    let o := u.tryDischarge
    exec (.batchDried f) s = answered 0x4B#8 f o.1
        ⟨.ok, short outlet ++ mass (b.portions.map fun p => (shrunk p).dry).sum ++
          mass (b.portions.map fun p => (shrunk p).water).sum ++ mass (b.portions.map fun p => (shrunk p).handling).sum ++
          listOf (fun p : Portion => short p.lot ++ mass (shrunk p).dry) b.portions ++ encodeOutcome o.2⟩ ∧
      u = { s with
        lots := u.lots, events := u.events
        dryer := { s.dryer with
          state := .dischargeWait, autoDischarge := true, drying := none
          batch := some { b with
            phase := .dried, outlet := some outlet
            portions := (b.portions.map fun p =>
              { p with kg := (shrunk p).dry, moisture := (shrunk p).moisture }).filter fun p => p.kg != 0 } } } ∧
      (∀ n, u.lot? n = (s.lot? n).map fun l =>
        let mine := b.portions.filter fun p => p.lot == n
        { l with
          waterLoss := l.waterLoss + (mine.map fun p => (shrunk p).water).sum
          handlingLoss := l.handlingLoss + (mine.map fun p => (shrunk p).handling).sum
          standing := l.standing - (mine.map fun p => (shrunk p).water + (shrunk p).handling).sum
          portionCount := l.portionCount - (mine.filter fun p => (shrunk p).dry == 0).length }) ∧
      u.flag flagBatchDried = true ∧ (b.target + set.tolerance < reported → u.flag flagUnderdried = true) ∧
      (reported < set.floor → u.flag flagMoistClamp = true)

/-- A discharge, asked for while the batch waits, is launched at once on the discharge leg: the batch's reservation is
handed to the transfer, which takes the ACTIVE slot when it is empty, and the dryer is DISCHARGING (R31, R92, R93,
R114, R116). Refused, it leaves the dryer waiting with auto-discharge set. A DRIED batch found in OFF or SUSPENDED is put
back to wait first (R93, R97). -/
def Obligations.DischargeHandsTheReservationOver : Prop :=
  ∀ (s : State) (f : Frame) (b : Batch), Heard s f (supervisorOr [.dryer]) → f.payload = [] →
    s.dryer.state = .dischargeWait → s.dryer.batch = some b →
    let l := s.settings.dryer.dischargeLeg
    let u := { s with dryer := { s.dryer with autoDischarge := true } }
    (exec (.discharge f) s = answered 0x4C#8 f u.tryDischarge.1 (dischargeAnswer u.tryDischarge.2)) ∧
    (∀ code limit, u.tryDischarge.2 = .refused code limit →
      exec (.discharge f) s =
        answered 0x4C#8 f (if code = .protect then u.raise flagDischargeHeld else u) ⟨code, []⟩) ∧
    (s.estop = false → s.flag (flagStopped l) = false → (s.bin b.dest).hold = none → (s.bin b.dest).claim = none →
      (s.bin b.dest).fillOwner = .dryer → ((s.bin b.dest).identity = none ∨ (s.bin b.dest).identity = some b.identity) →
      (b.portions.map Portion.kg).sum ≠ 0 → (s.leg l).active = none →
      ∃ t x, exec (.discharge f) s = answered 0x4C#8 f t ⟨.ok, short s.nextId⟩ ∧
        t = { s with
          bins := t.bins, legs := t.legs, nextTransfer := if s.nextId < 65535 then s.nextId + 1 else 1
          dryer := { s.dryer with autoDischarge := true, state := .discharging, discharge := some s.nextId } } ∧
        (t.leg l).active = some x ∧ x.id = s.nextId ∧ x.source = .dryer ∧ x.dest = .bin b.dest ∧ x.origin = .dryer ∧
        x.target = (b.portions.map Portion.kg).sum ∧ x.delivered = 0 ∧ x.overrun = 0 ∧
        t.bin b.dest = { s.bin b.dest with
          holders := (s.bin b.dest).holders.map fun h =>
            if h.who = .batch then { h with who := .transfer s.nextId } else h } ∧
        (∀ c, c ≠ b.dest → t.bin c = s.bin c) ∧ ∀ m, m ≠ l → t.leg m = s.leg m) ∧
    ∀ back : State,
      (back = { s with dryer := { s.dryer with state := .suspended } } → b.phase = .dried → s.estop = false →
        exec (.resumeDryer f) back = answered 0x4E#8 f u.tryDischarge.1 (dischargeAnswer u.tryDischarge.2)) ∧
      (back = { s with dryer := { s.dryer with state := .off } } →
        let v := { s with dryer := { s.dryer with autoDischarge := true, stopPending := true } }
        exec (.discharge f) back = answered 0x4C#8 f v.tryDischarge.1 (dischargeAnswer v.tryDischarge.2))

/-- A dryer fault: refused in OFF, only the flag in FAULT, and FAULT from every other state, with the batch kept where
it stands, the warm-up stopped and no grain moved (R98). With no discharge live nothing else changes. A live discharge
ends with ABORTED: no slot holds a transfer of the dryer after it, the batch keeps its portions and gets back what the
transfer still held reserved (R95), and a batch all discharged is done. The premises of that clause are laws a step
keeps. -/
def Obligations.DryerFaultKeepsTheGrain : Prop :=
  ∀ (s : State) (f : Frame), Heard s f (supervisorOr [.dryer]) → f.payload = [] →
    (s.dryer.state = .off → exec (.dryerFault f) s = answered 0x4F#8 f s ⟨.state, []⟩) ∧
    (s.dryer.state = .fault → exec (.dryerFault f) s = answered 0x4F#8 f (s.raise flagDryerFault) ⟨.ok, []⟩) ∧
    (s.dryer.state ≠ .off → s.dryer.state ≠ .fault →
      let faulted : Dryer := { s.dryer with state := .fault, warmUp := none, returnMark := false, autoDischarge := false }
      ∃ t, exec (.dryerFault f) s = answered 0x4F#8 f t ⟨.ok, []⟩ ∧ NoGrainMoved s t ∧ t.flag flagDryerFault = true ∧
        t.dryer.state = .fault ∧ t.dryer.warmUp = none ∧ t.dryer.returnMark = false ∧ t.dryer.autoDischarge = false ∧
        (s.dryer.discharge = none → t = { s with dryer := faulted }.raise flagDryerFault) ∧
        (IdLaw s → DischargeLaw s → ∀ id b, s.dryer.discharge = some id → s.dryer.batch = some b →
          (∀ y ∈ t.live, y.origin ≠ .dryer) ∧
          (∀ l k x, (s.leg l).slot k = some x → x.id = id → t.flag (flagAbnormalEnd l) = true) ∧
          (b.portions ≠ [] → t.dryer = { faulted with discharge := none } ∧
            ((s.bin b.dest).holders ≠ [] →
              (t.bin b.dest).holders = (s.bin b.dest).holders.map fun h =>
                if h.who = .transfer id then { h with who := .batch } else h)) ∧
          (b.portions = [] → t.dryer = { faulted with discharge := none, batch := none } ∧
            t.flag flagDischargeDone = true ∧ ∀ h ∈ (t.bin b.dest).holders, h.who ≠ .batch)))

/-- The shrink of a portion within the ranges of R53: its figures are those of the rule's table, and dry kilograms,
water loss and handling loss add back to the wet kilograms. -/
def Obligations.ShrinkLosesNoKilogram : Prop :=
  ∀ w inlet outlet h : Nat, inlet ≤ 400 → h ≤ 100 →
    let x := shrink w inlet outlet h
    let me := if outlet < inlet then outlet else inlet
    let d1 := w * (1000 - inlet) / (1000 - me)
    x.moisture = me ∧ x.handling = (d1 * h + 5000) / 10000 ∧ x.dry + x.handling = d1 ∧ x.water + d1 = w ∧
      x.dry + x.water + x.handling = w

/-! ### Legs and transfers -/

/-- Staging, withdrawing, clearing leg flags, marking a leg clean, and the cleanout expiry (R105, R106, R116, R126,
R127). A malformed request sets SEQUENCE and is not staged. That the cleanout expiry acts whatever seconds are left,
and not with no cleanout running, is assumption log 13 (DESIGN CHOICE). -/
def Obligations.StagingAndLegUpkeep : Prop :=
  (∀ (s : State) (f : Frame) (r : StageRequest) (l : LegNo), Heard s f (supervisorOr [.loadout]) →
    decodeStage f.payload = some r → r.leg = l.val → 1 ≤ r.kg → r.kg ≤ 4000000 →
    r.source.noSuch = false → r.dest.noSuch = false →
    (s.flag (flagProtect l) = true ∨ s.flag (flagSequence l) = true →
      exec (.stageTransfer f) s = answered 0x60#8 f s ⟨.sequence, []⟩) ∧
    (s.flag (flagProtect l) = false → s.flag (flagSequence l) = false →
      (∀ x, (s.leg l).staging = some x → x.owner ≠ f.station →
        exec (.stageTransfer f) s = answered 0x60#8 f s ⟨.busy, []⟩) ∧
      ((∀ x, (s.leg l).staging = some x → x.owner = f.station) →
        (∀ a b, r.source.sourceBin? = some a → r.dest.dest? = some b →
          exec (.stageTransfer f) s = answered 0x60#8 f
            (s.setLeg l { s.leg l with
              staging := some { owner := f.station, source := a, dest := b, kg := r.kg, attr := r.attr } }) ⟨.ok, []⟩) ∧
        (r.source.sourceBin? = none ∨ r.dest.dest? = none →
          exec (.stageTransfer f) s = answered 0x60#8 f (s.raise (flagSequence l)) ⟨.sequence, []⟩)))) ∧
  (∀ (s : State) (f : Frame) (l : LegNo), Heard s f (supervisorOr [.loadout]) → decodeOne 1 f.payload = some l.val →
    (exec (.withdrawStaging f) s =
      if (∃ x, (s.leg l).staging = some x ∧ x.owner ≠ f.station) ∧ (s.station f.station).cls ≠ .supervisor then
        answered 0x62#8 f s ⟨.notOwner, []⟩
      else answered 0x62#8 f (s.setLeg l { s.leg l with staging := none }) ⟨.ok, []⟩) ∧
    (s.estop = true → exec (.clearLegFlags f) s = answered 0x65#8 f s ⟨.state, []⟩) ∧
    (s.estop = false →
      ∃ t, exec (.clearLegFlags f) s = answered 0x65#8 f t ⟨.ok, []⟩ ∧ t = { s with events := t.events } ∧
        t.flag (flagProtect l) = false ∧ t.flag (flagSequence l) = false ∧ t.flag (flagStopped l) = false ∧
        ∀ g, g ≠ flagProtect l → g ≠ flagSequence l → g ≠ flagStopped l → t.flag g = s.flag g)) ∧
  (∀ (s : State) (f : Frame) (l : LegNo), Heard s f onlySupervisor → decodeOne 1 f.payload = some l.val →
    exec (.markLegClean f) s =
      if (s.leg l).active = none ∧ (s.leg l).buffered = none ∧ (s.leg l).suspended = none then
        answered 0x66#8 f (s.setLeg l { s.leg l with lastCarried := .clean }) ⟨.ok, []⟩
      else answered 0x66#8 f s ⟨.busy, []⟩) ∧
  ∀ (s : State) (l : LegNo), s.powered = true →
    (∀ t n, (s.leg l).active = some t → t.state = .cleanout n →
      exec (.cleanoutExpiry l) s = .next (s.setLeg l { s.leg l with
        active := some { t with state := .running }, lastCarried := .carried t.identity })) ∧
    ((∀ t n, (s.leg l).active = some t → t.state ≠ .cleanout n) → exec (.cleanoutExpiry l) s = .next s)

/-- A staged transfer launched by its owner with every check passed: the id, the claims, the reservation, the slot, the
cleanout and the answer (R29, R32, R104, R107 to R116, R155, R156). Nothing else changes. It is said first for two
different bins and a leg whose ACTIVE slot is empty, and then for every request: to another bin, to its own bin (a
self-turn, with 0 kg and one slot reserved) or to a berth, which takes the id as its claim; placed in an empty ACTIVE
slot, in BUFFERED, or in ACTIVE in place of a YIELD transfer that moves to SUSPENDED and leaves its berth READY or
ASSIGNED (R113). That the berth does so follows R156, which differs from R113 (assumption log 32, DEDUCED), and that a
cleanout time of 0 gives RUNNING in the same step is log 33 (DEDUCED). -/
def Obligations.LaunchCommitsABinTransfer : Prop :=
  (∀ (s : State) (f : Frame) (l : LegNo) (a d : BinNo) (kg : Nat) (attr : Attr) (i : Identity),
      Heard s f (supervisorOr [.loadout]) → decodeOne 1 f.payload = some l.val → a ≠ d →
      (s.leg l).staging = some { owner := f.station, source := a, dest := .bin d, kg := kg, attr := attr } →
      s.flag (flagProtect l) = false → s.flag (flagSequence l) = false → s.flag (flagStopped l) = false →
      s.estop = false → (s.bin a).hold = none → (s.bin d).hold = none →
      ((s.binSet a).restricted = true ∨ (s.binSet d).restricted = true → (s.station f.station).cls = .supervisor) →
      (s.bin a).claim = none → (∀ x, (s.bin a).fillOwner ≠ .transfer x) → (s.bin d).claim = none →
      (s.bin d).holders = [] → (s.bin a).identity = some i →
      ((s.bin d).identity = none ∨ (s.bin d).identity = some i) → (s.leg l).active = none →
      let plan := s.planBin a kg none none none
      let cut := min plan.granted (s.freeSpace d)
      let need := (drawLayers (s.bin a).layers cut).1.length
      1 ≤ cut → need ≤ s.freeSlots d →
      let clean := (s.leg l).lastCarried.admits i = true ∨ s.settings.cleanout.get l = 0
      let x : Transfer :=
        { id := s.nextId, origin := .station f.station, source := .bin a, dest := .bin d, target := cut, delivered := 0,
          overrun := 0, identity := i, attr := attr
          state := if clean then .running else .cleanout (s.settings.cleanout.get l)
          clamps := { plan.cause.clamps with space := decide (cut < plan.granted) }, originalRemaining := none }
      ∃ t, exec (.launch f) s = answered 0x61#8 f t
          ⟨if cut = kg then .ok else .clamped,
            short x.id ++ mass cut ++ flagSet x.clamps.bits ++ small 0 ++ small x.state.code⟩ ∧
        t = { s with
          bins := t.bins, legs := t.legs, nextTransfer := if s.nextId < 65535 then s.nextId + 1 else 1 } ∧
        t.leg l = { s.leg l with
          active := some x, staging := none, lastCarried := if clean then .carried i else (s.leg l).lastCarried } ∧
        t.bin a = { s.bin a with claim := some x.id } ∧
        t.bin d = { s.bin d with identity := some i, holders := [{ who := .transfer x.id, kg := cut, slots := need }] } ∧
        (∀ b, b ≠ a → b ≠ d → t.bin b = s.bin b) ∧ ∀ m, m ≠ l → t.leg m = s.leg m) ∧
  ∀ (s : State) (f : Frame) (l : LegNo) (q : Staging) (i : Identity), Heard s f (supervisorOr [.loadout]) →
    decodeOne 1 f.payload = some l.val → (s.leg l).staging = some q → q.owner = f.station →
    s.flag (flagProtect l) = false → s.flag (flagSequence l) = false → s.legOpen l → s.stagedUnheld q →
    s.stagedPermitted q → s.stagedFree q → s.stagedReady q → s.stagedAgrees q → (s.bin q.source).identity = some i →
    (s.stagedPlan q).granted ≠ 0 → s.stagedSpace q → s.stagedHasSlots q →
    let turn := q.dest = .bin q.source
    let clean := (s.leg l).lastCarried.admits i = true ∨ s.settings.cleanout.get l = 0
    let waiting : Transfer :=
      { id := s.nextId, origin := .station f.station, source := .bin q.source, dest := q.dest
        target := s.stagedTarget q, delivered := 0, overrun := 0, identity := i, attr := q.attr, state := .buffered
        clamps := s.stagedClamps q, originalRemaining := if turn then some (s.bin q.source).contents else none }
    let started : Transfer :=
      { waiting with state := if clean then .running else .cleanout (s.settings.cleanout.get l) }
    let carried := if clean then .carried i else (s.leg l).lastCarried
    let placed (t : State) (slot : Slot) (x : Transfer) : Prop :=
      exec (.launch f) s = answered 0x61#8 f t
        ⟨if x.target = q.kg then .ok else .clamped,
          short x.id ++ mass x.target ++ flagSet x.clamps.bits ++ small slot.code ++ small x.state.code⟩ ∧
      t = { s with
        bins := t.bins, legs := t.legs, berths := t.berths
        nextTransfer := if s.nextId < 65535 then s.nextId + 1 else 1 } ∧
      (∀ m, m ≠ l → t.leg m = s.leg m) ∧
      t.bin q.source = { s.bin q.source with
        claim := some x.id
        holders := if turn then [{ who := .transfer x.id, kg := 0, slots := 1 }] else (s.bin q.source).holders } ∧
      (∀ d, q.dest = .bin d → d ≠ q.source → t.bin d = { s.bin d with
        identity := some i, holders := [{ who := .transfer x.id, kg := x.target, slots := s.stagedSlots q }] }) ∧
      ∀ b, b ≠ q.source → q.dest ≠ .bin b → t.bin b = s.bin b
    let claimed (k : BerthNo) (entered : Bool) (b : Berth) : Berth :=
      if q.dest = .berth k then
        { b with claim := some s.nextId, state := if entered = true then .loading else b.state }
      else b
    ((s.leg l).active = none →
      ∃ t, placed t .active started ∧
        t.leg l = { s.leg l with active := some started, staging := none, lastCarried := carried } ∧
        ∀ k, t.berth k = claimed k true (s.berth k)) ∧
    ((s.leg l).active ≠ none → ¬ (s.leg l).givesWay q.attr → (s.leg l).buffered = none →
      ∃ t, placed t .buffered waiting ∧ t.leg l = { s.leg l with buffered := some waiting, staging := none } ∧
        ∀ k, t.berth k = claimed k false (s.berth k)) ∧
    ∀ a, (s.leg l).active = some a → (s.leg l).givesWay q.attr →
      ∃ t, placed t .active started ∧
        t.leg l = { s.leg l with
          active := some started, suspended := some { a with state := .suspended }, staging := none
          lastCarried := carried } ∧
        ∀ k, t.berth k = claimed k true
          (if a.dest = .berth k then
            { s.berth k with
              state := if (s.berth k).barge ≠ none ∧ (s.berth k).readyConditions = true then .ready else .assigned }
          else s.berth k)

/-- The refusals of a launch: R107's own, and then those of R108 to R113 and R155 in their order, each with the limit it
names. A refusal leaves every record and the staged request; a launch with nothing staged sets the leg's SEQUENCE flag,
and PROTECT, from a hold or from a held lot, sets its PROTECT flag (R107). -/
def Obligations.LaunchRefusalsComeInOrder : Prop :=
  ∀ (s : State) (f : Frame) (l : LegNo), Heard s f (supervisorOr [.loadout]) → decodeOne 1 f.payload = some l.val →
    let refused (code : Status) (payload : List Byte) : Prop := exec (.launch f) s = answered 0x61#8 f s ⟨code, payload⟩
    let locked (payload : List Byte) : Prop :=
      exec (.launch f) s = answered 0x61#8 f (s.raise (flagProtect l)) ⟨.protect, payload⟩
    let limit (m : Limit) : List Byte := small m.code
    ((s.leg l).staging = none →
      exec (.launch f) s = answered 0x61#8 f (s.raise (flagSequence l)) ⟨.sequence, []⟩) ∧
    ∀ x, (s.leg l).staging = some x →
      (x.owner ≠ f.station → refused .notOwner []) ∧
      (x.owner = f.station → s.flag (flagProtect l) = true ∨ s.flag (flagSequence l) = true → refused .sequence []) ∧
      (x.owner = f.station → s.flag (flagProtect l) = false → s.flag (flagSequence l) = false →
        let plan := s.stagedPlan x
        (¬ s.legOpen l → refused .state []) ∧
        (s.legOpen l → ¬ s.stagedUnheld x → locked []) ∧
        (s.legOpen l → s.stagedUnheld x → ¬ s.stagedPermitted x → refused .notPermitted []) ∧
        (s.legOpen l → s.stagedUnheld x → s.stagedPermitted x →
          (¬ s.stagedFree x → refused .busy []) ∧
          (s.stagedFree x → ¬ s.stagedReady x → refused .state []) ∧
          (s.stagedFree x → s.stagedReady x → ¬ s.stagedAgrees x → refused .mismatch []) ∧
          (s.stagedFree x → s.stagedReady x → s.stagedAgrees x →
            (plan.granted = 0 →
              match plan.cause with
              | .heldLot => locked (limit .hold)
              | .spec => refused .spec (limit .spec)
              | .manifest => refused .noSpace (limit .manifest)
              | .met | .layerCap | .sourceEnd | .boundary => refused .noSpace (limit .source)) ∧
            (plan.granted ≠ 0 →
              (¬ s.stagedSpace x → refused .noSpace (limit .space)) ∧
              (s.stagedSpace x → ¬ s.stagedHasSlots x → refused .noSpace (limit .slots)) ∧
              (s.stagedSpace x → s.stagedHasSlots x → (s.leg l).full x.attr → refused .full [])))))

/-- A flow report moves grain from the source to the destination and no kilogram is lost or made: the answer counts
what moved and what did not, a bin source supplies all it can while the destination's slots last, and SOURCE_SHORT is
set when it cannot supply the report (R118 to R121). Into a berth, the pieces drawn from the bottom of the bin are
posted to the cargo, to the manifest, each lot in one entry, to the current position and to the lots' shipped, standing
and manifest references (R9, R11, R157); POSITION_FULL is set when the position fills, and a cargo past the load limit
sets over limit and OVERDRAFT, and halts a berth whose transfer the report has not already ended (R158). -/
def Obligations.FlowReportMovesWithoutLoss : Prop :=
  ∀ (s : State) (f : Frame) (l : LegNo) (kg : Nat) (t : Transfer), LayerLaw s →
    Heard s f (some [.loadout, .dryer]) → decodeTwo 1 4 f.payload = some (l.val, kg) → 1 ≤ kg → kg ≤ 65535 →
    (s.leg l).active = some t → t.state = .running →
    ∃ (u : State) (moved : Nat) (reason : Option EndReason),
      exec (.flowReport f) s = answered 0x63#8 f u
        ⟨.ok, short t.id ++ mass moved ++ mass (kg - moved) ++ mass (t.delivered + moved) ++
          mass (t.overrun + (kg - moved)) ++ mass t.target ++ optional 1 (fun e : EndReason => small e.code) reason⟩ ∧
      moved ≤ kg ∧ moved ≤ s.supply t ∧ u.grain = s.grain ∧
      (t.target ≤ t.delivered + moved → reason = some .complete) ∧ (reason = some .complete → t.target ≤ t.delivered + moved) ∧
      (s.supply t < kg → u.flag flagSourceShort = true) ∧
      (∀ a d h, t.source = .bin a → t.dest = .bin d → a ≠ d → (s.bin d).held (.transfer t.id) = some h →
        (s.bin a).layers.length ≤ h.slots → t.originalRemaining = none →
        moved = min kg (s.bin a).contents ∧ (u.bin a).contents + moved = (s.bin a).contents ∧
          (u.bin d).contents = (s.bin d).contents + moved) ∧
      (∀ k, t.dest = .berth k → (u.berth k).cargo.q = (s.berth k).cargo.q + moved) ∧
      ∀ a k, t.source = .bin a → t.dest = .berth k → t.originalRemaining = none →
        let old := s.berth k
        let drawn := (drawLayers (s.bin a).layers moved).1
        let taken (n : Nat) : List Portion := drawn.filter fun p => p.lot == n
        let past := old.loadLimit < old.cargo.q + moved
        (old.manifest.length + (s.bin a).layers.length ≤ 16 → moved = min kg (s.bin a).contents) ∧
        (u.bin a).contents + moved = (s.bin a).contents ∧
        (u.berth k).cargo =
          { q := old.cargo.q + moved, s := old.cargo.s + (drawn.map fun p => p.kg * p.moisture).sum
            t := old.cargo.t + (drawn.map fun p => p.kg * p.testWeight).sum } ∧
        (∃ new, (u.berth k).manifest.map Manifested.lot = old.manifest.map Manifested.lot ++ new ∧ new.Nodup ∧
          ∀ n, n ∈ new ↔ n ∈ drawn.map Portion.lot ∧ n ∉ old.manifest.map Manifested.lot) ∧
        ((old.manifest.map Manifested.lot).Nodup → ∀ n,
          (((u.berth k).manifest.filter fun e => e.lot == n).map Manifested.kg).sum =
            ((old.manifest.filter fun e => e.lot == n).map Manifested.kg).sum + ((taken n).map Portion.kg).sum) ∧
        (∀ ps n, old.plan = some ps → old.current = some (n + 1) →
          (u.berth k).plan = some (ps.modify n fun p => { p with loaded := p.loaded + moved })) ∧
        (∀ n, u.lot? n = (s.lot? n).map fun m =>
          { m with
            shipped := m.shipped + ((taken n).map Portion.kg).sum
            standing := m.standing - ((taken n).map Portion.kg).sum
            layerCount := m.layerCount - (((s.bin a).layers.take
              ((s.bin a).layers.length - (u.bin a).layers.length)).filter fun x => x.lot == n).length
            manifestRefs := m.manifestRefs +
              (if taken n ≠ [] ∧ n ∉ old.manifest.map Manifested.lot then 1 else 0) }) ∧
        (u.flag (flagPositionFull k) = true ↔ s.flag (flagPositionFull k) = true ∨
          ∃ p, old.currentPosition = some p ∧ p.loaded < p.planned ∧ p.planned ≤ p.loaded + moved) ∧
        (past → (u.berth k).overLimit = true ∧ (old.overLimit = false → u.flag (flagOverdraft k) = true)) ∧
        (¬ past → (u.berth k).overLimit = old.overLimit ∧ reason ≠ some .overdraft) ∧
        (past → reason ≠ some .complete → reason ≠ some .sourceEmpty →
          reason = some .overdraft ∧ (u.berth k).state = .halted .overdraft)

/-- The end of a transfer: it leaves its slot with its summary written, its claims and reservation go, its bins keep
their grain, and ABNORMAL_END is set for every reason but COMPLETE (R122). An abort ends the transfer in the slot it
names, and moves no grain (R124); with no schedule entry waiting and no discharge to try, only the slots pass on after
it. The slots pass on as R123 says: a leg left empty sets ALL_DONE; SUSPENDED before BUFFERED, a transfer to a bin
enters the ACTIVE slot as it is, and one to a berth is planned again against the berth (R115, R155): it enters with its
new target and flags and the berth is LOADING (R156), or ends with BERTH_HALT or SPEC, and the slots pass on again. That
a cleanout time of 0 gives RUNNING in the same step is assumption log 33 (DEDUCED). -/
def Obligations.EndOfATransferReleasesWhatItHeld : Prop :=
  (∀ (s : State) (l : LegNo) (k : Slot) (t : Transfer) (reason : EndReason), (s.leg l).slot k = some t →
    let u := s.endSlot l k reason
    NoGrainMoved s u ∧ (u.leg l).slot k = none ∧
      (u.leg l).lastEnded = some
        { id := t.id, reason := reason, delivered := t.delivered, overrun := t.overrun, clamps := t.clamps } ∧
      (∀ j, j ≠ k → (u.leg l).slot j = (s.leg l).slot j) ∧ (∀ m, m ≠ l → u.leg m = s.leg m) ∧
      (∀ b, t.source = .bin b → (u.bin b).claim ≠ some t.id) ∧
      (∀ b, t.dest = .berth b → (u.berth b).claim ≠ some t.id) ∧
      (∀ b, t.dest = .bin b → ∀ h ∈ (u.bin b).holders, h.who ≠ .transfer t.id) ∧
      (reason ≠ .complete → u.flag (flagAbnormalEnd l) = true)) ∧
  (∀ (s : State) (f : Frame) (l : LegNo) (k : Slot), Heard s f (supervisorOr [.loadout]) →
    decodeAbort f.payload = some (l.val, k) →
    ((s.leg l).slot k = none → exec (.abortTransfer f) s = answered 0x64#8 f s ⟨.noSuch, []⟩) ∧
    ∀ t, (s.leg l).slot k = some t →
      let u := s.endTransfers [{ leg := l, slot := k, reason := .aborted }]
      exec (.abortTransfer f) s = answered 0x64#8 f u
        ⟨.ok, short t.id ++ small 2 ++ mass t.delivered ++ mass t.overrun ++ flagSet t.clamps.bits⟩ ∧
      NoGrainMoved s u ∧ u.flag (flagAbnormalEnd l) = true ∧
        (s.dryer.autoDischarge = false → (∀ n e, s.entry n = some e → e.state ≠ .waiting) →
          u = (s.endSlot l k .aborted).settleLeg l)) ∧
  ∀ (s : State) (l : LegNo),
    let g := s.leg l
    ((s.leg l).active ≠ none → s.settleLeg l = s) ∧
    (g.active = none → g.suspended = none → g.buffered = none → s.settleLeg l = s.raise (flagAllDone l)) ∧
    ∀ x, g.active = none → (g.suspended = some x ∨ g.suspended = none ∧ g.buffered = some x) →
      let left : Leg := if g.suspended = none then { g with buffered := none } else { g with suspended := none }
      let clean := g.lastCarried.admits x.identity = true ∨ s.settings.cleanout.get l = 0
      let entered (y : Transfer) : State := s.setLeg l { left with
        active := some { y with state := if clean then .running else .cleanout (s.settings.cleanout.get l) }
        lastCarried := if clean then .carried x.identity else g.lastCarried }
      let turnedAway (reason : EndReason) : Prop :=
        s.settleLeg l = ((s.setLeg l { left with active := some x }).endSlot l .active reason).settleLeg l
      (∀ b, x.dest = .bin b → s.settleLeg l = entered x) ∧
      ∀ k, x.dest = .berth k →
        ((s.berth k).state ≠ .ready → turnedAway .berthHalt) ∧
        ((s.berth k).state = .ready → ∀ a, x.source = .bin a →
          let asked := x.target - x.delivered
          let figures := (s.berth k).figures
          let plan := s.planBin a (min asked figures.least) none none (s.berth k).bound
          let flags :=
            if plan.cause = .met ∧ figures.least < asked then
              { ClampFlags.none with
                draft := decide (figures.draft = some figures.least)
                position := decide (figures.position = some figures.least)
                order := decide (figures.order = some figures.least) }
            else plan.cause.clamps
          (plan.granted = 0 → turnedAway .spec) ∧
          (plan.granted ≠ 0 →
            s.settleLeg l = (entered { x with target := x.delivered + plan.granted, clamps := x.clamps.union flags }).setBerth
              k { s.berth k with state := .loading }))

/-! ### Bin temperature and schedules -/

/-- A temperature report stores the reading, keeps the first one as baseline, judges HOT with the 20 tenths between
setting and clearing, and makes the bin FRESH (R48, R132, R133, R134). A bin that becomes HOT sets BIN_HOT, and with
auto-turn on, no hold and no WAITING or LAUNCHED entry that names it, the lowest entry that is free or ENDED with no
pass in flight is filled for it (R143); a change of the hot or stale state is followed by an examination (R138). A stale
expiry makes the bin STALE, stops its timer and is followed by one too (R134). Neither moves grain. That the stale
expiry acts whatever seconds are left, and not with the timer stopped, is assumption log 13 (DESIGN CHOICE), and that
HOT and STALE are sent as 1 is log 4 (DESIGN CHOICE). -/
def Obligations.TemperatureReportsJudgeTheBin : Prop :=
  (∀ (s : State) (f : Frame) (b : BinNo) (z : Int), Heard s f (supervisorOr [.scanner]) →
    decodeTemperature f.payload = some (b.val, z) →
    let reading : Int := max (-400) (min z 800)
    let old := (s.bin b).temp
    let baseline := old.baseline.getD reading
    let limits := s.binSet b
    let hot : Bool :=
      if old.hot = true then
        !decide (reading ≤ limits.hotLimit - 20 ∧ reading - baseline < limits.riseLimit - 20)
      else decide (limits.hotLimit ≤ reading ∨ limits.riseLimit ≤ reading - baseline)
    let temp : TempFields :=
      { old with
        lastReading := some reading, readingTime := some s.terminalTime, baseline := some baseline, hot := hot
        stale := false, staleTimer := some s.settings.rotation.staleTime }
    let u := s.setBin b { s.bin b with temp := temp }
    let heated := u.raise flagBinHot
    let turned : Entry :=
      { source := b, dest := b, leg := s.settings.rotation.autoTurnLeg, kg := 0, remaining := some 1, done := 0
        condition := .ifHotRebase, state := .waiting, reason := none, inFlight := none, origin := .auto }
    let open? (n : EntryNo) : Prop := ∀ e, s.entry n = some e → e.state = .ended ∧ e.inFlight = none
    let served := ∃ n e, s.entry n = some e ∧ (e.source = b ∨ e.dest = b) ∧ (e.state = .waiting ∨ e.state = .launched)
    let turns := limits.autoTurn = true ∧ (s.bin b).hold = none ∧ ¬ served
    ∃ t, exec (.temperatureReport f) s = answered 0x70#8 f t
        ⟨.ok, onOff hot ++ onOff false ++ degrees (reading - baseline)⟩ ∧
      NoGrainMoved s t ∧ (t.bin b).temp = temp ∧ (∀ c, c ≠ b → (t.bin c).temp = (s.bin c).temp) ∧
      (old.hot = hot → old.stale = false → t = u) ∧ (old.hot = hot → old.stale = true → t = u.examine) ∧
      (old.hot = true → hot = false → t = u.examine) ∧
      (old.hot = false → hot = true → t.flag flagBinHot = true ∧
        (¬ turns → t = heated.examine) ∧ (turns → (∀ n, ¬ open? n) → t = heated.examine) ∧
        ∀ n, turns → open? n → (∀ m, m < n → ¬ open? m) → t = (heated.setEntry n (some turned)).examine)) ∧
  ∀ (s : State) (b : BinNo), s.powered = true →
    ((s.bin b).temp.staleTimer = none → exec (.staleExpiry b) s = .next s) ∧
    ((s.bin b).temp.staleTimer ≠ none →
      ∃ t, exec (.staleExpiry b) s = .next t ∧ NoGrainMoved s t ∧ t.flag flagTempStale = true ∧
        (t.bin b).temp = { (s.bin b).temp with stale := true, staleTimer := none } ∧
        (∀ c, c ≠ b → (t.bin c).temp = (s.bin c).temp) ∧
        t = State.examine ((s.setBin b { s.bin b with
          temp := { (s.bin b).temp with stale := true, staleTimer := none } }).raise flagTempStale))

/-- Set Schedule fills an entry that is free, or ENDED with no pass in flight, and the schedules are examined
(R137, R138). End Schedule ends an entry that has not ended, and aborts its pass when that is asked for (R142). Neither
moves grain. An examination takes the entries from 0 to 7; a WAITING entry whose condition holds and whose leg has
BUFFER_FREE asks for its pass, and is LAUNCHED with the pass's id, stays WAITING at BUSY, or has ended with the reason
that R140 gives (R138, R140). The end of a pass takes the in-flight id from its entry: a COMPLETE one is counted, stamps
a self-turned bin and rebases it for IF_HOT_REBASE, and the entry waits again or is DONE; RESET makes it wait again, and
any other reason ends it (R141). That a pass with a cleanout time of 0 is RUNNING in the step that places it is
assumption log 33 (DEDUCED). -/
def Obligations.SchedulesAreSetAndEnded : Prop :=
  (∀ (s : State) (f : Frame) (r : ScheduleRequest) (n : EntryNo) (a b : BinNo) (l : LegNo), Heard s f onlySupervisor →
    decodeSchedule f.payload = some r → r.entry = n.val → r.source = a.val → r.dest = b.val → r.leg = l.val →
    r.kg ≤ 4000000 → (∀ days, r.condition = .ifAge days → 1 ≤ days ∧ days ≤ 365) →
    let filled : Entry :=
      { source := a, dest := b, leg := l, kg := r.kg, remaining := (if r.passes = 0 then none else some r.passes)
        done := 0, condition := r.condition, state := .waiting, reason := none, inFlight := none, origin := .set }
    let u := s.setEntry n (some filled)
    (isTank b = true → exec (.setSchedule f) s = answered 0x71#8 f s ⟨.mismatch, []⟩) ∧
    (isTank b = false → (∀ e, s.entry n = some e → e.state = .ended ∧ e.inFlight = none) →
      (s.bin a).hold = none → (s.bin b).hold = none →
      exec (.setSchedule f) s = answered 0x71#8 f u.examine ⟨.ok, []⟩ ∧ NoGrainMoved s u.examine ∧
        (u.conditionHolds filled = false → (∀ m e, m ≠ n → s.entry m = some e → e.state ≠ .waiting) → u.examine = u))) ∧
  (∀ (s : State) (f : Frame) (n : EntryNo) (abort : Bool), Heard s f onlySupervisor →
    decodeEndSchedule f.payload = some (n.val, abort) →
    (s.entry n = none → exec (.endSchedule f) s = answered 0x72#8 f s ⟨.noSuch, []⟩) ∧
    ∀ e, s.entry n = some e →
      let u := if e.state = .ended then s
        else (s.setEntry n (some { e with state := .ended, reason := some .ended })).raise flagScheduleEnded
      (abort = false → exec (.endSchedule f) s = answered 0x72#8 f u ⟨.ok, []⟩) ∧
      (abort = true → e.inFlight = none → exec (.endSchedule f) s = answered 0x72#8 f u ⟨.ok, []⟩) ∧
      (abort = true → ∀ id, e.inFlight = some id →
        let t := u.endTransfers (u.victims (fun x => x.id == id) .aborted)
        exec (.endSchedule f) s = answered 0x72#8 f t ⟨.ok, []⟩ ∧ NoGrainMoved s t)) ∧
  (∀ s : State, s.examine = [0, 1, 2, 3, 4, 5, 6, 7].foldl State.examineEntry s) ∧
  (∀ (s : State) (n : EntryNo),
    (s.entry n = none → s.examineEntry n = s) ∧
    ∀ e, s.entry n = some e →
      (¬ s.passDue e → s.examineEntry n = s) ∧
      (s.passDue e →
        let q := e.pass s
        let g := s.leg e.leg
        let turn := e.dest = e.source
        let ended (reason : EntryEnd) : Prop := s.examineEntry n = s.entryEnded n e reason
        (¬ s.legOpen e.leg → ended .state) ∧
        (s.legOpen e.leg → ¬ s.stagedUnheld q → ended .hold) ∧
        (s.legOpen e.leg → s.stagedUnheld q → ¬ s.stagedFree q → s.examineEntry n = s) ∧
        (s.legOpen e.leg → s.stagedUnheld q → s.stagedFree q →
          (¬ s.stagedAgrees q → ended .mismatch) ∧
          (s.stagedAgrees q → (s.stagedPlan q).granted = 0 →
            ended (if (s.stagedPlan q).cause = .heldLot then .hold else .empty)) ∧
          (s.stagedAgrees q → (s.stagedPlan q).granted ≠ 0 → ¬ (s.stagedSpace q ∧ s.stagedHasSlots q) →
            ended .noSpace) ∧
          ∀ i, (s.bin e.source).identity = some i → s.stagedAgrees q → (s.stagedPlan q).granted ≠ 0 →
            s.stagedSpace q → s.stagedHasSlots q →
            let clean := g.lastCarried.admits i = true ∨ s.settings.cleanout.get e.leg = 0
            let waiting : Transfer :=
              { id := s.nextId, origin := .schedule n, source := .bin e.source, dest := .bin e.dest
                target := s.stagedTarget q, delivered := 0, overrun := 0, identity := i, attr := .yield
                state := .buffered, clamps := s.stagedClamps q
                originalRemaining := if turn then some (s.bin e.source).contents else none }
            let started : Transfer :=
              { waiting with state := if clean then .running else .cleanout (s.settings.cleanout.get e.leg) }
            let u := s.examineEntry n
            u = { s with
              bins := u.bins, legs := u.legs, schedules := u.schedules
              nextTransfer := if s.nextId < 65535 then s.nextId + 1 else 1 } ∧
            u.entry n = some { e with state := .launched, inFlight := some s.nextId } ∧
            (∀ m, m ≠ n → u.entry m = s.entry m) ∧
            u.leg e.leg = (if g.active = none then
              { g with active := some started, lastCarried := if clean then .carried i else g.lastCarried }
              else { g with buffered := some waiting }) ∧
            (∀ m, m ≠ e.leg → u.leg m = s.leg m) ∧
            u.bin e.source = { s.bin e.source with
              claim := some s.nextId
              holders := if turn then [{ who := .transfer s.nextId, kg := 0, slots := 1 }]
                else (s.bin e.source).holders } ∧
            (¬ turn → u.bin e.dest = { s.bin e.dest with
              identity := some i
              holders := [{ who := .transfer s.nextId, kg := s.stagedTarget q, slots := s.stagedSlots q }] }) ∧
            ∀ b, b ≠ e.source → b ≠ e.dest → u.bin b = s.bin b))) ∧
  ∀ (s : State) (l : LegNo) (k : Slot) (t : Transfer) (n : EntryNo) (e : Entry) (reason : EndReason),
    (s.leg l).slot k = some t → t.origin = .schedule n → s.entry n = some e → e.inFlight = some t.id →
    let u := s.endSlot l k reason
    let flown := e.state = .launched
    let told (f : Entry) : Prop := u.entry n = some f ∧ (∀ m, m ≠ n → u.entry m = s.entry m)
    let stays := ∀ b, (u.bin b).temp = (s.bin b).temp
    let stopped (why : EntryEnd) : Prop :=
      stays ∧ (flown → u.flag flagScheduleEnded = true ∧
          told { e with inFlight := none, state := .ended, reason := some why }) ∧
        (¬ flown → told { e with inFlight := none })
    (reason = .reset → stays ∧ told { e with inFlight := none, state := if flown then .waiting else e.state }) ∧
    (reason = .sourceEmpty → stopped .sourceEmpty) ∧ (reason = .aborted → stopped .aborted) ∧
    (reason = .estop → stopped .estop) ∧ (reason = .hold → stopped .hold) ∧
    (reason = .complete →
      let old := (s.bin e.source).temp
      let limits := s.binSet e.source
      let left := e.remaining.map (· - 1)
      let spent := flown ∧ left = some 0
      let stamped : TempFields :=
        { old with lastTurned := if t.source = .bin e.source ∧ t.dest = .bin e.source then some s.terminalTime
                                 else old.lastTurned }
      let after : TempFields :=
        match e.condition, old.lastReading with
        | .ifHotRebase, some r =>
          { stamped with
            baseline := some r
            hot := if old.hot = true then !decide (r ≤ limits.hotLimit - 20 ∧ 0 < limits.riseLimit - 20)
              else decide (limits.hotLimit ≤ r ∨ limits.riseLimit ≤ 0) }
        | _, _ => stamped
      (u.bin e.source).temp = after ∧ (∀ b, b ≠ e.source → (u.bin b).temp = (s.bin b).temp) ∧
      (spent → u.flag flagScheduleEnded = true) ∧ (old.hot = false → after.hot = true → u.flag flagBinHot = true) ∧
      (after.hot = false ∨ old.hot = true ∨ flown →
        told { e with
          done := min (e.done + 1) 65535, remaining := left, inFlight := none
          state := if spent then .ended else if flown then .waiting else e.state
          reason := if spent then some .done else e.reason }))

/-! ### Berths and the river -/

/-- Accept Barge puts an empty barge at a vacant berth with its load limit; Release Barge takes it away and drops its
lots' manifest references (R11, R58, R59, R149, R162). That both leave the spout's timeout select as it was is assumption
log 34 (DESIGN CHOICE). -/
def Obligations.BargesAreAcceptedAndReleased : Prop :=
  (∀ (s : State) (f : Frame) (k : BerthNo) (g : Barge), Heard s f (supervisorOr [.loadout]) →
    decodeBarge f.payload = some (k.val, g) → (∀ b ∈ g.name, printable b = true) →
    20 ≤ g.lightDraft → g.lightDraft ≤ 200 → 500 ≤ g.tpc → g.tpc ≤ 20000 → 100 ≤ g.maxDraft → g.maxDraft ≤ 450 →
    g.lightDraft < g.maxDraft →
    let river := s.settings.river
    let stage := if s.river.stale = true then s.river.stage - river.staleMargin else s.river.stage
    let allowed : Int := min g.maxDraft (river.channelDepth + stage - river.clearance)
    let limit := if s.river.known = true ∧ (g.lightDraft : Int) < allowed then (allowed - g.lightDraft).toNat * g.tpc
      else 0
    exec (.acceptBarge f) s =
      if (s.berth k).state ≠ .vacant then answered 0x80#8 f s ⟨.state, []⟩
      else answered 0x80#8 f
        (s.setBerth k { s.berth k with
          state := .assigned, barge := some g, loadLimit := limit, overLimit := false, order := none, plan := none
          current := none, commanded := none, movePending := false, spoutTimer := none, cargo := ⟨0, 0, 0⟩
          manifest := [] }) ⟨.ok, mass limit⟩) ∧
  ∀ (s : State) (f : Frame) (k : BerthNo), Heard s f (supervisorOr [.loadout]) → decodeOne 1 f.payload = some k.val →
    let b := s.berth k
    (b.state = .vacant → exec (.releaseBarge f) s = answered 0x87#8 f s ⟨.state, []⟩) ∧
    (b.state ≠ .vacant → b.claim ≠ none → exec (.releaseBarge f) s = answered 0x87#8 f s ⟨.busy, []⟩) ∧
    (b.state ≠ .vacant → b.claim = none →
      ∃ t, exec (.releaseBarge f) s = answered 0x87#8 f t
          ⟨.ok, mass b.cargo.q ++ optional 2 short (average b.cargo.q b.cargo.s) ++
            optional 2 short (average b.cargo.q b.cargo.t) ++ small b.manifest.length⟩ ∧
        t = { s with lots := t.lots, berths := t.berths } ∧
        t.berth k = { b with
          state := .vacant, barge := none, loadLimit := 0, overLimit := false, order := none, plan := none
          current := none, commanded := none, movePending := false, spoutTimer := none, cargo := ⟨0, 0, 0⟩
          manifest := [] } ∧
        (∀ j, j ≠ k → t.berth j = s.berth j) ∧
        ∀ n, t.lot? n = (s.lot? n).map fun l =>
          { l with manifestRefs := l.manifestRefs - (b.manifest.filter fun e => e.lot == n).length })

/-- Load orders, position plans and spout moves change their berth only, whose READY is tested again in the same step,
and are refused STATE, BUSY, MISMATCH and NO_SUCH as their rules say (R150, R151, R152, R153). That NO_SUCH comes before
BUSY for a spout command is the order of assumption log 5 (DEDUCED), and that the spout timer's expiry acts whenever the
timer runs, and not when it is stopped, is log 13 (DESIGN CHOICE). -/
def Obligations.OrdersPlansAndSpoutsChangeTheirBerth : Prop :=
  (∀ (s : State) (f : Frame) (r : OrderRequest) (k : BerthNo) (o : LoadOrder), Heard s f (supervisorOr [.loadout]) →
    decodeOrder f.payload = some r → r.berth = k.val → r.order? = some o →
    let b := s.berth k
    let c := { b with order := some o }
    (b.barge = none → exec (.setLoadOrder f) s = answered 0x81#8 f s ⟨.state, []⟩) ∧
    (b.barge ≠ none → b.claim ≠ none → exec (.setLoadOrder f) s = answered 0x81#8 f s ⟨.busy, []⟩) ∧
    (b.barge ≠ none → b.claim = none → 0 < b.cargo.q → (∃ old, b.order = some old ∧ old.cls ≠ o.cls) →
      exec (.setLoadOrder f) s = answered 0x81#8 f s ⟨.mismatch, []⟩) ∧
    (b.barge ≠ none → b.claim = none → (0 < b.cargo.q → ∀ old, b.order = some old → old.cls = o.cls) →
      exec (.setLoadOrder f) s = answered 0x81#8 f
        (s.setBerth k { c with
          state := if b.state = .complete ∧ c.completed = true then .complete
            else if b.state = .complete ∨ b.state = .assigned ∨ b.state = .ready then
              (if c.readyConditions = true then .ready else .assigned)
            else b.state }) ⟨.ok, []⟩)) ∧
  (∀ (s : State) (f : Frame) (k : BerthNo) (qs : List Nat), Heard s f (supervisorOr [.loadout]) →
    decodePlan f.payload = some (k.val, qs) → 1 ≤ qs.length → qs.length ≤ 6 → (∀ q ∈ qs, 1 ≤ q ∧ q ≤ 8600000) →
    let b := s.berth k
    (b.barge = none → exec (.setPositionPlan f) s = answered 0x82#8 f s ⟨.state, []⟩) ∧
    (b.barge ≠ none → b.claim ≠ none → exec (.setPositionPlan f) s = answered 0x82#8 f s ⟨.busy, []⟩) ∧
    (b.barge ≠ none → b.claim = none → (∃ p : Position, p ∈ (b.plan.getD []).drop qs.length ∧ p.loaded ≠ 0) →
      exec (.setPositionPlan f) s = answered 0x82#8 f s ⟨.state, []⟩) ∧
    (b.barge ≠ none → b.claim = none → (∀ p : Position, p ∈ (b.plan.getD []).drop qs.length → p.loaded = 0) →
      ∃ c, exec (.setPositionPlan f) s = answered 0x82#8 f (s.setBerth k c) ⟨.ok, []⟩ ∧
        (∃ ps, c.plan = some ps ∧ ps.map Position.planned = qs ∧
          ∀ (i : Nat) (p : Position), ps[i]? = some p → p.loaded = (((b.plan.getD [])[i]?).map Position.loaded).getD 0) ∧
        c.current = b.current.filter (fun i => decide (i ≤ qs.length)) ∧
        c.commanded = b.commanded.filter (fun i => decide (i ≤ qs.length)) ∧
        c = { b with
          plan := c.plan, current := c.current, commanded := c.commanded
          movePending := b.movePending && c.commanded.isSome
          spoutTimer := if c.commanded.isSome = true then b.spoutTimer else none
          state := if b.state = .complete ∧ c.completed = true then .complete
            else if b.state = .complete ∨ b.state = .assigned ∨ b.state = .ready then
              (if c.readyConditions = true then .ready else .assigned)
            else b.state })) ∧
  (∀ (s : State) (f : Frame) (k : BerthNo) (n select : Nat), Heard s f (supervisorOr [.loadout]) →
    decodeSpout f.payload = some ⟨k.val, n, select⟩ → 1 ≤ n → n ≤ 6 → select ≤ 3 →
    ((s.berth k).plan = none → exec (.setSpoutPosition f) s = answered 0x84#8 f s ⟨.state, []⟩) ∧
    (∀ ps, (s.berth k).plan = some ps →
      (ps.length < n → exec (.setSpoutPosition f) s = answered 0x84#8 f s ⟨.noSuch, []⟩) ∧
      (n ≤ ps.length → (s.berth k).state = .loading →
        exec (.setSpoutPosition f) s = answered 0x84#8 f s ⟨.busy, []⟩) ∧
      (n ≤ ps.length → (s.berth k).state ≠ .loading →
        exec (.setSpoutPosition f) s = answered 0x84#8 f
          (s.setBerth k { s.berth k with
            commanded := some n, movePending := true, timeoutSelect := select
            spoutTimer := some (if select = 0 then 60 else if select = 1 then 120 else if select = 2 then 300 else 600)
            state := if (s.berth k).barge ≠ none ∧ (s.berth k).state = .ready then .assigned else (s.berth k).state })
          ⟨.ok, []⟩))) ∧
  (∀ (s : State) (f : Frame) (k : BerthNo) (n : Nat), Heard s f (some [.loadout]) →
    decodeTwo 1 1 f.payload = some (k.val, n) →
    exec (.spoutArrived f) s =
      if (s.berth k).commanded = some n then
        answered 0x85#8 f
          (((s.setBerth k { s.berth k with current := some n, movePending := false, spoutTimer := none }).raiseIf
            (s.berth k).enabled (flagSpoutDone k)).settleReady k) ⟨.ok, []⟩
      else answered 0x85#8 f s ⟨.mismatch, []⟩) ∧
  ∀ (s : State) (k : BerthNo), s.powered = true →
    ((s.berth k).movePending = true → (s.berth k).spoutTimer ≠ none →
      exec (.spoutTimerExpiry k) s = .next
        (((s.setBerth k { s.berth k with current := none, movePending := false, spoutTimer := none }).raise
          (flagSpoutTimeout k)).settleReady k)) ∧
    ((s.berth k).movePending = false ∨ (s.berth k).spoutTimer = none → exec (.spoutTimerExpiry k) s = .next s)

/-- A berth that is LOADING and loses PRESENT, MOORED or its enable halts with that cause, and no grain moves; any
other change has READY tested again (R147, R148, R151, R159). A halted berth resumes when every cause is absent (R161).
A press sets BUTTON, and the lamp of the berth flashes (R147, R163). That a PRESENT or MOORED change to the level held,
and a press of a pressed BUTTON, have no effect is assumption log 15 (DESIGN CHOICE). -/
def Obligations.BerthConditionsHaltAndResume : Prop :=
  (∀ (s : State) (f : Frame) (k : BerthNo) (on : Bool), Heard s f (supervisorOr [.loadout]) →
    decodeEnable f.payload = some (k.val, on) →
    let u := s.setBerth k { s.berth k with enabled := on }
    ((s.berth k).state ≠ .loading ∨ on = true →
      exec (.setBerthEnable f) s = answered 0x83#8 f (u.settleReady k) ⟨.ok, []⟩) ∧
    ((s.berth k).state = .loading → on = false →
      ∃ t, exec (.setBerthEnable f) s = answered 0x83#8 f t ⟨.ok, []⟩ ∧ NoGrainMoved s t ∧
        (t.berth k).state = .halted .disabled ∧ (t.berth k).enabled = false)) ∧
  (∀ (s : State) (k : BerthNo) (level : Bool), s.powered = true →
    let u := (s.setBerth k { s.berth k with present := level }).raise (flagPresentChanged k)
    ((s.berth k).present = level → exec (.presentChange k level) s = .next s) ∧
    ((s.berth k).present ≠ level → (s.berth k).state ≠ .loading ∨ level = true →
      exec (.presentChange k level) s = .next (u.settleReady k)) ∧
    ((s.berth k).present ≠ level → (s.berth k).state = .loading → level = false →
      ∃ t, exec (.presentChange k level) s = .next t ∧ NoGrainMoved s t ∧ (t.berth k).state = .halted .present ∧
        (t.berth k).present = false ∧ t.flag (flagPresentChanged k) = true)) ∧
  (∀ (s : State) (k : BerthNo) (level : Bool), s.powered = true →
    let u := (s.setBerth k { s.berth k with moored := level }).raise (flagMooringChanged k)
    ((s.berth k).moored = level → exec (.mooredChange k level) s = .next s) ∧
    ((s.berth k).moored ≠ level → (s.berth k).state ≠ .loading ∨ level = true →
      exec (.mooredChange k level) s = .next (u.settleReady k)) ∧
    ((s.berth k).moored ≠ level → (s.berth k).state = .loading → level = false →
      ∃ t, exec (.mooredChange k level) s = .next t ∧ NoGrainMoved s t ∧ (t.berth k).state = .halted .moored ∧
        (t.berth k).moored = false ∧ t.flag (flagMooringChanged k) = true)) ∧
  (∀ (s : State) (k : BerthNo), s.powered = true →
    (∃ t, exec (.buttonPress k) s = .next t ∧ t = { s with berths := t.berths, events := t.events } ∧
      t.berth k = { s.berth k with button := true } ∧
      ((s.berth k).button = true → t = s) ∧
      ((s.berth k).button = false → t.flag (flagButton k) = true ∧ t.lamp k = .flashing)) ∧
    exec (.buttonRelease k) s = .next (s.setBerth k { s.berth k with button := false })) ∧
  ∀ (s : State) (f : Frame) (k : BerthNo) (cause : HaltCause), Heard s f (supervisorOr [.loadout]) →
    decodeOne 1 f.payload = some k.val → (s.berth k).state = .halted cause →
    let b := s.berth k
    let mayResume := b.present = true ∧ b.moored = true ∧ b.enabled = true ∧ b.cargo.q ≤ b.loadLimit ∧ s.estop = false
    (¬ mayResume → exec (.resumeBerth f) s = answered 0x86#8 f s ⟨.state, []⟩) ∧
    (mayResume → b.completed = true →
      exec (.resumeBerth f) s = answered 0x86#8 f
        ((s.setBerth k { b with state := .complete }).raise (flagOrderComplete k)) ⟨.ok, small 5⟩) ∧
    (mayResume → b.completed = false →
      exec (.resumeBerth f) s = answered 0x86#8 f ((s.setBerth k { b with state := .assigned }).settleReady k)
        ⟨.ok, small (((s.setBerth k { b with state := .assigned }).settleReady k).berth k).state.code⟩)

/-- A stage reading, the stale expiry and a river setting set every berth's load limit and over limit from the stage in
use, and move no grain (R58, R59, R164, R165, R166, R167). A new stale time changes the setting only. That the stale
expiry acts whatever seconds are left, and not with the timer stopped, is assumption log 13 (DESIGN CHOICE). -/
def Obligations.RiverChangesSetBothLoadLimits : Prop :=
  let limited (t : State) : Prop := ∀ k g, (t.berth k).barge = some g →
    (t.berth k).loadLimit = loadLimitOf t.settings.river t.river g ∧
      ((t.berth k).overLimit = true ↔ (t.berth k).loadLimit < (t.berth k).cargo.q)
  (∀ (s : State) (f : Frame) (z : Int), Heard s f (supervisorOr [.gauge]) → decodeSigned 2 f.payload = some z →
    let stage : Int := max (-500) (min z 2500)
    let u := { s with river :=
      { stage := stage, readingTime := s.terminalTime, known := true, stale := false
        staleTimer := some s.settings.river.staleTime } }
    ∃ t, exec (.stageReading f) s = answered 0x88#8 f t
        ⟨.ok, degrees stage ++ encodeLimit (t.berth 0) ++ encodeLimit (t.berth 1)⟩ ∧ NoGrainMoved u t ∧ limited t) ∧
  (∀ s : State, s.powered = true →
    (s.river.staleTimer = none → exec .riverStaleExpiry s = .next s) ∧
    (s.river.staleTimer ≠ none →
      ∃ t, exec .riverStaleExpiry s = .next t ∧
        NoGrainMoved { s with river := { s.river with stale := true, staleTimer := none } } t ∧ limited t ∧
        t.flag flagStageStale = true)) ∧
  ∀ (s : State) (f : Frame) (x : RiverSetting), Heard s f onlySupervisor → decodeRiverSetting f.payload = some x →
    x.inRange = true → s.commit = .idle →
    let u := { s with settings := { s.settings with river := s.settings.river.apply x } }
    (∀ n, x = .staleTime n → exec (.setRiverSettings f) s = answered 0x89#8 f u ⟨.ok, []⟩) ∧
    ((∀ n, x ≠ .staleTime n) →
      ∃ t, exec (.setRiverSettings f) s = answered 0x89#8 f t ⟨.ok, []⟩ ∧ NoGrainMoved u t ∧ limited t)

/-! ### Stations and events -/

/-- Set Station writes one row of the station table and empties the staging areas of a station it disables (R106,
R178); the table stays, and the answer is BUSY, while a commit writes (R189). Clear Events clears the flags named but a
leg's STOPPED while ESTOP is asserted (R184), and Set Event Enables replaces a group's enables (R185). That station 0
is answered STATE, and not BUSY, while a commit writes is the order of assumption log 5 (DEDUCED). -/
def Obligations.StationsAndEventsAreWritten : Prop :=
  (∀ (s : State) (f : Frame), Heard s f onlySupervisor →
    (decodeStation f.payload = none → exec (.setStation f) s = answered 0x91#8 f s ⟨.format, []⟩) ∧
    (∀ n x, decodeStation f.payload = some (n, x) → 15 < n →
      exec (.setStation f) s = answered 0x91#8 f s ⟨.noSuch, []⟩) ∧
    ∀ g m, decodeFlags f.payload = some (g, m) → 10 < g →
      exec (.clearEvents f) s = answered 0x93#8 f s ⟨.noSuch, []⟩ ∧
      exec (.setEventEnables f) s = answered 0x94#8 f s ⟨.noSuch, []⟩) ∧
  (∀ (s : State) (f : Frame) (n : StationNo) (x : Station), Heard s f onlySupervisor →
    decodeStation f.payload = some (n.val, x) →
    (n = 0 → exec (.setStation f) s = answered 0x91#8 f s ⟨.state, []⟩) ∧
    (n ≠ 0 → s.commit ≠ .idle → exec (.setStation f) s = answered 0x91#8 f s ⟨.busy, []⟩) ∧
    (n ≠ 0 → s.commit = .idle →
      ∃ t, exec (.setStation f) s = answered 0x91#8 f t ⟨.ok, []⟩ ∧
        t = { s with
          settings := { s.settings with stations := s.settings.stations.set n.val x n.isLt }, legs := t.legs } ∧
        ∀ l, t.leg l =
          if (s.station n).enabled = true ∧ x.enabled = false ∧ (s.leg l).staging.map Staging.owner = some n then
            { s.leg l with staging := none }
          else s.leg l)) ∧
  ∀ (s : State) (f : Frame) (g : Fin 11) (m : BitVec 16), Heard s f onlySupervisor →
    decodeFlags f.payload = some (g.val, m) →
    let kept : BitVec 16 := if s.estop = true ∧ 4 ≤ g.val ∧ g.val ≤ 7 then 0x10#16 else 0#16
    let old := (s.group g).flags
    let left := old &&& ~~~(m &&& ~~~kept)
    exec (.clearEvents f) s = answered 0x93#8 f
        (s.setGroup g { s.group g with flags := left }) ⟨.ok, flagSet (old &&& (m &&& ~~~kept)) ++ flagSet left⟩ ∧
      exec (.setEventEnables f) s = answered 0x94#8 f (s.setGroup g { s.group g with enables := m }) ⟨.ok, []⟩

/-- ATTN is asserted exactly while at least one flag is set whose enable is set (R186). -/
def Obligations.AttnFollowsTheEnabledFlags : Prop :=
  ∀ s : State, s.attn = true ↔
    ∃ (g : Fin 11) (bit : Fin 16), (s.group g).flags.getLsbD bit.val = true ∧ (s.group g).enables.getLsbD bit.val = true

/-! ### Settings, time and start-up -/

/-- The lot size, the commit and its two ends, terminal time and Reset Part (R12, R188, R189, R191, R192). A commit
that is done makes the other bank current; one that failed leaves the current bank current. That the two ends of a
commit change nothing with no commit writing is assumption log 15 (DESIGN CHOICE), and that a failed commit leaves its
bank bad is log 17 (DEDUCED). -/
def Obligations.SettingsAreCommittedAndTimeIsSet : Prop :=
  (∀ (s : State) (f : Frame), Heard s f onlySupervisor →
    (∀ size, decodeOne 4 f.payload = some size → 20000 ≤ size → size ≤ 5000000 → s.commit = .idle →
      exec (.setLotSize f) s = answered 0xA4#8 f
        { s with
          settings := { s.settings with lotSize := size }
          lots := s.lots.map fun l =>
            if l.kind = .receiving ∧ l.state = .opened ∧ size ≤ l.received + l.pendingEstimate then
              { l with state := .closed }
            else l }
        ⟨.ok, small (s.lots.filter fun l => l.kind == .receiving && l.state == .opened &&
          decide (size ≤ l.received + l.pendingEstimate)).length⟩) ∧
    (f.payload = [] →
      (s.commit ≠ .idle → exec (.commitSettings f) s = answered 0xA0#8 f s ⟨.busy, []⟩ ∧
        exec (.resetPart f) s = answered 0xA3#8 f s ⟨.busy, []⟩) ∧
      (s.commit = .idle →
        exec (.commitSettings f) s = answered 0xA0#8 f
          { s with commit := .writing (if s.currentBank = some 0 then 1 else 0)
                    (if s.generation < 4294967295 then s.generation + 1 else 1) s.settings } ⟨.ok, []⟩ ∧
        exec (.resetPart f) s = answered 0xA3#8 f { s with resetPending := true } ⟨.ok, []⟩)) ∧
    ∀ time, decodeOne 4 f.payload = some time →
      exec (.setTime f) s = answered 0xA1#8 f { s with terminalTime := time, timeValid := true }
        ⟨.ok, long s.terminalTime ++ onOff s.timeValid⟩) ∧
  ∀ s : State, s.powered = true →
    (s.commit = .idle → exec .commitDone s = .next s ∧ exec .commitFailed s = .next s) ∧
    ∀ b g x, s.commit = .writing b g x →
      (∃ t, exec .commitDone s = .next t ∧
        t = { s with
          bank0 := t.bank0, bank1 := t.bank1, currentBank := some b, commit := .idle, commitResult := some .done
          events := t.events } ∧
        (t.bank b).generation = g ∧ (t.bank b).image = x ∧ (t.bank b).good = true ∧
        (∀ c, c ≠ b → t.bank c = s.bank c) ∧ t.flag flagCommitDone = true) ∧
      ∃ t, exec .commitFailed s = .next t ∧
        t = { s with
          bank0 := t.bank0, bank1 := t.bank1, commit := .idle, commitResult := some .failed, events := t.events } ∧
        (t.bank b).good = false ∧ (∀ c, c ≠ b → t.bank c = s.bank c) ∧ t.flag flagCommitFailed = true

/-- The lines and main power (R96, R125, R171, R189, R192). Emergency stop empties every leg, forgets what each leg
last carried, sets STOPPED on each leg that held a transfer, stops the dryer and moves no grain. That ESTOP or RESET
asserted on a line already asserted has no effect is assumption log 15 (DESIGN CHOICE), what a power loss drops is log
19 (DEDUCED), and what an abandoned bank holds is a free value (log 10, DEDUCED). -/
def Obligations.LinesAndPowerChangeTheMachine : Prop :=
  (∀ s : State, s.powered = true → s.estop = true → exec .estopAsserted s = .next s) ∧
  (∀ s : State, s.powered = true → s.estop = false →
    ∃ t, exec .estopAsserted s = .next t ∧ NoGrainMoved { s with estop := true } t ∧
      (∀ l, (t.leg l).empty = true ∧ (t.leg l).lastCarried = .unknown ∧
        ((s.leg l).empty = false → t.flag (flagStopped l) = true)) ∧
      t.dryerRun = false ∧
      ((∀ l k x, (s.leg l).slot k = some x → x.origin ≠ .dryer) → s.dryer.state ≠ .dischargeWait →
        t.dryer = { s.dryer with
          state := match s.dryer.state with
            | .drying => .suspended
            | .warming => if s.dryer.returnMark = true then .suspended else .off
            | .ready => .off
            | other => other
          returnMark := if s.dryer.state = .warming then false else s.dryer.returnMark
          warmUp := if s.dryer.state = .warming then none else s.dryer.warmUp })) ∧
  (∀ s : State, s.powered = true →
    exec .estopReleased s = .next { s with estop := false } ∧
    exec .resetReleased s = .next { s with resetLine := false } ∧
    (∀ level, exec (.backupLostChange level) s = .next { s with backupLost := level }) ∧
    (∀ p, s.resetLine = true → exec (.resetAsserted p) s = .next s) ∧
    (s.commit = .idle → exec .mainPowerLoss s = .next
      { s with powered := false, receiver := .hunting, response := none, resetPending := false }) ∧
    (s.commit ≠ .idle →
      ∃ t, exec .mainPowerLoss s = .next t ∧
        t = { s with
          powered := false, receiver := .hunting, response := none, resetPending := false, commit := .idle
          freeCount := s.freeCount + 1, bank0 := t.bank0, bank1 := t.bank1 } ∧
        ∀ b g x, s.commit = .writing b g x → ∀ c, c ≠ b → t.bank c = s.bank c))

/-- A warm start, by RESET, by the end of the OK answer to Reset Part, or by main power with the backup kept, keeps
the records: the lots and their accounts, the vehicles, the open tickets with their reservations, the bins' layers,
holds and temperature fields, the dryer's batch and drying timer, the berths' enables, barge records, plans, cargo and
halt causes, the river stage, the schedules' entries, the counters of lots, tickets and transfer ids, and terminal
time. It leaves no staged request, no transfer but the passes launched as it completes, the lines as it found them,
the timebase at 0, and a dryer that waits for its operator. A running stale timer is carried across on terminal time,
and a bin whose carried timer has run out is STALE. Every event flag is clear but those of the start itself and of
what follows it: START_WARM, SETTINGS_DEFAULTED, TICKET_EXPIRED with what a close sets, TEMP_STALE, OVERDRAFT and
SCHEDULE_ENDED (R21, R45, R83, R102, R104, R130, R145, R169, R187, R190, R191, R192, R193). The levels are operands of
the command (assumption log 18, DESIGN CHOICE), a return of power that finds it on is a loss and a return (log 15,
DESIGN CHOICE), the expiries and the examination that follow the start are in the order of log 25 (DEDUCED), a berth
whose transfer was waiting keeps its state (log 27, DEDUCED), and a dryer found with no batch where its state needs
one is OFF (log 30, DESIGN CHOICE). -/
def Obligations.WarmStartKeepsTheRecords : Prop :=
  let expires (t : State) (k : Ticket) : Bool := decide (t.settings.intake.ticketTimeout * 60 ≤ (t.age k.grossTime).getD 0)
  let carried (s t : State) (b : BinNo) : Option Int := (s.bin b).temp.staleTimer.map fun left =>
    match (s.bin b).temp.readingTime.bind s.age with
    | some age => t.settings.rotation.staleTime - age
    | none => left
  let warm (s t : State) (p : Pins) : Prop :=
    t.powered = true ∧ t.startKind = .warm ∧ t.timebase = 0 ∧ t.commit = .idle ∧ t.commitResult = none ∧
    t.receiver = .hunting ∧ t.response = none ∧ t.resetPending = false ∧ t.pending = s.pending ∧
    t.terminalTime = s.terminalTime ∧ t.timeValid = s.timeValid ∧ t.lastLot = s.lastLot ∧
    t.nextTicket = s.nextTicket ∧ t.vehicles.map Vehicle.tag = s.vehicles.map Vehicle.tag ∧
    t.vehicles.map Vehicle.tare = s.vehicles.map Vehicle.tare ∧ t.lots.map Lot.no = s.lots.map Lot.no ∧
    t.lots.map Lot.shipped = s.lots.map Lot.shipped ∧ t.lots.map Lot.waterLoss = s.lots.map Lot.waterLoss ∧
    t.lots.map Lot.hold = s.lots.map Lot.hold ∧ (∀ b, (t.bin b).hold = (s.bin b).hold) ∧
    t.lastClosed = s.lastClosed ∧
    (TableLaw s → t.tickets = (s.tickets.filter fun k => !expires t k).map fun k =>
      { k with grossBase := -(((s.age k.grossTime).getD 0 : Nat) : Int) }) ∧
    ((∀ k ∈ s.tickets, expires t k = false) →
      (∀ b, (t.bin b).layers = (s.bin b).layers) ∧ t.vehicles = s.vehicles ∧ t.lastExpired = s.lastExpired ∧
      (t.lots = s.lots.map fun m =>
        if m.kind = .receiving ∧ m.state = .opened ∧ t.settings.lotSize ≤ m.received + m.pendingEstimate then
          { m with state := .closed }
        else m) ∧
      ∀ b, ∀ h ∈ (s.bin b).holders, ∀ n, h.who = .ticket n → h ∈ (t.bin b).holders) ∧
    (∀ b, (t.bin b).temp = match carried s t b with
      | none => (s.bin b).temp
      | some left =>
        if left ≤ 0 then { (s.bin b).temp with stale := true, staleTimer := none }
        else { (s.bin b).temp with staleTimer := some left.toNat }) ∧
    (∀ x, t.flag x = true → x ∈ [flagStartWarm, flagSettingsDefaulted, flagTicketExpired, flagHeldDeposit, flagOverfull,
      flagTempStale, flagOverdraft 0, flagOverdraft 1, flagScheduleEnded]) ∧
    t.flag flagSettingsDefaulted = t.defaulted ∧
    (t.flag flagTicketExpired = true ↔ ∃ k ∈ s.tickets, expires t k = true) ∧
    ((∀ k ∈ s.tickets, expires t k = false) → t.flag flagHeldDeposit = false ∧ t.flag flagOverfull = false) ∧
    (t.flag flagTempStale = true ↔ ∃ b left, carried s t b = some left ∧ left ≤ 0) ∧
    (∀ k, t.flag (flagOverdraft k) = true ↔ (s.berth k).overLimit = false ∧ (t.berth k).overLimit = true) ∧
    (t.flag flagScheduleEnded = true ↔
      ∃ n e y, s.entry n = some e ∧ t.entry n = some y ∧ e.state ≠ .ended ∧ y.state = .ended) ∧
    t.portions = s.portions ∧ t.dryer.drying = s.dryer.drying ∧
    (∀ b, s.dryer.batch = some b → b.portions ≠ [] ∨ (∀ x ∈ s.live, x.origin ≠ .dryer) → t.dryer.batch = some b) ∧
    (DischargeLaw s → t.dryer.discharge = none) ∧
    (t.dryer.state = match s.dryer.state with
      | .fault => .fault
      | .drying | .suspended => if t.dryer.batch = none then .off else .suspended
      | .warming => if s.dryer.returnMark = true ∧ t.dryer.batch ≠ none then .suspended else .off
      | .off | .ready | .dischargeWait | .discharging => .off) ∧
    ((∀ n e, s.entry n = some e → e.state = .ended) →
      t.nextTransfer = s.nextTransfer ∧ ∀ l, (t.leg l).empty = true) ∧
    (∀ l, (t.leg l).empty = true → (t.leg l).lastCarried = .unknown) ∧
    (∀ k, (t.berth k).enabled = (s.berth k).enabled ∧ (t.berth k).commanded = (s.berth k).commanded ∧
      (t.berth k).movePending = false ∧
      (t.berth k).current = (if (s.berth k).movePending = true then none else (s.berth k).current) ∧
      (∀ c, (s.berth k).state = .halted c → (t.berth k).state = .halted c) ∧
      ((s.berth k).state = .loading → (∃ x ∈ s.live, x.dest = .berth k) → (t.berth k).state = .halted .reset) ∧
      ((s.berth k).state = .vacant ∨ (s.berth k).state = .complete → (t.berth k).state = (s.berth k).state) ∧
      ∀ g, (s.berth k).barge = some g → (t.berth k).loadLimit = loadLimitOf t.settings.river t.river g ∧
        ((t.berth k).overLimit = true ↔ (t.berth k).loadLimit < (t.berth k).cargo.q)) ∧
    t.river = { s.river with stale := s.river.known || s.river.stale, staleTimer := none } ∧
    (∀ n, (t.entry n).map (fun e => (e.source, e.dest, e.leg, e.kg, e.condition)) =
      (s.entry n).map fun e => (e.source, e.dest, e.leg, e.kg, e.condition)) ∧
    (∀ l, (t.leg l).staging = none) ∧
    (∀ l k x, (t.leg l).slot k = some x → ∃ e, x.origin = .schedule e) ∧
    (∀ k, (s.berth k).sameCargo (t.berth k)) ∧
    t.estop = p.estop ∧ t.resetLine = p.reset ∧ t.backupLost = p.backupLost ∧
    (t.berth 0).present = p.presentA ∧ (t.berth 0).moored = p.mooredA ∧ (t.berth 0).button = p.buttonA ∧
    (t.berth 1).present = p.presentB ∧ (t.berth 1).moored = p.mooredB ∧ (t.berth 1).button = p.buttonB ∧
    (t.dryer.state = .off ∨ t.dryer.state = .suspended ∨ t.dryer.state = .fault) ∧ t.dryer.stopPending = false ∧
    t.dryer.warmUp = none ∧ t.dryer.autoDischarge = false ∧ t.flag flagStartWarm = true ∧
    t.flag flagStartCold = false ∧ (∀ g, (t.group g).enables = (s.group g).enables) ∧
    (s.commit = .idle → t.settings = match chooseBank s.bank0 s.bank1 with
      | some b => (s.bank b).image.loaded
      | none => Settings.factory)
  (∀ (s : State) (p : Pins), s.powered = true → s.resetLine = false →
    ∃ t, exec (.resetAsserted p) s = .next t ∧ warm s t p) ∧
  (∀ (s : State) (p : Pins), s.powered = true → s.response.isSome = true → s.resetPending = true →
    ∃ t, exec (.responseSent p) s = .next t ∧ warm s t p) ∧
  ∀ (s : State) (p : Pins), p.backupLost = false → ∃ t, exec (.mainPowerReturn p) s = .next t ∧ warm s t p

/-- A cold start empties every record and keeps the store: main power returns with BACKUP_LOST asserted, and the state
is that of reset but for the settings loaded, the lines found and the enables; every event flag is clear but START_COLD
and SETTINGS_DEFAULTED (R46, R84, R102, R131, R146, R170, R187,
R190, R192, R193). The values of reset that the manual does not give are assumption logs 6 and 7 (DESIGN CHOICE), the
levels are operands of the command (log 18, DESIGN CHOICE), and a return of power that finds it on is a loss and a
return (log 15, DESIGN CHOICE). -/
def Obligations.ColdStartEmptiesEveryRecord : Prop :=
  ∀ (s : State) (p : Pins), p.backupLost = true →
    ∃ t, exec (.mainPowerReturn p) s = .next t ∧
      t = { State.reset with
        settings := t.settings, bank0 := t.bank0, bank1 := t.bank1, currentBank := t.currentBank
        defaulted := t.defaulted, freeCount := t.freeCount, pending := s.pending
        estop := p.estop, resetLine := p.reset, berths := t.berths, events := t.events } ∧
      t.berth 0 = Berth.cold p.presentA p.mooredA p.buttonA ∧ t.berth 1 = Berth.cold p.presentB p.mooredB p.buttonB ∧
      t.flag flagStartCold = true ∧ t.flag flagStartWarm = false ∧ t.flag flagSettingsDefaulted = t.defaulted ∧
      (∀ x, t.flag x = true → x = flagStartCold ∨ x = flagSettingsDefaulted) ∧
      (∀ g, (t.group g).enables = groupMask g) ∧
      (s.commit = .idle → t.bank0 = s.bank0 ∧ t.bank1 = s.bank1 ∧ t.freeCount = s.freeCount ∧
        (chooseBank s.bank0 s.bank1 = none →
          t.settings = Settings.factory ∧ t.currentBank = none ∧ t.defaulted = true) ∧
        ∀ b, chooseBank s.bank0 s.bank1 = some b →
          t.settings = (s.bank b).image.loaded ∧ t.currentBank = some b ∧ t.defaulted = false)

end
end

