-- ==== Sys2Proof/Laws/State.lean ====
section
/-! SUPPORT. One lemma per field per update of the state: what an update leaves alone. -/

namespace Sys2Proof.Machine

variable (s : State)

/-! ### setBin -/
@[simp] theorem State.setBin_powered (b : BinNo) (x : Bin) : (s.setBin b x).powered = s.powered := rfl
@[simp] theorem State.setBin_settings (b : BinNo) (x : Bin) : (s.setBin b x).settings = s.settings := rfl
@[simp] theorem State.setBin_bank0 (b : BinNo) (x : Bin) : (s.setBin b x).bank0 = s.bank0 := rfl
@[simp] theorem State.setBin_bank1 (b : BinNo) (x : Bin) : (s.setBin b x).bank1 = s.bank1 := rfl
@[simp] theorem State.setBin_currentBank (b : BinNo) (x : Bin) : (s.setBin b x).currentBank = s.currentBank := rfl
@[simp] theorem State.setBin_commit (b : BinNo) (x : Bin) : (s.setBin b x).commit = s.commit := rfl
@[simp] theorem State.setBin_commitResult (b : BinNo) (x : Bin) : (s.setBin b x).commitResult = s.commitResult := rfl
@[simp] theorem State.setBin_startKind (b : BinNo) (x : Bin) : (s.setBin b x).startKind = s.startKind := rfl
@[simp] theorem State.setBin_defaulted (b : BinNo) (x : Bin) : (s.setBin b x).defaulted = s.defaulted := rfl
@[simp] theorem State.setBin_timebase (b : BinNo) (x : Bin) : (s.setBin b x).timebase = s.timebase := rfl
@[simp] theorem State.setBin_terminalTime (b : BinNo) (x : Bin) : (s.setBin b x).terminalTime = s.terminalTime := rfl
@[simp] theorem State.setBin_timeValid (b : BinNo) (x : Bin) : (s.setBin b x).timeValid = s.timeValid := rfl
@[simp] theorem State.setBin_lots (b : BinNo) (x : Bin) : (s.setBin b x).lots = s.lots := rfl
@[simp] theorem State.setBin_lastLot (b : BinNo) (x : Bin) : (s.setBin b x).lastLot = s.lastLot := rfl
@[simp] theorem State.setBin_channels (b : BinNo) (x : Bin) : (s.setBin b x).channels = s.channels := rfl
@[simp] theorem State.setBin_vehicles (b : BinNo) (x : Bin) : (s.setBin b x).vehicles = s.vehicles := rfl
@[simp] theorem State.setBin_tickets (b : BinNo) (x : Bin) : (s.setBin b x).tickets = s.tickets := rfl
@[simp] theorem State.setBin_nextTicket (b : BinNo) (x : Bin) : (s.setBin b x).nextTicket = s.nextTicket := rfl
@[simp] theorem State.setBin_lastClosed (b : BinNo) (x : Bin) : (s.setBin b x).lastClosed = s.lastClosed := rfl
@[simp] theorem State.setBin_lastExpired (b : BinNo) (x : Bin) : (s.setBin b x).lastExpired = s.lastExpired := rfl
@[simp] theorem State.setBin_dryer (b : BinNo) (x : Bin) : (s.setBin b x).dryer = s.dryer := rfl
@[simp] theorem State.setBin_legs (b : BinNo) (x : Bin) : (s.setBin b x).legs = s.legs := rfl
@[simp] theorem State.setBin_nextTransfer (b : BinNo) (x : Bin) : (s.setBin b x).nextTransfer = s.nextTransfer := rfl
@[simp] theorem State.setBin_schedules (b : BinNo) (x : Bin) : (s.setBin b x).schedules = s.schedules := rfl
@[simp] theorem State.setBin_berths (b : BinNo) (x : Bin) : (s.setBin b x).berths = s.berths := rfl
@[simp] theorem State.setBin_river (b : BinNo) (x : Bin) : (s.setBin b x).river = s.river := rfl
@[simp] theorem State.setBin_events (b : BinNo) (x : Bin) : (s.setBin b x).events = s.events := rfl
@[simp] theorem State.setBin_receiver (b : BinNo) (x : Bin) : (s.setBin b x).receiver = s.receiver := rfl
@[simp] theorem State.setBin_response (b : BinNo) (x : Bin) : (s.setBin b x).response = s.response := rfl
@[simp] theorem State.setBin_resetPending (b : BinNo) (x : Bin) : (s.setBin b x).resetPending = s.resetPending := rfl
@[simp] theorem State.setBin_estop (b : BinNo) (x : Bin) : (s.setBin b x).estop = s.estop := rfl
@[simp] theorem State.setBin_resetLine (b : BinNo) (x : Bin) : (s.setBin b x).resetLine = s.resetLine := rfl
@[simp] theorem State.setBin_backupLost (b : BinNo) (x : Bin) : (s.setBin b x).backupLost = s.backupLost := rfl
@[simp] theorem State.setBin_freeCount (b : BinNo) (x : Bin) : (s.setBin b x).freeCount = s.freeCount := rfl
@[simp] theorem State.setBin_pending (b : BinNo) (x : Bin) : (s.setBin b x).pending = s.pending := rfl

/-! ### setLeg -/
@[simp] theorem State.setLeg_powered (l : LegNo) (x : Leg) : (s.setLeg l x).powered = s.powered := rfl
@[simp] theorem State.setLeg_settings (l : LegNo) (x : Leg) : (s.setLeg l x).settings = s.settings := rfl
@[simp] theorem State.setLeg_bank0 (l : LegNo) (x : Leg) : (s.setLeg l x).bank0 = s.bank0 := rfl
@[simp] theorem State.setLeg_bank1 (l : LegNo) (x : Leg) : (s.setLeg l x).bank1 = s.bank1 := rfl
@[simp] theorem State.setLeg_currentBank (l : LegNo) (x : Leg) : (s.setLeg l x).currentBank = s.currentBank := rfl
@[simp] theorem State.setLeg_commit (l : LegNo) (x : Leg) : (s.setLeg l x).commit = s.commit := rfl
@[simp] theorem State.setLeg_commitResult (l : LegNo) (x : Leg) : (s.setLeg l x).commitResult = s.commitResult := rfl
@[simp] theorem State.setLeg_startKind (l : LegNo) (x : Leg) : (s.setLeg l x).startKind = s.startKind := rfl
@[simp] theorem State.setLeg_defaulted (l : LegNo) (x : Leg) : (s.setLeg l x).defaulted = s.defaulted := rfl
@[simp] theorem State.setLeg_timebase (l : LegNo) (x : Leg) : (s.setLeg l x).timebase = s.timebase := rfl
@[simp] theorem State.setLeg_terminalTime (l : LegNo) (x : Leg) : (s.setLeg l x).terminalTime = s.terminalTime := rfl
@[simp] theorem State.setLeg_timeValid (l : LegNo) (x : Leg) : (s.setLeg l x).timeValid = s.timeValid := rfl
@[simp] theorem State.setLeg_lots (l : LegNo) (x : Leg) : (s.setLeg l x).lots = s.lots := rfl
@[simp] theorem State.setLeg_lastLot (l : LegNo) (x : Leg) : (s.setLeg l x).lastLot = s.lastLot := rfl
@[simp] theorem State.setLeg_bins (l : LegNo) (x : Leg) : (s.setLeg l x).bins = s.bins := rfl
@[simp] theorem State.setLeg_channels (l : LegNo) (x : Leg) : (s.setLeg l x).channels = s.channels := rfl
@[simp] theorem State.setLeg_vehicles (l : LegNo) (x : Leg) : (s.setLeg l x).vehicles = s.vehicles := rfl
@[simp] theorem State.setLeg_tickets (l : LegNo) (x : Leg) : (s.setLeg l x).tickets = s.tickets := rfl
@[simp] theorem State.setLeg_nextTicket (l : LegNo) (x : Leg) : (s.setLeg l x).nextTicket = s.nextTicket := rfl
@[simp] theorem State.setLeg_lastClosed (l : LegNo) (x : Leg) : (s.setLeg l x).lastClosed = s.lastClosed := rfl
@[simp] theorem State.setLeg_lastExpired (l : LegNo) (x : Leg) : (s.setLeg l x).lastExpired = s.lastExpired := rfl
@[simp] theorem State.setLeg_dryer (l : LegNo) (x : Leg) : (s.setLeg l x).dryer = s.dryer := rfl
@[simp] theorem State.setLeg_nextTransfer (l : LegNo) (x : Leg) : (s.setLeg l x).nextTransfer = s.nextTransfer := rfl
@[simp] theorem State.setLeg_schedules (l : LegNo) (x : Leg) : (s.setLeg l x).schedules = s.schedules := rfl
@[simp] theorem State.setLeg_berths (l : LegNo) (x : Leg) : (s.setLeg l x).berths = s.berths := rfl
@[simp] theorem State.setLeg_river (l : LegNo) (x : Leg) : (s.setLeg l x).river = s.river := rfl
@[simp] theorem State.setLeg_events (l : LegNo) (x : Leg) : (s.setLeg l x).events = s.events := rfl
@[simp] theorem State.setLeg_receiver (l : LegNo) (x : Leg) : (s.setLeg l x).receiver = s.receiver := rfl
@[simp] theorem State.setLeg_response (l : LegNo) (x : Leg) : (s.setLeg l x).response = s.response := rfl
@[simp] theorem State.setLeg_resetPending (l : LegNo) (x : Leg) : (s.setLeg l x).resetPending = s.resetPending := rfl
@[simp] theorem State.setLeg_estop (l : LegNo) (x : Leg) : (s.setLeg l x).estop = s.estop := rfl
@[simp] theorem State.setLeg_resetLine (l : LegNo) (x : Leg) : (s.setLeg l x).resetLine = s.resetLine := rfl
@[simp] theorem State.setLeg_backupLost (l : LegNo) (x : Leg) : (s.setLeg l x).backupLost = s.backupLost := rfl
@[simp] theorem State.setLeg_freeCount (l : LegNo) (x : Leg) : (s.setLeg l x).freeCount = s.freeCount := rfl
@[simp] theorem State.setLeg_pending (l : LegNo) (x : Leg) : (s.setLeg l x).pending = s.pending := rfl

/-! ### setBerth -/
@[simp] theorem State.setBerth_powered (k : BerthNo) (x : Berth) : (s.setBerth k x).powered = s.powered := rfl
@[simp] theorem State.setBerth_settings (k : BerthNo) (x : Berth) : (s.setBerth k x).settings = s.settings := rfl
@[simp] theorem State.setBerth_bank0 (k : BerthNo) (x : Berth) : (s.setBerth k x).bank0 = s.bank0 := rfl
@[simp] theorem State.setBerth_bank1 (k : BerthNo) (x : Berth) : (s.setBerth k x).bank1 = s.bank1 := rfl
@[simp] theorem State.setBerth_currentBank (k : BerthNo) (x : Berth) : (s.setBerth k x).currentBank = s.currentBank := rfl
@[simp] theorem State.setBerth_commit (k : BerthNo) (x : Berth) : (s.setBerth k x).commit = s.commit := rfl
@[simp] theorem State.setBerth_commitResult (k : BerthNo) (x : Berth) : (s.setBerth k x).commitResult = s.commitResult := rfl
@[simp] theorem State.setBerth_startKind (k : BerthNo) (x : Berth) : (s.setBerth k x).startKind = s.startKind := rfl
@[simp] theorem State.setBerth_defaulted (k : BerthNo) (x : Berth) : (s.setBerth k x).defaulted = s.defaulted := rfl
@[simp] theorem State.setBerth_timebase (k : BerthNo) (x : Berth) : (s.setBerth k x).timebase = s.timebase := rfl
@[simp] theorem State.setBerth_terminalTime (k : BerthNo) (x : Berth) : (s.setBerth k x).terminalTime = s.terminalTime := rfl
@[simp] theorem State.setBerth_timeValid (k : BerthNo) (x : Berth) : (s.setBerth k x).timeValid = s.timeValid := rfl
@[simp] theorem State.setBerth_lots (k : BerthNo) (x : Berth) : (s.setBerth k x).lots = s.lots := rfl
@[simp] theorem State.setBerth_lastLot (k : BerthNo) (x : Berth) : (s.setBerth k x).lastLot = s.lastLot := rfl
@[simp] theorem State.setBerth_bins (k : BerthNo) (x : Berth) : (s.setBerth k x).bins = s.bins := rfl
@[simp] theorem State.setBerth_channels (k : BerthNo) (x : Berth) : (s.setBerth k x).channels = s.channels := rfl
@[simp] theorem State.setBerth_vehicles (k : BerthNo) (x : Berth) : (s.setBerth k x).vehicles = s.vehicles := rfl
@[simp] theorem State.setBerth_tickets (k : BerthNo) (x : Berth) : (s.setBerth k x).tickets = s.tickets := rfl
@[simp] theorem State.setBerth_nextTicket (k : BerthNo) (x : Berth) : (s.setBerth k x).nextTicket = s.nextTicket := rfl
@[simp] theorem State.setBerth_lastClosed (k : BerthNo) (x : Berth) : (s.setBerth k x).lastClosed = s.lastClosed := rfl
@[simp] theorem State.setBerth_lastExpired (k : BerthNo) (x : Berth) : (s.setBerth k x).lastExpired = s.lastExpired := rfl
@[simp] theorem State.setBerth_dryer (k : BerthNo) (x : Berth) : (s.setBerth k x).dryer = s.dryer := rfl
@[simp] theorem State.setBerth_legs (k : BerthNo) (x : Berth) : (s.setBerth k x).legs = s.legs := rfl
@[simp] theorem State.setBerth_nextTransfer (k : BerthNo) (x : Berth) : (s.setBerth k x).nextTransfer = s.nextTransfer := rfl
@[simp] theorem State.setBerth_schedules (k : BerthNo) (x : Berth) : (s.setBerth k x).schedules = s.schedules := rfl
@[simp] theorem State.setBerth_river (k : BerthNo) (x : Berth) : (s.setBerth k x).river = s.river := rfl
@[simp] theorem State.setBerth_events (k : BerthNo) (x : Berth) : (s.setBerth k x).events = s.events := rfl
@[simp] theorem State.setBerth_receiver (k : BerthNo) (x : Berth) : (s.setBerth k x).receiver = s.receiver := rfl
@[simp] theorem State.setBerth_response (k : BerthNo) (x : Berth) : (s.setBerth k x).response = s.response := rfl
@[simp] theorem State.setBerth_resetPending (k : BerthNo) (x : Berth) : (s.setBerth k x).resetPending = s.resetPending := rfl
@[simp] theorem State.setBerth_estop (k : BerthNo) (x : Berth) : (s.setBerth k x).estop = s.estop := rfl
@[simp] theorem State.setBerth_resetLine (k : BerthNo) (x : Berth) : (s.setBerth k x).resetLine = s.resetLine := rfl
@[simp] theorem State.setBerth_backupLost (k : BerthNo) (x : Berth) : (s.setBerth k x).backupLost = s.backupLost := rfl
@[simp] theorem State.setBerth_freeCount (k : BerthNo) (x : Berth) : (s.setBerth k x).freeCount = s.freeCount := rfl
@[simp] theorem State.setBerth_pending (k : BerthNo) (x : Berth) : (s.setBerth k x).pending = s.pending := rfl

/-! ### setChannel -/
@[simp] theorem State.setChannel_powered (c : ChannelNo) (x : Channel) : (s.setChannel c x).powered = s.powered := rfl
@[simp] theorem State.setChannel_settings (c : ChannelNo) (x : Channel) : (s.setChannel c x).settings = s.settings := rfl
@[simp] theorem State.setChannel_bank0 (c : ChannelNo) (x : Channel) : (s.setChannel c x).bank0 = s.bank0 := rfl
@[simp] theorem State.setChannel_bank1 (c : ChannelNo) (x : Channel) : (s.setChannel c x).bank1 = s.bank1 := rfl
@[simp] theorem State.setChannel_currentBank (c : ChannelNo) (x : Channel) : (s.setChannel c x).currentBank = s.currentBank := rfl
@[simp] theorem State.setChannel_commit (c : ChannelNo) (x : Channel) : (s.setChannel c x).commit = s.commit := rfl
@[simp] theorem State.setChannel_commitResult (c : ChannelNo) (x : Channel) : (s.setChannel c x).commitResult = s.commitResult := rfl
@[simp] theorem State.setChannel_startKind (c : ChannelNo) (x : Channel) : (s.setChannel c x).startKind = s.startKind := rfl
@[simp] theorem State.setChannel_defaulted (c : ChannelNo) (x : Channel) : (s.setChannel c x).defaulted = s.defaulted := rfl
@[simp] theorem State.setChannel_timebase (c : ChannelNo) (x : Channel) : (s.setChannel c x).timebase = s.timebase := rfl
@[simp] theorem State.setChannel_terminalTime (c : ChannelNo) (x : Channel) : (s.setChannel c x).terminalTime = s.terminalTime := rfl
@[simp] theorem State.setChannel_timeValid (c : ChannelNo) (x : Channel) : (s.setChannel c x).timeValid = s.timeValid := rfl
@[simp] theorem State.setChannel_lots (c : ChannelNo) (x : Channel) : (s.setChannel c x).lots = s.lots := rfl
@[simp] theorem State.setChannel_lastLot (c : ChannelNo) (x : Channel) : (s.setChannel c x).lastLot = s.lastLot := rfl
@[simp] theorem State.setChannel_bins (c : ChannelNo) (x : Channel) : (s.setChannel c x).bins = s.bins := rfl
@[simp] theorem State.setChannel_vehicles (c : ChannelNo) (x : Channel) : (s.setChannel c x).vehicles = s.vehicles := rfl
@[simp] theorem State.setChannel_tickets (c : ChannelNo) (x : Channel) : (s.setChannel c x).tickets = s.tickets := rfl
@[simp] theorem State.setChannel_nextTicket (c : ChannelNo) (x : Channel) : (s.setChannel c x).nextTicket = s.nextTicket := rfl
@[simp] theorem State.setChannel_lastClosed (c : ChannelNo) (x : Channel) : (s.setChannel c x).lastClosed = s.lastClosed := rfl
@[simp] theorem State.setChannel_lastExpired (c : ChannelNo) (x : Channel) : (s.setChannel c x).lastExpired = s.lastExpired := rfl
@[simp] theorem State.setChannel_dryer (c : ChannelNo) (x : Channel) : (s.setChannel c x).dryer = s.dryer := rfl
@[simp] theorem State.setChannel_legs (c : ChannelNo) (x : Channel) : (s.setChannel c x).legs = s.legs := rfl
@[simp] theorem State.setChannel_nextTransfer (c : ChannelNo) (x : Channel) : (s.setChannel c x).nextTransfer = s.nextTransfer := rfl
@[simp] theorem State.setChannel_schedules (c : ChannelNo) (x : Channel) : (s.setChannel c x).schedules = s.schedules := rfl
@[simp] theorem State.setChannel_berths (c : ChannelNo) (x : Channel) : (s.setChannel c x).berths = s.berths := rfl
@[simp] theorem State.setChannel_river (c : ChannelNo) (x : Channel) : (s.setChannel c x).river = s.river := rfl
@[simp] theorem State.setChannel_events (c : ChannelNo) (x : Channel) : (s.setChannel c x).events = s.events := rfl
@[simp] theorem State.setChannel_receiver (c : ChannelNo) (x : Channel) : (s.setChannel c x).receiver = s.receiver := rfl
@[simp] theorem State.setChannel_response (c : ChannelNo) (x : Channel) : (s.setChannel c x).response = s.response := rfl
@[simp] theorem State.setChannel_resetPending (c : ChannelNo) (x : Channel) : (s.setChannel c x).resetPending = s.resetPending := rfl
@[simp] theorem State.setChannel_estop (c : ChannelNo) (x : Channel) : (s.setChannel c x).estop = s.estop := rfl
@[simp] theorem State.setChannel_resetLine (c : ChannelNo) (x : Channel) : (s.setChannel c x).resetLine = s.resetLine := rfl
@[simp] theorem State.setChannel_backupLost (c : ChannelNo) (x : Channel) : (s.setChannel c x).backupLost = s.backupLost := rfl
@[simp] theorem State.setChannel_freeCount (c : ChannelNo) (x : Channel) : (s.setChannel c x).freeCount = s.freeCount := rfl
@[simp] theorem State.setChannel_pending (c : ChannelNo) (x : Channel) : (s.setChannel c x).pending = s.pending := rfl

/-! ### setEntry -/
@[simp] theorem State.setEntry_powered (n : EntryNo) (x : Option Entry) : (s.setEntry n x).powered = s.powered := rfl
@[simp] theorem State.setEntry_settings (n : EntryNo) (x : Option Entry) : (s.setEntry n x).settings = s.settings := rfl
@[simp] theorem State.setEntry_bank0 (n : EntryNo) (x : Option Entry) : (s.setEntry n x).bank0 = s.bank0 := rfl
@[simp] theorem State.setEntry_bank1 (n : EntryNo) (x : Option Entry) : (s.setEntry n x).bank1 = s.bank1 := rfl
@[simp] theorem State.setEntry_currentBank (n : EntryNo) (x : Option Entry) : (s.setEntry n x).currentBank = s.currentBank := rfl
@[simp] theorem State.setEntry_commit (n : EntryNo) (x : Option Entry) : (s.setEntry n x).commit = s.commit := rfl
@[simp] theorem State.setEntry_commitResult (n : EntryNo) (x : Option Entry) : (s.setEntry n x).commitResult = s.commitResult := rfl
@[simp] theorem State.setEntry_startKind (n : EntryNo) (x : Option Entry) : (s.setEntry n x).startKind = s.startKind := rfl
@[simp] theorem State.setEntry_defaulted (n : EntryNo) (x : Option Entry) : (s.setEntry n x).defaulted = s.defaulted := rfl
@[simp] theorem State.setEntry_timebase (n : EntryNo) (x : Option Entry) : (s.setEntry n x).timebase = s.timebase := rfl
@[simp] theorem State.setEntry_terminalTime (n : EntryNo) (x : Option Entry) : (s.setEntry n x).terminalTime = s.terminalTime := rfl
@[simp] theorem State.setEntry_timeValid (n : EntryNo) (x : Option Entry) : (s.setEntry n x).timeValid = s.timeValid := rfl
@[simp] theorem State.setEntry_lots (n : EntryNo) (x : Option Entry) : (s.setEntry n x).lots = s.lots := rfl
@[simp] theorem State.setEntry_lastLot (n : EntryNo) (x : Option Entry) : (s.setEntry n x).lastLot = s.lastLot := rfl
@[simp] theorem State.setEntry_bins (n : EntryNo) (x : Option Entry) : (s.setEntry n x).bins = s.bins := rfl
@[simp] theorem State.setEntry_channels (n : EntryNo) (x : Option Entry) : (s.setEntry n x).channels = s.channels := rfl
@[simp] theorem State.setEntry_vehicles (n : EntryNo) (x : Option Entry) : (s.setEntry n x).vehicles = s.vehicles := rfl
@[simp] theorem State.setEntry_tickets (n : EntryNo) (x : Option Entry) : (s.setEntry n x).tickets = s.tickets := rfl
@[simp] theorem State.setEntry_nextTicket (n : EntryNo) (x : Option Entry) : (s.setEntry n x).nextTicket = s.nextTicket := rfl
@[simp] theorem State.setEntry_lastClosed (n : EntryNo) (x : Option Entry) : (s.setEntry n x).lastClosed = s.lastClosed := rfl
@[simp] theorem State.setEntry_lastExpired (n : EntryNo) (x : Option Entry) : (s.setEntry n x).lastExpired = s.lastExpired := rfl
@[simp] theorem State.setEntry_dryer (n : EntryNo) (x : Option Entry) : (s.setEntry n x).dryer = s.dryer := rfl
@[simp] theorem State.setEntry_legs (n : EntryNo) (x : Option Entry) : (s.setEntry n x).legs = s.legs := rfl
@[simp] theorem State.setEntry_nextTransfer (n : EntryNo) (x : Option Entry) : (s.setEntry n x).nextTransfer = s.nextTransfer := rfl
@[simp] theorem State.setEntry_berths (n : EntryNo) (x : Option Entry) : (s.setEntry n x).berths = s.berths := rfl
@[simp] theorem State.setEntry_river (n : EntryNo) (x : Option Entry) : (s.setEntry n x).river = s.river := rfl
@[simp] theorem State.setEntry_events (n : EntryNo) (x : Option Entry) : (s.setEntry n x).events = s.events := rfl
@[simp] theorem State.setEntry_receiver (n : EntryNo) (x : Option Entry) : (s.setEntry n x).receiver = s.receiver := rfl
@[simp] theorem State.setEntry_response (n : EntryNo) (x : Option Entry) : (s.setEntry n x).response = s.response := rfl
@[simp] theorem State.setEntry_resetPending (n : EntryNo) (x : Option Entry) : (s.setEntry n x).resetPending = s.resetPending := rfl
@[simp] theorem State.setEntry_estop (n : EntryNo) (x : Option Entry) : (s.setEntry n x).estop = s.estop := rfl
@[simp] theorem State.setEntry_resetLine (n : EntryNo) (x : Option Entry) : (s.setEntry n x).resetLine = s.resetLine := rfl
@[simp] theorem State.setEntry_backupLost (n : EntryNo) (x : Option Entry) : (s.setEntry n x).backupLost = s.backupLost := rfl
@[simp] theorem State.setEntry_freeCount (n : EntryNo) (x : Option Entry) : (s.setEntry n x).freeCount = s.freeCount := rfl
@[simp] theorem State.setEntry_pending (n : EntryNo) (x : Option Entry) : (s.setEntry n x).pending = s.pending := rfl

/-! ### setGroup -/
@[simp] theorem State.setGroup_powered (g : Fin 11) (e : EventGroup) : (s.setGroup g e).powered = s.powered := rfl
@[simp] theorem State.setGroup_settings (g : Fin 11) (e : EventGroup) : (s.setGroup g e).settings = s.settings := rfl
@[simp] theorem State.setGroup_bank0 (g : Fin 11) (e : EventGroup) : (s.setGroup g e).bank0 = s.bank0 := rfl
@[simp] theorem State.setGroup_bank1 (g : Fin 11) (e : EventGroup) : (s.setGroup g e).bank1 = s.bank1 := rfl
@[simp] theorem State.setGroup_currentBank (g : Fin 11) (e : EventGroup) : (s.setGroup g e).currentBank = s.currentBank := rfl
@[simp] theorem State.setGroup_commit (g : Fin 11) (e : EventGroup) : (s.setGroup g e).commit = s.commit := rfl
@[simp] theorem State.setGroup_commitResult (g : Fin 11) (e : EventGroup) : (s.setGroup g e).commitResult = s.commitResult := rfl
@[simp] theorem State.setGroup_startKind (g : Fin 11) (e : EventGroup) : (s.setGroup g e).startKind = s.startKind := rfl
@[simp] theorem State.setGroup_defaulted (g : Fin 11) (e : EventGroup) : (s.setGroup g e).defaulted = s.defaulted := rfl
@[simp] theorem State.setGroup_timebase (g : Fin 11) (e : EventGroup) : (s.setGroup g e).timebase = s.timebase := rfl
@[simp] theorem State.setGroup_terminalTime (g : Fin 11) (e : EventGroup) : (s.setGroup g e).terminalTime = s.terminalTime := rfl
@[simp] theorem State.setGroup_timeValid (g : Fin 11) (e : EventGroup) : (s.setGroup g e).timeValid = s.timeValid := rfl
@[simp] theorem State.setGroup_lots (g : Fin 11) (e : EventGroup) : (s.setGroup g e).lots = s.lots := rfl
@[simp] theorem State.setGroup_lastLot (g : Fin 11) (e : EventGroup) : (s.setGroup g e).lastLot = s.lastLot := rfl
@[simp] theorem State.setGroup_bins (g : Fin 11) (e : EventGroup) : (s.setGroup g e).bins = s.bins := rfl
@[simp] theorem State.setGroup_channels (g : Fin 11) (e : EventGroup) : (s.setGroup g e).channels = s.channels := rfl
@[simp] theorem State.setGroup_vehicles (g : Fin 11) (e : EventGroup) : (s.setGroup g e).vehicles = s.vehicles := rfl
@[simp] theorem State.setGroup_tickets (g : Fin 11) (e : EventGroup) : (s.setGroup g e).tickets = s.tickets := rfl
@[simp] theorem State.setGroup_nextTicket (g : Fin 11) (e : EventGroup) : (s.setGroup g e).nextTicket = s.nextTicket := rfl
@[simp] theorem State.setGroup_lastClosed (g : Fin 11) (e : EventGroup) : (s.setGroup g e).lastClosed = s.lastClosed := rfl
@[simp] theorem State.setGroup_lastExpired (g : Fin 11) (e : EventGroup) : (s.setGroup g e).lastExpired = s.lastExpired := rfl
@[simp] theorem State.setGroup_dryer (g : Fin 11) (e : EventGroup) : (s.setGroup g e).dryer = s.dryer := rfl
@[simp] theorem State.setGroup_legs (g : Fin 11) (e : EventGroup) : (s.setGroup g e).legs = s.legs := rfl
@[simp] theorem State.setGroup_nextTransfer (g : Fin 11) (e : EventGroup) : (s.setGroup g e).nextTransfer = s.nextTransfer := rfl
@[simp] theorem State.setGroup_schedules (g : Fin 11) (e : EventGroup) : (s.setGroup g e).schedules = s.schedules := rfl
@[simp] theorem State.setGroup_berths (g : Fin 11) (e : EventGroup) : (s.setGroup g e).berths = s.berths := rfl
@[simp] theorem State.setGroup_river (g : Fin 11) (e : EventGroup) : (s.setGroup g e).river = s.river := rfl
@[simp] theorem State.setGroup_receiver (g : Fin 11) (e : EventGroup) : (s.setGroup g e).receiver = s.receiver := rfl
@[simp] theorem State.setGroup_response (g : Fin 11) (e : EventGroup) : (s.setGroup g e).response = s.response := rfl
@[simp] theorem State.setGroup_resetPending (g : Fin 11) (e : EventGroup) : (s.setGroup g e).resetPending = s.resetPending := rfl
@[simp] theorem State.setGroup_estop (g : Fin 11) (e : EventGroup) : (s.setGroup g e).estop = s.estop := rfl
@[simp] theorem State.setGroup_resetLine (g : Fin 11) (e : EventGroup) : (s.setGroup g e).resetLine = s.resetLine := rfl
@[simp] theorem State.setGroup_backupLost (g : Fin 11) (e : EventGroup) : (s.setGroup g e).backupLost = s.backupLost := rfl
@[simp] theorem State.setGroup_freeCount (g : Fin 11) (e : EventGroup) : (s.setGroup g e).freeCount = s.freeCount := rfl
@[simp] theorem State.setGroup_pending (g : Fin 11) (e : EventGroup) : (s.setGroup g e).pending = s.pending := rfl

/-! ### raise -/
@[simp] theorem State.raise_powered (f : Flag) : (s.raise f).powered = s.powered := rfl
@[simp] theorem State.raise_settings (f : Flag) : (s.raise f).settings = s.settings := rfl
@[simp] theorem State.raise_bank0 (f : Flag) : (s.raise f).bank0 = s.bank0 := rfl
@[simp] theorem State.raise_bank1 (f : Flag) : (s.raise f).bank1 = s.bank1 := rfl
@[simp] theorem State.raise_currentBank (f : Flag) : (s.raise f).currentBank = s.currentBank := rfl
@[simp] theorem State.raise_commit (f : Flag) : (s.raise f).commit = s.commit := rfl
@[simp] theorem State.raise_commitResult (f : Flag) : (s.raise f).commitResult = s.commitResult := rfl
@[simp] theorem State.raise_startKind (f : Flag) : (s.raise f).startKind = s.startKind := rfl
@[simp] theorem State.raise_defaulted (f : Flag) : (s.raise f).defaulted = s.defaulted := rfl
@[simp] theorem State.raise_timebase (f : Flag) : (s.raise f).timebase = s.timebase := rfl
@[simp] theorem State.raise_terminalTime (f : Flag) : (s.raise f).terminalTime = s.terminalTime := rfl
@[simp] theorem State.raise_timeValid (f : Flag) : (s.raise f).timeValid = s.timeValid := rfl
@[simp] theorem State.raise_lots (f : Flag) : (s.raise f).lots = s.lots := rfl
@[simp] theorem State.raise_lastLot (f : Flag) : (s.raise f).lastLot = s.lastLot := rfl
@[simp] theorem State.raise_bins (f : Flag) : (s.raise f).bins = s.bins := rfl
@[simp] theorem State.raise_channels (f : Flag) : (s.raise f).channels = s.channels := rfl
@[simp] theorem State.raise_vehicles (f : Flag) : (s.raise f).vehicles = s.vehicles := rfl
@[simp] theorem State.raise_tickets (f : Flag) : (s.raise f).tickets = s.tickets := rfl
@[simp] theorem State.raise_nextTicket (f : Flag) : (s.raise f).nextTicket = s.nextTicket := rfl
@[simp] theorem State.raise_lastClosed (f : Flag) : (s.raise f).lastClosed = s.lastClosed := rfl
@[simp] theorem State.raise_lastExpired (f : Flag) : (s.raise f).lastExpired = s.lastExpired := rfl
@[simp] theorem State.raise_dryer (f : Flag) : (s.raise f).dryer = s.dryer := rfl
@[simp] theorem State.raise_legs (f : Flag) : (s.raise f).legs = s.legs := rfl
@[simp] theorem State.raise_nextTransfer (f : Flag) : (s.raise f).nextTransfer = s.nextTransfer := rfl
@[simp] theorem State.raise_schedules (f : Flag) : (s.raise f).schedules = s.schedules := rfl
@[simp] theorem State.raise_berths (f : Flag) : (s.raise f).berths = s.berths := rfl
@[simp] theorem State.raise_river (f : Flag) : (s.raise f).river = s.river := rfl
@[simp] theorem State.raise_receiver (f : Flag) : (s.raise f).receiver = s.receiver := rfl
@[simp] theorem State.raise_response (f : Flag) : (s.raise f).response = s.response := rfl
@[simp] theorem State.raise_resetPending (f : Flag) : (s.raise f).resetPending = s.resetPending := rfl
@[simp] theorem State.raise_estop (f : Flag) : (s.raise f).estop = s.estop := rfl
@[simp] theorem State.raise_resetLine (f : Flag) : (s.raise f).resetLine = s.resetLine := rfl
@[simp] theorem State.raise_backupLost (f : Flag) : (s.raise f).backupLost = s.backupLost := rfl
@[simp] theorem State.raise_freeCount (f : Flag) : (s.raise f).freeCount = s.freeCount := rfl
@[simp] theorem State.raise_pending (f : Flag) : (s.raise f).pending = s.pending := rfl

/-! ### raiseIf -/
@[simp] theorem State.raiseIf_powered (c : Bool) (f : Flag) : (s.raiseIf c f).powered = s.powered := by cases c <;> rfl
@[simp] theorem State.raiseIf_settings (c : Bool) (f : Flag) : (s.raiseIf c f).settings = s.settings := by cases c <;> rfl
@[simp] theorem State.raiseIf_bank0 (c : Bool) (f : Flag) : (s.raiseIf c f).bank0 = s.bank0 := by cases c <;> rfl
@[simp] theorem State.raiseIf_bank1 (c : Bool) (f : Flag) : (s.raiseIf c f).bank1 = s.bank1 := by cases c <;> rfl
@[simp] theorem State.raiseIf_currentBank (c : Bool) (f : Flag) : (s.raiseIf c f).currentBank = s.currentBank := by cases c <;> rfl
@[simp] theorem State.raiseIf_commit (c : Bool) (f : Flag) : (s.raiseIf c f).commit = s.commit := by cases c <;> rfl
@[simp] theorem State.raiseIf_commitResult (c : Bool) (f : Flag) : (s.raiseIf c f).commitResult = s.commitResult := by cases c <;> rfl
@[simp] theorem State.raiseIf_startKind (c : Bool) (f : Flag) : (s.raiseIf c f).startKind = s.startKind := by cases c <;> rfl
@[simp] theorem State.raiseIf_defaulted (c : Bool) (f : Flag) : (s.raiseIf c f).defaulted = s.defaulted := by cases c <;> rfl
@[simp] theorem State.raiseIf_timebase (c : Bool) (f : Flag) : (s.raiseIf c f).timebase = s.timebase := by cases c <;> rfl
@[simp] theorem State.raiseIf_terminalTime (c : Bool) (f : Flag) : (s.raiseIf c f).terminalTime = s.terminalTime := by cases c <;> rfl
@[simp] theorem State.raiseIf_timeValid (c : Bool) (f : Flag) : (s.raiseIf c f).timeValid = s.timeValid := by cases c <;> rfl
@[simp] theorem State.raiseIf_lots (c : Bool) (f : Flag) : (s.raiseIf c f).lots = s.lots := by cases c <;> rfl
@[simp] theorem State.raiseIf_lastLot (c : Bool) (f : Flag) : (s.raiseIf c f).lastLot = s.lastLot := by cases c <;> rfl
@[simp] theorem State.raiseIf_bins (c : Bool) (f : Flag) : (s.raiseIf c f).bins = s.bins := by cases c <;> rfl
@[simp] theorem State.raiseIf_channels (c : Bool) (f : Flag) : (s.raiseIf c f).channels = s.channels := by cases c <;> rfl
@[simp] theorem State.raiseIf_vehicles (c : Bool) (f : Flag) : (s.raiseIf c f).vehicles = s.vehicles := by cases c <;> rfl
@[simp] theorem State.raiseIf_tickets (c : Bool) (f : Flag) : (s.raiseIf c f).tickets = s.tickets := by cases c <;> rfl
@[simp] theorem State.raiseIf_nextTicket (c : Bool) (f : Flag) : (s.raiseIf c f).nextTicket = s.nextTicket := by cases c <;> rfl
@[simp] theorem State.raiseIf_lastClosed (c : Bool) (f : Flag) : (s.raiseIf c f).lastClosed = s.lastClosed := by cases c <;> rfl
@[simp] theorem State.raiseIf_lastExpired (c : Bool) (f : Flag) : (s.raiseIf c f).lastExpired = s.lastExpired := by cases c <;> rfl
@[simp] theorem State.raiseIf_dryer (c : Bool) (f : Flag) : (s.raiseIf c f).dryer = s.dryer := by cases c <;> rfl
@[simp] theorem State.raiseIf_legs (c : Bool) (f : Flag) : (s.raiseIf c f).legs = s.legs := by cases c <;> rfl
@[simp] theorem State.raiseIf_nextTransfer (c : Bool) (f : Flag) : (s.raiseIf c f).nextTransfer = s.nextTransfer := by cases c <;> rfl
@[simp] theorem State.raiseIf_schedules (c : Bool) (f : Flag) : (s.raiseIf c f).schedules = s.schedules := by cases c <;> rfl
@[simp] theorem State.raiseIf_berths (c : Bool) (f : Flag) : (s.raiseIf c f).berths = s.berths := by cases c <;> rfl
@[simp] theorem State.raiseIf_river (c : Bool) (f : Flag) : (s.raiseIf c f).river = s.river := by cases c <;> rfl
@[simp] theorem State.raiseIf_receiver (c : Bool) (f : Flag) : (s.raiseIf c f).receiver = s.receiver := by cases c <;> rfl
@[simp] theorem State.raiseIf_response (c : Bool) (f : Flag) : (s.raiseIf c f).response = s.response := by cases c <;> rfl
@[simp] theorem State.raiseIf_resetPending (c : Bool) (f : Flag) : (s.raiseIf c f).resetPending = s.resetPending := by cases c <;> rfl
@[simp] theorem State.raiseIf_estop (c : Bool) (f : Flag) : (s.raiseIf c f).estop = s.estop := by cases c <;> rfl
@[simp] theorem State.raiseIf_resetLine (c : Bool) (f : Flag) : (s.raiseIf c f).resetLine = s.resetLine := by cases c <;> rfl
@[simp] theorem State.raiseIf_backupLost (c : Bool) (f : Flag) : (s.raiseIf c f).backupLost = s.backupLost := by cases c <;> rfl
@[simp] theorem State.raiseIf_freeCount (c : Bool) (f : Flag) : (s.raiseIf c f).freeCount = s.freeCount := by cases c <;> rfl
@[simp] theorem State.raiseIf_pending (c : Bool) (f : Flag) : (s.raiseIf c f).pending = s.pending := by cases c <;> rfl

/-! ### lower -/
@[simp] theorem State.lower_powered (g : Fin 11) (m : BitVec 16) : (s.lower g m).powered = s.powered := rfl
@[simp] theorem State.lower_settings (g : Fin 11) (m : BitVec 16) : (s.lower g m).settings = s.settings := rfl
@[simp] theorem State.lower_bank0 (g : Fin 11) (m : BitVec 16) : (s.lower g m).bank0 = s.bank0 := rfl
@[simp] theorem State.lower_bank1 (g : Fin 11) (m : BitVec 16) : (s.lower g m).bank1 = s.bank1 := rfl
@[simp] theorem State.lower_currentBank (g : Fin 11) (m : BitVec 16) : (s.lower g m).currentBank = s.currentBank := rfl
@[simp] theorem State.lower_commit (g : Fin 11) (m : BitVec 16) : (s.lower g m).commit = s.commit := rfl
@[simp] theorem State.lower_commitResult (g : Fin 11) (m : BitVec 16) : (s.lower g m).commitResult = s.commitResult := rfl
@[simp] theorem State.lower_startKind (g : Fin 11) (m : BitVec 16) : (s.lower g m).startKind = s.startKind := rfl
@[simp] theorem State.lower_defaulted (g : Fin 11) (m : BitVec 16) : (s.lower g m).defaulted = s.defaulted := rfl
@[simp] theorem State.lower_timebase (g : Fin 11) (m : BitVec 16) : (s.lower g m).timebase = s.timebase := rfl
@[simp] theorem State.lower_terminalTime (g : Fin 11) (m : BitVec 16) : (s.lower g m).terminalTime = s.terminalTime := rfl
@[simp] theorem State.lower_timeValid (g : Fin 11) (m : BitVec 16) : (s.lower g m).timeValid = s.timeValid := rfl
@[simp] theorem State.lower_lots (g : Fin 11) (m : BitVec 16) : (s.lower g m).lots = s.lots := rfl
@[simp] theorem State.lower_lastLot (g : Fin 11) (m : BitVec 16) : (s.lower g m).lastLot = s.lastLot := rfl
@[simp] theorem State.lower_bins (g : Fin 11) (m : BitVec 16) : (s.lower g m).bins = s.bins := rfl
@[simp] theorem State.lower_channels (g : Fin 11) (m : BitVec 16) : (s.lower g m).channels = s.channels := rfl
@[simp] theorem State.lower_vehicles (g : Fin 11) (m : BitVec 16) : (s.lower g m).vehicles = s.vehicles := rfl
@[simp] theorem State.lower_tickets (g : Fin 11) (m : BitVec 16) : (s.lower g m).tickets = s.tickets := rfl
@[simp] theorem State.lower_nextTicket (g : Fin 11) (m : BitVec 16) : (s.lower g m).nextTicket = s.nextTicket := rfl
@[simp] theorem State.lower_lastClosed (g : Fin 11) (m : BitVec 16) : (s.lower g m).lastClosed = s.lastClosed := rfl
@[simp] theorem State.lower_lastExpired (g : Fin 11) (m : BitVec 16) : (s.lower g m).lastExpired = s.lastExpired := rfl
@[simp] theorem State.lower_dryer (g : Fin 11) (m : BitVec 16) : (s.lower g m).dryer = s.dryer := rfl
@[simp] theorem State.lower_legs (g : Fin 11) (m : BitVec 16) : (s.lower g m).legs = s.legs := rfl
@[simp] theorem State.lower_nextTransfer (g : Fin 11) (m : BitVec 16) : (s.lower g m).nextTransfer = s.nextTransfer := rfl
@[simp] theorem State.lower_schedules (g : Fin 11) (m : BitVec 16) : (s.lower g m).schedules = s.schedules := rfl
@[simp] theorem State.lower_berths (g : Fin 11) (m : BitVec 16) : (s.lower g m).berths = s.berths := rfl
@[simp] theorem State.lower_river (g : Fin 11) (m : BitVec 16) : (s.lower g m).river = s.river := rfl
@[simp] theorem State.lower_receiver (g : Fin 11) (m : BitVec 16) : (s.lower g m).receiver = s.receiver := rfl
@[simp] theorem State.lower_response (g : Fin 11) (m : BitVec 16) : (s.lower g m).response = s.response := rfl
@[simp] theorem State.lower_resetPending (g : Fin 11) (m : BitVec 16) : (s.lower g m).resetPending = s.resetPending := rfl
@[simp] theorem State.lower_estop (g : Fin 11) (m : BitVec 16) : (s.lower g m).estop = s.estop := rfl
@[simp] theorem State.lower_resetLine (g : Fin 11) (m : BitVec 16) : (s.lower g m).resetLine = s.resetLine := rfl
@[simp] theorem State.lower_backupLost (g : Fin 11) (m : BitVec 16) : (s.lower g m).backupLost = s.backupLost := rfl
@[simp] theorem State.lower_freeCount (g : Fin 11) (m : BitVec 16) : (s.lower g m).freeCount = s.freeCount := rfl
@[simp] theorem State.lower_pending (g : Fin 11) (m : BitVec 16) : (s.lower g m).pending = s.pending := rfl

/-! ### clearAllFlags -/
@[simp] theorem State.clearAllFlags_powered : s.clearAllFlags.powered = s.powered := rfl
@[simp] theorem State.clearAllFlags_settings : s.clearAllFlags.settings = s.settings := rfl
@[simp] theorem State.clearAllFlags_bank0 : s.clearAllFlags.bank0 = s.bank0 := rfl
@[simp] theorem State.clearAllFlags_bank1 : s.clearAllFlags.bank1 = s.bank1 := rfl
@[simp] theorem State.clearAllFlags_currentBank : s.clearAllFlags.currentBank = s.currentBank := rfl
@[simp] theorem State.clearAllFlags_commit : s.clearAllFlags.commit = s.commit := rfl
@[simp] theorem State.clearAllFlags_commitResult : s.clearAllFlags.commitResult = s.commitResult := rfl
@[simp] theorem State.clearAllFlags_startKind : s.clearAllFlags.startKind = s.startKind := rfl
@[simp] theorem State.clearAllFlags_defaulted : s.clearAllFlags.defaulted = s.defaulted := rfl
@[simp] theorem State.clearAllFlags_timebase : s.clearAllFlags.timebase = s.timebase := rfl
@[simp] theorem State.clearAllFlags_terminalTime : s.clearAllFlags.terminalTime = s.terminalTime := rfl
@[simp] theorem State.clearAllFlags_timeValid : s.clearAllFlags.timeValid = s.timeValid := rfl
@[simp] theorem State.clearAllFlags_lots : s.clearAllFlags.lots = s.lots := rfl
@[simp] theorem State.clearAllFlags_lastLot : s.clearAllFlags.lastLot = s.lastLot := rfl
@[simp] theorem State.clearAllFlags_bins : s.clearAllFlags.bins = s.bins := rfl
@[simp] theorem State.clearAllFlags_channels : s.clearAllFlags.channels = s.channels := rfl
@[simp] theorem State.clearAllFlags_vehicles : s.clearAllFlags.vehicles = s.vehicles := rfl
@[simp] theorem State.clearAllFlags_tickets : s.clearAllFlags.tickets = s.tickets := rfl
@[simp] theorem State.clearAllFlags_nextTicket : s.clearAllFlags.nextTicket = s.nextTicket := rfl
@[simp] theorem State.clearAllFlags_lastClosed : s.clearAllFlags.lastClosed = s.lastClosed := rfl
@[simp] theorem State.clearAllFlags_lastExpired : s.clearAllFlags.lastExpired = s.lastExpired := rfl
@[simp] theorem State.clearAllFlags_dryer : s.clearAllFlags.dryer = s.dryer := rfl
@[simp] theorem State.clearAllFlags_legs : s.clearAllFlags.legs = s.legs := rfl
@[simp] theorem State.clearAllFlags_nextTransfer : s.clearAllFlags.nextTransfer = s.nextTransfer := rfl
@[simp] theorem State.clearAllFlags_schedules : s.clearAllFlags.schedules = s.schedules := rfl
@[simp] theorem State.clearAllFlags_berths : s.clearAllFlags.berths = s.berths := rfl
@[simp] theorem State.clearAllFlags_river : s.clearAllFlags.river = s.river := rfl
@[simp] theorem State.clearAllFlags_receiver : s.clearAllFlags.receiver = s.receiver := rfl
@[simp] theorem State.clearAllFlags_response : s.clearAllFlags.response = s.response := rfl
@[simp] theorem State.clearAllFlags_resetPending : s.clearAllFlags.resetPending = s.resetPending := rfl
@[simp] theorem State.clearAllFlags_estop : s.clearAllFlags.estop = s.estop := rfl
@[simp] theorem State.clearAllFlags_resetLine : s.clearAllFlags.resetLine = s.resetLine := rfl
@[simp] theorem State.clearAllFlags_backupLost : s.clearAllFlags.backupLost = s.backupLost := rfl
@[simp] theorem State.clearAllFlags_freeCount : s.clearAllFlags.freeCount = s.freeCount := rfl
@[simp] theorem State.clearAllFlags_pending : s.clearAllFlags.pending = s.pending := rfl

/-! ### enableAll -/
@[simp] theorem State.enableAll_powered : s.enableAll.powered = s.powered := rfl
@[simp] theorem State.enableAll_settings : s.enableAll.settings = s.settings := rfl
@[simp] theorem State.enableAll_bank0 : s.enableAll.bank0 = s.bank0 := rfl
@[simp] theorem State.enableAll_bank1 : s.enableAll.bank1 = s.bank1 := rfl
@[simp] theorem State.enableAll_currentBank : s.enableAll.currentBank = s.currentBank := rfl
@[simp] theorem State.enableAll_commit : s.enableAll.commit = s.commit := rfl
@[simp] theorem State.enableAll_commitResult : s.enableAll.commitResult = s.commitResult := rfl
@[simp] theorem State.enableAll_startKind : s.enableAll.startKind = s.startKind := rfl
@[simp] theorem State.enableAll_defaulted : s.enableAll.defaulted = s.defaulted := rfl
@[simp] theorem State.enableAll_timebase : s.enableAll.timebase = s.timebase := rfl
@[simp] theorem State.enableAll_terminalTime : s.enableAll.terminalTime = s.terminalTime := rfl
@[simp] theorem State.enableAll_timeValid : s.enableAll.timeValid = s.timeValid := rfl
@[simp] theorem State.enableAll_lots : s.enableAll.lots = s.lots := rfl
@[simp] theorem State.enableAll_lastLot : s.enableAll.lastLot = s.lastLot := rfl
@[simp] theorem State.enableAll_bins : s.enableAll.bins = s.bins := rfl
@[simp] theorem State.enableAll_channels : s.enableAll.channels = s.channels := rfl
@[simp] theorem State.enableAll_vehicles : s.enableAll.vehicles = s.vehicles := rfl
@[simp] theorem State.enableAll_tickets : s.enableAll.tickets = s.tickets := rfl
@[simp] theorem State.enableAll_nextTicket : s.enableAll.nextTicket = s.nextTicket := rfl
@[simp] theorem State.enableAll_lastClosed : s.enableAll.lastClosed = s.lastClosed := rfl
@[simp] theorem State.enableAll_lastExpired : s.enableAll.lastExpired = s.lastExpired := rfl
@[simp] theorem State.enableAll_dryer : s.enableAll.dryer = s.dryer := rfl
@[simp] theorem State.enableAll_legs : s.enableAll.legs = s.legs := rfl
@[simp] theorem State.enableAll_nextTransfer : s.enableAll.nextTransfer = s.nextTransfer := rfl
@[simp] theorem State.enableAll_schedules : s.enableAll.schedules = s.schedules := rfl
@[simp] theorem State.enableAll_berths : s.enableAll.berths = s.berths := rfl
@[simp] theorem State.enableAll_river : s.enableAll.river = s.river := rfl
@[simp] theorem State.enableAll_receiver : s.enableAll.receiver = s.receiver := rfl
@[simp] theorem State.enableAll_response : s.enableAll.response = s.response := rfl
@[simp] theorem State.enableAll_resetPending : s.enableAll.resetPending = s.resetPending := rfl
@[simp] theorem State.enableAll_estop : s.enableAll.estop = s.estop := rfl
@[simp] theorem State.enableAll_resetLine : s.enableAll.resetLine = s.resetLine := rfl
@[simp] theorem State.enableAll_backupLost : s.enableAll.backupLost = s.backupLost := rfl
@[simp] theorem State.enableAll_freeCount : s.enableAll.freeCount = s.freeCount := rfl
@[simp] theorem State.enableAll_pending : s.enableAll.pending = s.pending := rfl

/-! ### setBinSet -/
@[simp] theorem State.setBinSet_powered (b : BinNo) (x : BinSettings) : (s.setBinSet b x).powered = s.powered := rfl
@[simp] theorem State.setBinSet_bank0 (b : BinNo) (x : BinSettings) : (s.setBinSet b x).bank0 = s.bank0 := rfl
@[simp] theorem State.setBinSet_bank1 (b : BinNo) (x : BinSettings) : (s.setBinSet b x).bank1 = s.bank1 := rfl
@[simp] theorem State.setBinSet_currentBank (b : BinNo) (x : BinSettings) : (s.setBinSet b x).currentBank = s.currentBank := rfl
@[simp] theorem State.setBinSet_commit (b : BinNo) (x : BinSettings) : (s.setBinSet b x).commit = s.commit := rfl
@[simp] theorem State.setBinSet_commitResult (b : BinNo) (x : BinSettings) : (s.setBinSet b x).commitResult = s.commitResult := rfl
@[simp] theorem State.setBinSet_startKind (b : BinNo) (x : BinSettings) : (s.setBinSet b x).startKind = s.startKind := rfl
@[simp] theorem State.setBinSet_defaulted (b : BinNo) (x : BinSettings) : (s.setBinSet b x).defaulted = s.defaulted := rfl
@[simp] theorem State.setBinSet_timebase (b : BinNo) (x : BinSettings) : (s.setBinSet b x).timebase = s.timebase := rfl
@[simp] theorem State.setBinSet_terminalTime (b : BinNo) (x : BinSettings) : (s.setBinSet b x).terminalTime = s.terminalTime := rfl
@[simp] theorem State.setBinSet_timeValid (b : BinNo) (x : BinSettings) : (s.setBinSet b x).timeValid = s.timeValid := rfl
@[simp] theorem State.setBinSet_lots (b : BinNo) (x : BinSettings) : (s.setBinSet b x).lots = s.lots := rfl
@[simp] theorem State.setBinSet_lastLot (b : BinNo) (x : BinSettings) : (s.setBinSet b x).lastLot = s.lastLot := rfl
@[simp] theorem State.setBinSet_bins (b : BinNo) (x : BinSettings) : (s.setBinSet b x).bins = s.bins := rfl
@[simp] theorem State.setBinSet_channels (b : BinNo) (x : BinSettings) : (s.setBinSet b x).channels = s.channels := rfl
@[simp] theorem State.setBinSet_vehicles (b : BinNo) (x : BinSettings) : (s.setBinSet b x).vehicles = s.vehicles := rfl
@[simp] theorem State.setBinSet_tickets (b : BinNo) (x : BinSettings) : (s.setBinSet b x).tickets = s.tickets := rfl
@[simp] theorem State.setBinSet_nextTicket (b : BinNo) (x : BinSettings) : (s.setBinSet b x).nextTicket = s.nextTicket := rfl
@[simp] theorem State.setBinSet_lastClosed (b : BinNo) (x : BinSettings) : (s.setBinSet b x).lastClosed = s.lastClosed := rfl
@[simp] theorem State.setBinSet_lastExpired (b : BinNo) (x : BinSettings) : (s.setBinSet b x).lastExpired = s.lastExpired := rfl
@[simp] theorem State.setBinSet_dryer (b : BinNo) (x : BinSettings) : (s.setBinSet b x).dryer = s.dryer := rfl
@[simp] theorem State.setBinSet_legs (b : BinNo) (x : BinSettings) : (s.setBinSet b x).legs = s.legs := rfl
@[simp] theorem State.setBinSet_nextTransfer (b : BinNo) (x : BinSettings) : (s.setBinSet b x).nextTransfer = s.nextTransfer := rfl
@[simp] theorem State.setBinSet_schedules (b : BinNo) (x : BinSettings) : (s.setBinSet b x).schedules = s.schedules := rfl
@[simp] theorem State.setBinSet_berths (b : BinNo) (x : BinSettings) : (s.setBinSet b x).berths = s.berths := rfl
@[simp] theorem State.setBinSet_river (b : BinNo) (x : BinSettings) : (s.setBinSet b x).river = s.river := rfl
@[simp] theorem State.setBinSet_events (b : BinNo) (x : BinSettings) : (s.setBinSet b x).events = s.events := rfl
@[simp] theorem State.setBinSet_receiver (b : BinNo) (x : BinSettings) : (s.setBinSet b x).receiver = s.receiver := rfl
@[simp] theorem State.setBinSet_response (b : BinNo) (x : BinSettings) : (s.setBinSet b x).response = s.response := rfl
@[simp] theorem State.setBinSet_resetPending (b : BinNo) (x : BinSettings) : (s.setBinSet b x).resetPending = s.resetPending := rfl
@[simp] theorem State.setBinSet_estop (b : BinNo) (x : BinSettings) : (s.setBinSet b x).estop = s.estop := rfl
@[simp] theorem State.setBinSet_resetLine (b : BinNo) (x : BinSettings) : (s.setBinSet b x).resetLine = s.resetLine := rfl
@[simp] theorem State.setBinSet_backupLost (b : BinNo) (x : BinSettings) : (s.setBinSet b x).backupLost = s.backupLost := rfl
@[simp] theorem State.setBinSet_freeCount (b : BinNo) (x : BinSettings) : (s.setBinSet b x).freeCount = s.freeCount := rfl
@[simp] theorem State.setBinSet_pending (b : BinNo) (x : BinSettings) : (s.setBinSet b x).pending = s.pending := rfl

/-! ### setScaleSet -/
@[simp] theorem State.setScaleSet_powered (c : ChannelNo) (x : ScaleSettings) : (s.setScaleSet c x).powered = s.powered := rfl
@[simp] theorem State.setScaleSet_bank0 (c : ChannelNo) (x : ScaleSettings) : (s.setScaleSet c x).bank0 = s.bank0 := rfl
@[simp] theorem State.setScaleSet_bank1 (c : ChannelNo) (x : ScaleSettings) : (s.setScaleSet c x).bank1 = s.bank1 := rfl
@[simp] theorem State.setScaleSet_currentBank (c : ChannelNo) (x : ScaleSettings) : (s.setScaleSet c x).currentBank = s.currentBank := rfl
@[simp] theorem State.setScaleSet_commit (c : ChannelNo) (x : ScaleSettings) : (s.setScaleSet c x).commit = s.commit := rfl
@[simp] theorem State.setScaleSet_commitResult (c : ChannelNo) (x : ScaleSettings) : (s.setScaleSet c x).commitResult = s.commitResult := rfl
@[simp] theorem State.setScaleSet_startKind (c : ChannelNo) (x : ScaleSettings) : (s.setScaleSet c x).startKind = s.startKind := rfl
@[simp] theorem State.setScaleSet_defaulted (c : ChannelNo) (x : ScaleSettings) : (s.setScaleSet c x).defaulted = s.defaulted := rfl
@[simp] theorem State.setScaleSet_timebase (c : ChannelNo) (x : ScaleSettings) : (s.setScaleSet c x).timebase = s.timebase := rfl
@[simp] theorem State.setScaleSet_terminalTime (c : ChannelNo) (x : ScaleSettings) : (s.setScaleSet c x).terminalTime = s.terminalTime := rfl
@[simp] theorem State.setScaleSet_timeValid (c : ChannelNo) (x : ScaleSettings) : (s.setScaleSet c x).timeValid = s.timeValid := rfl
@[simp] theorem State.setScaleSet_lots (c : ChannelNo) (x : ScaleSettings) : (s.setScaleSet c x).lots = s.lots := rfl
@[simp] theorem State.setScaleSet_lastLot (c : ChannelNo) (x : ScaleSettings) : (s.setScaleSet c x).lastLot = s.lastLot := rfl
@[simp] theorem State.setScaleSet_bins (c : ChannelNo) (x : ScaleSettings) : (s.setScaleSet c x).bins = s.bins := rfl
@[simp] theorem State.setScaleSet_channels (c : ChannelNo) (x : ScaleSettings) : (s.setScaleSet c x).channels = s.channels := rfl
@[simp] theorem State.setScaleSet_vehicles (c : ChannelNo) (x : ScaleSettings) : (s.setScaleSet c x).vehicles = s.vehicles := rfl
@[simp] theorem State.setScaleSet_tickets (c : ChannelNo) (x : ScaleSettings) : (s.setScaleSet c x).tickets = s.tickets := rfl
@[simp] theorem State.setScaleSet_nextTicket (c : ChannelNo) (x : ScaleSettings) : (s.setScaleSet c x).nextTicket = s.nextTicket := rfl
@[simp] theorem State.setScaleSet_lastClosed (c : ChannelNo) (x : ScaleSettings) : (s.setScaleSet c x).lastClosed = s.lastClosed := rfl
@[simp] theorem State.setScaleSet_lastExpired (c : ChannelNo) (x : ScaleSettings) : (s.setScaleSet c x).lastExpired = s.lastExpired := rfl
@[simp] theorem State.setScaleSet_dryer (c : ChannelNo) (x : ScaleSettings) : (s.setScaleSet c x).dryer = s.dryer := rfl
@[simp] theorem State.setScaleSet_legs (c : ChannelNo) (x : ScaleSettings) : (s.setScaleSet c x).legs = s.legs := rfl
@[simp] theorem State.setScaleSet_nextTransfer (c : ChannelNo) (x : ScaleSettings) : (s.setScaleSet c x).nextTransfer = s.nextTransfer := rfl
@[simp] theorem State.setScaleSet_schedules (c : ChannelNo) (x : ScaleSettings) : (s.setScaleSet c x).schedules = s.schedules := rfl
@[simp] theorem State.setScaleSet_berths (c : ChannelNo) (x : ScaleSettings) : (s.setScaleSet c x).berths = s.berths := rfl
@[simp] theorem State.setScaleSet_river (c : ChannelNo) (x : ScaleSettings) : (s.setScaleSet c x).river = s.river := rfl
@[simp] theorem State.setScaleSet_events (c : ChannelNo) (x : ScaleSettings) : (s.setScaleSet c x).events = s.events := rfl
@[simp] theorem State.setScaleSet_receiver (c : ChannelNo) (x : ScaleSettings) : (s.setScaleSet c x).receiver = s.receiver := rfl
@[simp] theorem State.setScaleSet_response (c : ChannelNo) (x : ScaleSettings) : (s.setScaleSet c x).response = s.response := rfl
@[simp] theorem State.setScaleSet_resetPending (c : ChannelNo) (x : ScaleSettings) : (s.setScaleSet c x).resetPending = s.resetPending := rfl
@[simp] theorem State.setScaleSet_estop (c : ChannelNo) (x : ScaleSettings) : (s.setScaleSet c x).estop = s.estop := rfl
@[simp] theorem State.setScaleSet_resetLine (c : ChannelNo) (x : ScaleSettings) : (s.setScaleSet c x).resetLine = s.resetLine := rfl
@[simp] theorem State.setScaleSet_backupLost (c : ChannelNo) (x : ScaleSettings) : (s.setScaleSet c x).backupLost = s.backupLost := rfl
@[simp] theorem State.setScaleSet_freeCount (c : ChannelNo) (x : ScaleSettings) : (s.setScaleSet c x).freeCount = s.freeCount := rfl
@[simp] theorem State.setScaleSet_pending (c : ChannelNo) (x : ScaleSettings) : (s.setScaleSet c x).pending = s.pending := rfl

/-! ### setStation -/
@[simp] theorem State.setStation_powered (n : StationNo) (x : Station) : (s.setStation n x).powered = s.powered := rfl
@[simp] theorem State.setStation_bank0 (n : StationNo) (x : Station) : (s.setStation n x).bank0 = s.bank0 := rfl
@[simp] theorem State.setStation_bank1 (n : StationNo) (x : Station) : (s.setStation n x).bank1 = s.bank1 := rfl
@[simp] theorem State.setStation_currentBank (n : StationNo) (x : Station) : (s.setStation n x).currentBank = s.currentBank := rfl
@[simp] theorem State.setStation_commit (n : StationNo) (x : Station) : (s.setStation n x).commit = s.commit := rfl
@[simp] theorem State.setStation_commitResult (n : StationNo) (x : Station) : (s.setStation n x).commitResult = s.commitResult := rfl
@[simp] theorem State.setStation_startKind (n : StationNo) (x : Station) : (s.setStation n x).startKind = s.startKind := rfl
@[simp] theorem State.setStation_defaulted (n : StationNo) (x : Station) : (s.setStation n x).defaulted = s.defaulted := rfl
@[simp] theorem State.setStation_timebase (n : StationNo) (x : Station) : (s.setStation n x).timebase = s.timebase := rfl
@[simp] theorem State.setStation_terminalTime (n : StationNo) (x : Station) : (s.setStation n x).terminalTime = s.terminalTime := rfl
@[simp] theorem State.setStation_timeValid (n : StationNo) (x : Station) : (s.setStation n x).timeValid = s.timeValid := rfl
@[simp] theorem State.setStation_lots (n : StationNo) (x : Station) : (s.setStation n x).lots = s.lots := rfl
@[simp] theorem State.setStation_lastLot (n : StationNo) (x : Station) : (s.setStation n x).lastLot = s.lastLot := rfl
@[simp] theorem State.setStation_bins (n : StationNo) (x : Station) : (s.setStation n x).bins = s.bins := rfl
@[simp] theorem State.setStation_channels (n : StationNo) (x : Station) : (s.setStation n x).channels = s.channels := rfl
@[simp] theorem State.setStation_vehicles (n : StationNo) (x : Station) : (s.setStation n x).vehicles = s.vehicles := rfl
@[simp] theorem State.setStation_tickets (n : StationNo) (x : Station) : (s.setStation n x).tickets = s.tickets := rfl
@[simp] theorem State.setStation_nextTicket (n : StationNo) (x : Station) : (s.setStation n x).nextTicket = s.nextTicket := rfl
@[simp] theorem State.setStation_lastClosed (n : StationNo) (x : Station) : (s.setStation n x).lastClosed = s.lastClosed := rfl
@[simp] theorem State.setStation_lastExpired (n : StationNo) (x : Station) : (s.setStation n x).lastExpired = s.lastExpired := rfl
@[simp] theorem State.setStation_dryer (n : StationNo) (x : Station) : (s.setStation n x).dryer = s.dryer := rfl
@[simp] theorem State.setStation_legs (n : StationNo) (x : Station) : (s.setStation n x).legs = s.legs := rfl
@[simp] theorem State.setStation_nextTransfer (n : StationNo) (x : Station) : (s.setStation n x).nextTransfer = s.nextTransfer := rfl
@[simp] theorem State.setStation_schedules (n : StationNo) (x : Station) : (s.setStation n x).schedules = s.schedules := rfl
@[simp] theorem State.setStation_berths (n : StationNo) (x : Station) : (s.setStation n x).berths = s.berths := rfl
@[simp] theorem State.setStation_river (n : StationNo) (x : Station) : (s.setStation n x).river = s.river := rfl
@[simp] theorem State.setStation_events (n : StationNo) (x : Station) : (s.setStation n x).events = s.events := rfl
@[simp] theorem State.setStation_receiver (n : StationNo) (x : Station) : (s.setStation n x).receiver = s.receiver := rfl
@[simp] theorem State.setStation_response (n : StationNo) (x : Station) : (s.setStation n x).response = s.response := rfl
@[simp] theorem State.setStation_resetPending (n : StationNo) (x : Station) : (s.setStation n x).resetPending = s.resetPending := rfl
@[simp] theorem State.setStation_estop (n : StationNo) (x : Station) : (s.setStation n x).estop = s.estop := rfl
@[simp] theorem State.setStation_resetLine (n : StationNo) (x : Station) : (s.setStation n x).resetLine = s.resetLine := rfl
@[simp] theorem State.setStation_backupLost (n : StationNo) (x : Station) : (s.setStation n x).backupLost = s.backupLost := rfl
@[simp] theorem State.setStation_freeCount (n : StationNo) (x : Station) : (s.setStation n x).freeCount = s.freeCount := rfl
@[simp] theorem State.setStation_pending (n : StationNo) (x : Station) : (s.setStation n x).pending = s.pending := rfl

/-! ### modLot -/
@[simp] theorem State.modLot_powered (n : Nat) (g : Lot → Lot) : (s.modLot n g).powered = s.powered := rfl
@[simp] theorem State.modLot_settings (n : Nat) (g : Lot → Lot) : (s.modLot n g).settings = s.settings := rfl
@[simp] theorem State.modLot_bank0 (n : Nat) (g : Lot → Lot) : (s.modLot n g).bank0 = s.bank0 := rfl
@[simp] theorem State.modLot_bank1 (n : Nat) (g : Lot → Lot) : (s.modLot n g).bank1 = s.bank1 := rfl
@[simp] theorem State.modLot_currentBank (n : Nat) (g : Lot → Lot) : (s.modLot n g).currentBank = s.currentBank := rfl
@[simp] theorem State.modLot_commit (n : Nat) (g : Lot → Lot) : (s.modLot n g).commit = s.commit := rfl
@[simp] theorem State.modLot_commitResult (n : Nat) (g : Lot → Lot) : (s.modLot n g).commitResult = s.commitResult := rfl
@[simp] theorem State.modLot_startKind (n : Nat) (g : Lot → Lot) : (s.modLot n g).startKind = s.startKind := rfl
@[simp] theorem State.modLot_defaulted (n : Nat) (g : Lot → Lot) : (s.modLot n g).defaulted = s.defaulted := rfl
@[simp] theorem State.modLot_timebase (n : Nat) (g : Lot → Lot) : (s.modLot n g).timebase = s.timebase := rfl
@[simp] theorem State.modLot_terminalTime (n : Nat) (g : Lot → Lot) : (s.modLot n g).terminalTime = s.terminalTime := rfl
@[simp] theorem State.modLot_timeValid (n : Nat) (g : Lot → Lot) : (s.modLot n g).timeValid = s.timeValid := rfl
@[simp] theorem State.modLot_lastLot (n : Nat) (g : Lot → Lot) : (s.modLot n g).lastLot = s.lastLot := rfl
@[simp] theorem State.modLot_bins (n : Nat) (g : Lot → Lot) : (s.modLot n g).bins = s.bins := rfl
@[simp] theorem State.modLot_channels (n : Nat) (g : Lot → Lot) : (s.modLot n g).channels = s.channels := rfl
@[simp] theorem State.modLot_vehicles (n : Nat) (g : Lot → Lot) : (s.modLot n g).vehicles = s.vehicles := rfl
@[simp] theorem State.modLot_tickets (n : Nat) (g : Lot → Lot) : (s.modLot n g).tickets = s.tickets := rfl
@[simp] theorem State.modLot_nextTicket (n : Nat) (g : Lot → Lot) : (s.modLot n g).nextTicket = s.nextTicket := rfl
@[simp] theorem State.modLot_lastClosed (n : Nat) (g : Lot → Lot) : (s.modLot n g).lastClosed = s.lastClosed := rfl
@[simp] theorem State.modLot_lastExpired (n : Nat) (g : Lot → Lot) : (s.modLot n g).lastExpired = s.lastExpired := rfl
@[simp] theorem State.modLot_dryer (n : Nat) (g : Lot → Lot) : (s.modLot n g).dryer = s.dryer := rfl
@[simp] theorem State.modLot_legs (n : Nat) (g : Lot → Lot) : (s.modLot n g).legs = s.legs := rfl
@[simp] theorem State.modLot_nextTransfer (n : Nat) (g : Lot → Lot) : (s.modLot n g).nextTransfer = s.nextTransfer := rfl
@[simp] theorem State.modLot_schedules (n : Nat) (g : Lot → Lot) : (s.modLot n g).schedules = s.schedules := rfl
@[simp] theorem State.modLot_berths (n : Nat) (g : Lot → Lot) : (s.modLot n g).berths = s.berths := rfl
@[simp] theorem State.modLot_river (n : Nat) (g : Lot → Lot) : (s.modLot n g).river = s.river := rfl
@[simp] theorem State.modLot_events (n : Nat) (g : Lot → Lot) : (s.modLot n g).events = s.events := rfl
@[simp] theorem State.modLot_receiver (n : Nat) (g : Lot → Lot) : (s.modLot n g).receiver = s.receiver := rfl
@[simp] theorem State.modLot_response (n : Nat) (g : Lot → Lot) : (s.modLot n g).response = s.response := rfl
@[simp] theorem State.modLot_resetPending (n : Nat) (g : Lot → Lot) : (s.modLot n g).resetPending = s.resetPending := rfl
@[simp] theorem State.modLot_estop (n : Nat) (g : Lot → Lot) : (s.modLot n g).estop = s.estop := rfl
@[simp] theorem State.modLot_resetLine (n : Nat) (g : Lot → Lot) : (s.modLot n g).resetLine = s.resetLine := rfl
@[simp] theorem State.modLot_backupLost (n : Nat) (g : Lot → Lot) : (s.modLot n g).backupLost = s.backupLost := rfl
@[simp] theorem State.modLot_freeCount (n : Nat) (g : Lot → Lot) : (s.modLot n g).freeCount = s.freeCount := rfl
@[simp] theorem State.modLot_pending (n : Nat) (g : Lot → Lot) : (s.modLot n g).pending = s.pending := rfl

/-! ### modTicket -/
@[simp] theorem State.modTicket_powered (n : Nat) (g : Ticket → Ticket) : (s.modTicket n g).powered = s.powered := rfl
@[simp] theorem State.modTicket_settings (n : Nat) (g : Ticket → Ticket) : (s.modTicket n g).settings = s.settings := rfl
@[simp] theorem State.modTicket_bank0 (n : Nat) (g : Ticket → Ticket) : (s.modTicket n g).bank0 = s.bank0 := rfl
@[simp] theorem State.modTicket_bank1 (n : Nat) (g : Ticket → Ticket) : (s.modTicket n g).bank1 = s.bank1 := rfl
@[simp] theorem State.modTicket_currentBank (n : Nat) (g : Ticket → Ticket) : (s.modTicket n g).currentBank = s.currentBank := rfl
@[simp] theorem State.modTicket_commit (n : Nat) (g : Ticket → Ticket) : (s.modTicket n g).commit = s.commit := rfl
@[simp] theorem State.modTicket_commitResult (n : Nat) (g : Ticket → Ticket) : (s.modTicket n g).commitResult = s.commitResult := rfl
@[simp] theorem State.modTicket_startKind (n : Nat) (g : Ticket → Ticket) : (s.modTicket n g).startKind = s.startKind := rfl
@[simp] theorem State.modTicket_defaulted (n : Nat) (g : Ticket → Ticket) : (s.modTicket n g).defaulted = s.defaulted := rfl
@[simp] theorem State.modTicket_timebase (n : Nat) (g : Ticket → Ticket) : (s.modTicket n g).timebase = s.timebase := rfl
@[simp] theorem State.modTicket_terminalTime (n : Nat) (g : Ticket → Ticket) : (s.modTicket n g).terminalTime = s.terminalTime := rfl
@[simp] theorem State.modTicket_timeValid (n : Nat) (g : Ticket → Ticket) : (s.modTicket n g).timeValid = s.timeValid := rfl
@[simp] theorem State.modTicket_lots (n : Nat) (g : Ticket → Ticket) : (s.modTicket n g).lots = s.lots := rfl
@[simp] theorem State.modTicket_lastLot (n : Nat) (g : Ticket → Ticket) : (s.modTicket n g).lastLot = s.lastLot := rfl
@[simp] theorem State.modTicket_bins (n : Nat) (g : Ticket → Ticket) : (s.modTicket n g).bins = s.bins := rfl
@[simp] theorem State.modTicket_channels (n : Nat) (g : Ticket → Ticket) : (s.modTicket n g).channels = s.channels := rfl
@[simp] theorem State.modTicket_vehicles (n : Nat) (g : Ticket → Ticket) : (s.modTicket n g).vehicles = s.vehicles := rfl
@[simp] theorem State.modTicket_nextTicket (n : Nat) (g : Ticket → Ticket) : (s.modTicket n g).nextTicket = s.nextTicket := rfl
@[simp] theorem State.modTicket_lastClosed (n : Nat) (g : Ticket → Ticket) : (s.modTicket n g).lastClosed = s.lastClosed := rfl
@[simp] theorem State.modTicket_lastExpired (n : Nat) (g : Ticket → Ticket) : (s.modTicket n g).lastExpired = s.lastExpired := rfl
@[simp] theorem State.modTicket_dryer (n : Nat) (g : Ticket → Ticket) : (s.modTicket n g).dryer = s.dryer := rfl
@[simp] theorem State.modTicket_legs (n : Nat) (g : Ticket → Ticket) : (s.modTicket n g).legs = s.legs := rfl
@[simp] theorem State.modTicket_nextTransfer (n : Nat) (g : Ticket → Ticket) : (s.modTicket n g).nextTransfer = s.nextTransfer := rfl
@[simp] theorem State.modTicket_schedules (n : Nat) (g : Ticket → Ticket) : (s.modTicket n g).schedules = s.schedules := rfl
@[simp] theorem State.modTicket_berths (n : Nat) (g : Ticket → Ticket) : (s.modTicket n g).berths = s.berths := rfl
@[simp] theorem State.modTicket_river (n : Nat) (g : Ticket → Ticket) : (s.modTicket n g).river = s.river := rfl
@[simp] theorem State.modTicket_events (n : Nat) (g : Ticket → Ticket) : (s.modTicket n g).events = s.events := rfl
@[simp] theorem State.modTicket_receiver (n : Nat) (g : Ticket → Ticket) : (s.modTicket n g).receiver = s.receiver := rfl
@[simp] theorem State.modTicket_response (n : Nat) (g : Ticket → Ticket) : (s.modTicket n g).response = s.response := rfl
@[simp] theorem State.modTicket_resetPending (n : Nat) (g : Ticket → Ticket) : (s.modTicket n g).resetPending = s.resetPending := rfl
@[simp] theorem State.modTicket_estop (n : Nat) (g : Ticket → Ticket) : (s.modTicket n g).estop = s.estop := rfl
@[simp] theorem State.modTicket_resetLine (n : Nat) (g : Ticket → Ticket) : (s.modTicket n g).resetLine = s.resetLine := rfl
@[simp] theorem State.modTicket_backupLost (n : Nat) (g : Ticket → Ticket) : (s.modTicket n g).backupLost = s.backupLost := rfl
@[simp] theorem State.modTicket_freeCount (n : Nat) (g : Ticket → Ticket) : (s.modTicket n g).freeCount = s.freeCount := rfl
@[simp] theorem State.modTicket_pending (n : Nat) (g : Ticket → Ticket) : (s.modTicket n g).pending = s.pending := rfl

/-! ### modVehicle -/
@[simp] theorem State.modVehicle_powered (v : List Byte) (g : Vehicle → Vehicle) : (s.modVehicle v g).powered = s.powered := rfl
@[simp] theorem State.modVehicle_settings (v : List Byte) (g : Vehicle → Vehicle) : (s.modVehicle v g).settings = s.settings := rfl
@[simp] theorem State.modVehicle_bank0 (v : List Byte) (g : Vehicle → Vehicle) : (s.modVehicle v g).bank0 = s.bank0 := rfl
@[simp] theorem State.modVehicle_bank1 (v : List Byte) (g : Vehicle → Vehicle) : (s.modVehicle v g).bank1 = s.bank1 := rfl
@[simp] theorem State.modVehicle_currentBank (v : List Byte) (g : Vehicle → Vehicle) : (s.modVehicle v g).currentBank = s.currentBank := rfl
@[simp] theorem State.modVehicle_commit (v : List Byte) (g : Vehicle → Vehicle) : (s.modVehicle v g).commit = s.commit := rfl
@[simp] theorem State.modVehicle_commitResult (v : List Byte) (g : Vehicle → Vehicle) : (s.modVehicle v g).commitResult = s.commitResult := rfl
@[simp] theorem State.modVehicle_startKind (v : List Byte) (g : Vehicle → Vehicle) : (s.modVehicle v g).startKind = s.startKind := rfl
@[simp] theorem State.modVehicle_defaulted (v : List Byte) (g : Vehicle → Vehicle) : (s.modVehicle v g).defaulted = s.defaulted := rfl
@[simp] theorem State.modVehicle_timebase (v : List Byte) (g : Vehicle → Vehicle) : (s.modVehicle v g).timebase = s.timebase := rfl
@[simp] theorem State.modVehicle_terminalTime (v : List Byte) (g : Vehicle → Vehicle) : (s.modVehicle v g).terminalTime = s.terminalTime := rfl
@[simp] theorem State.modVehicle_timeValid (v : List Byte) (g : Vehicle → Vehicle) : (s.modVehicle v g).timeValid = s.timeValid := rfl
@[simp] theorem State.modVehicle_lots (v : List Byte) (g : Vehicle → Vehicle) : (s.modVehicle v g).lots = s.lots := rfl
@[simp] theorem State.modVehicle_lastLot (v : List Byte) (g : Vehicle → Vehicle) : (s.modVehicle v g).lastLot = s.lastLot := rfl
@[simp] theorem State.modVehicle_bins (v : List Byte) (g : Vehicle → Vehicle) : (s.modVehicle v g).bins = s.bins := rfl
@[simp] theorem State.modVehicle_channels (v : List Byte) (g : Vehicle → Vehicle) : (s.modVehicle v g).channels = s.channels := rfl
@[simp] theorem State.modVehicle_tickets (v : List Byte) (g : Vehicle → Vehicle) : (s.modVehicle v g).tickets = s.tickets := rfl
@[simp] theorem State.modVehicle_nextTicket (v : List Byte) (g : Vehicle → Vehicle) : (s.modVehicle v g).nextTicket = s.nextTicket := rfl
@[simp] theorem State.modVehicle_lastClosed (v : List Byte) (g : Vehicle → Vehicle) : (s.modVehicle v g).lastClosed = s.lastClosed := rfl
@[simp] theorem State.modVehicle_lastExpired (v : List Byte) (g : Vehicle → Vehicle) : (s.modVehicle v g).lastExpired = s.lastExpired := rfl
@[simp] theorem State.modVehicle_dryer (v : List Byte) (g : Vehicle → Vehicle) : (s.modVehicle v g).dryer = s.dryer := rfl
@[simp] theorem State.modVehicle_legs (v : List Byte) (g : Vehicle → Vehicle) : (s.modVehicle v g).legs = s.legs := rfl
@[simp] theorem State.modVehicle_nextTransfer (v : List Byte) (g : Vehicle → Vehicle) : (s.modVehicle v g).nextTransfer = s.nextTransfer := rfl
@[simp] theorem State.modVehicle_schedules (v : List Byte) (g : Vehicle → Vehicle) : (s.modVehicle v g).schedules = s.schedules := rfl
@[simp] theorem State.modVehicle_berths (v : List Byte) (g : Vehicle → Vehicle) : (s.modVehicle v g).berths = s.berths := rfl
@[simp] theorem State.modVehicle_river (v : List Byte) (g : Vehicle → Vehicle) : (s.modVehicle v g).river = s.river := rfl
@[simp] theorem State.modVehicle_events (v : List Byte) (g : Vehicle → Vehicle) : (s.modVehicle v g).events = s.events := rfl
@[simp] theorem State.modVehicle_receiver (v : List Byte) (g : Vehicle → Vehicle) : (s.modVehicle v g).receiver = s.receiver := rfl
@[simp] theorem State.modVehicle_response (v : List Byte) (g : Vehicle → Vehicle) : (s.modVehicle v g).response = s.response := rfl
@[simp] theorem State.modVehicle_resetPending (v : List Byte) (g : Vehicle → Vehicle) : (s.modVehicle v g).resetPending = s.resetPending := rfl
@[simp] theorem State.modVehicle_estop (v : List Byte) (g : Vehicle → Vehicle) : (s.modVehicle v g).estop = s.estop := rfl
@[simp] theorem State.modVehicle_resetLine (v : List Byte) (g : Vehicle → Vehicle) : (s.modVehicle v g).resetLine = s.resetLine := rfl
@[simp] theorem State.modVehicle_backupLost (v : List Byte) (g : Vehicle → Vehicle) : (s.modVehicle v g).backupLost = s.backupLost := rfl
@[simp] theorem State.modVehicle_freeCount (v : List Byte) (g : Vehicle → Vehicle) : (s.modVehicle v g).freeCount = s.freeCount := rfl
@[simp] theorem State.modVehicle_pending (v : List Byte) (g : Vehicle → Vehicle) : (s.modVehicle v g).pending = s.pending := rfl

/-! ### setDryer -/
@[simp] theorem State.setDryer_powered (d : Dryer) : (s.setDryer d).powered = s.powered := rfl
@[simp] theorem State.setDryer_settings (d : Dryer) : (s.setDryer d).settings = s.settings := rfl
@[simp] theorem State.setDryer_bank0 (d : Dryer) : (s.setDryer d).bank0 = s.bank0 := rfl
@[simp] theorem State.setDryer_bank1 (d : Dryer) : (s.setDryer d).bank1 = s.bank1 := rfl
@[simp] theorem State.setDryer_currentBank (d : Dryer) : (s.setDryer d).currentBank = s.currentBank := rfl
@[simp] theorem State.setDryer_commit (d : Dryer) : (s.setDryer d).commit = s.commit := rfl
@[simp] theorem State.setDryer_commitResult (d : Dryer) : (s.setDryer d).commitResult = s.commitResult := rfl
@[simp] theorem State.setDryer_startKind (d : Dryer) : (s.setDryer d).startKind = s.startKind := rfl
@[simp] theorem State.setDryer_defaulted (d : Dryer) : (s.setDryer d).defaulted = s.defaulted := rfl
@[simp] theorem State.setDryer_timebase (d : Dryer) : (s.setDryer d).timebase = s.timebase := rfl
@[simp] theorem State.setDryer_terminalTime (d : Dryer) : (s.setDryer d).terminalTime = s.terminalTime := rfl
@[simp] theorem State.setDryer_timeValid (d : Dryer) : (s.setDryer d).timeValid = s.timeValid := rfl
@[simp] theorem State.setDryer_lots (d : Dryer) : (s.setDryer d).lots = s.lots := rfl
@[simp] theorem State.setDryer_lastLot (d : Dryer) : (s.setDryer d).lastLot = s.lastLot := rfl
@[simp] theorem State.setDryer_bins (d : Dryer) : (s.setDryer d).bins = s.bins := rfl
@[simp] theorem State.setDryer_channels (d : Dryer) : (s.setDryer d).channels = s.channels := rfl
@[simp] theorem State.setDryer_vehicles (d : Dryer) : (s.setDryer d).vehicles = s.vehicles := rfl
@[simp] theorem State.setDryer_tickets (d : Dryer) : (s.setDryer d).tickets = s.tickets := rfl
@[simp] theorem State.setDryer_nextTicket (d : Dryer) : (s.setDryer d).nextTicket = s.nextTicket := rfl
@[simp] theorem State.setDryer_lastClosed (d : Dryer) : (s.setDryer d).lastClosed = s.lastClosed := rfl
@[simp] theorem State.setDryer_lastExpired (d : Dryer) : (s.setDryer d).lastExpired = s.lastExpired := rfl
@[simp] theorem State.setDryer_legs (d : Dryer) : (s.setDryer d).legs = s.legs := rfl
@[simp] theorem State.setDryer_nextTransfer (d : Dryer) : (s.setDryer d).nextTransfer = s.nextTransfer := rfl
@[simp] theorem State.setDryer_schedules (d : Dryer) : (s.setDryer d).schedules = s.schedules := rfl
@[simp] theorem State.setDryer_berths (d : Dryer) : (s.setDryer d).berths = s.berths := rfl
@[simp] theorem State.setDryer_river (d : Dryer) : (s.setDryer d).river = s.river := rfl
@[simp] theorem State.setDryer_events (d : Dryer) : (s.setDryer d).events = s.events := rfl
@[simp] theorem State.setDryer_receiver (d : Dryer) : (s.setDryer d).receiver = s.receiver := rfl
@[simp] theorem State.setDryer_response (d : Dryer) : (s.setDryer d).response = s.response := rfl
@[simp] theorem State.setDryer_resetPending (d : Dryer) : (s.setDryer d).resetPending = s.resetPending := rfl
@[simp] theorem State.setDryer_estop (d : Dryer) : (s.setDryer d).estop = s.estop := rfl
@[simp] theorem State.setDryer_resetLine (d : Dryer) : (s.setDryer d).resetLine = s.resetLine := rfl
@[simp] theorem State.setDryer_backupLost (d : Dryer) : (s.setDryer d).backupLost = s.backupLost := rfl
@[simp] theorem State.setDryer_freeCount (d : Dryer) : (s.setDryer d).freeCount = s.freeCount := rfl
@[simp] theorem State.setDryer_pending (d : Dryer) : (s.setDryer d).pending = s.pending := rfl

/-! ### reevaluate -/
@[simp] theorem State.reevaluate_powered (b : BinNo) : (s.reevaluate b).powered = s.powered := rfl
@[simp] theorem State.reevaluate_settings (b : BinNo) : (s.reevaluate b).settings = s.settings := rfl
@[simp] theorem State.reevaluate_bank0 (b : BinNo) : (s.reevaluate b).bank0 = s.bank0 := rfl
@[simp] theorem State.reevaluate_bank1 (b : BinNo) : (s.reevaluate b).bank1 = s.bank1 := rfl
@[simp] theorem State.reevaluate_currentBank (b : BinNo) : (s.reevaluate b).currentBank = s.currentBank := rfl
@[simp] theorem State.reevaluate_commit (b : BinNo) : (s.reevaluate b).commit = s.commit := rfl
@[simp] theorem State.reevaluate_commitResult (b : BinNo) : (s.reevaluate b).commitResult = s.commitResult := rfl
@[simp] theorem State.reevaluate_startKind (b : BinNo) : (s.reevaluate b).startKind = s.startKind := rfl
@[simp] theorem State.reevaluate_defaulted (b : BinNo) : (s.reevaluate b).defaulted = s.defaulted := rfl
@[simp] theorem State.reevaluate_timebase (b : BinNo) : (s.reevaluate b).timebase = s.timebase := rfl
@[simp] theorem State.reevaluate_terminalTime (b : BinNo) : (s.reevaluate b).terminalTime = s.terminalTime := rfl
@[simp] theorem State.reevaluate_timeValid (b : BinNo) : (s.reevaluate b).timeValid = s.timeValid := rfl
@[simp] theorem State.reevaluate_lots (b : BinNo) : (s.reevaluate b).lots = s.lots := rfl
@[simp] theorem State.reevaluate_lastLot (b : BinNo) : (s.reevaluate b).lastLot = s.lastLot := rfl
@[simp] theorem State.reevaluate_channels (b : BinNo) : (s.reevaluate b).channels = s.channels := rfl
@[simp] theorem State.reevaluate_vehicles (b : BinNo) : (s.reevaluate b).vehicles = s.vehicles := rfl
@[simp] theorem State.reevaluate_tickets (b : BinNo) : (s.reevaluate b).tickets = s.tickets := rfl
@[simp] theorem State.reevaluate_nextTicket (b : BinNo) : (s.reevaluate b).nextTicket = s.nextTicket := rfl
@[simp] theorem State.reevaluate_lastClosed (b : BinNo) : (s.reevaluate b).lastClosed = s.lastClosed := rfl
@[simp] theorem State.reevaluate_lastExpired (b : BinNo) : (s.reevaluate b).lastExpired = s.lastExpired := rfl
@[simp] theorem State.reevaluate_dryer (b : BinNo) : (s.reevaluate b).dryer = s.dryer := rfl
@[simp] theorem State.reevaluate_legs (b : BinNo) : (s.reevaluate b).legs = s.legs := rfl
@[simp] theorem State.reevaluate_nextTransfer (b : BinNo) : (s.reevaluate b).nextTransfer = s.nextTransfer := rfl
@[simp] theorem State.reevaluate_schedules (b : BinNo) : (s.reevaluate b).schedules = s.schedules := rfl
@[simp] theorem State.reevaluate_berths (b : BinNo) : (s.reevaluate b).berths = s.berths := rfl
@[simp] theorem State.reevaluate_river (b : BinNo) : (s.reevaluate b).river = s.river := rfl
@[simp] theorem State.reevaluate_events (b : BinNo) : (s.reevaluate b).events = s.events := rfl
@[simp] theorem State.reevaluate_receiver (b : BinNo) : (s.reevaluate b).receiver = s.receiver := rfl
@[simp] theorem State.reevaluate_response (b : BinNo) : (s.reevaluate b).response = s.response := rfl
@[simp] theorem State.reevaluate_resetPending (b : BinNo) : (s.reevaluate b).resetPending = s.resetPending := rfl
@[simp] theorem State.reevaluate_estop (b : BinNo) : (s.reevaluate b).estop = s.estop := rfl
@[simp] theorem State.reevaluate_resetLine (b : BinNo) : (s.reevaluate b).resetLine = s.resetLine := rfl
@[simp] theorem State.reevaluate_backupLost (b : BinNo) : (s.reevaluate b).backupLost = s.backupLost := rfl
@[simp] theorem State.reevaluate_freeCount (b : BinNo) : (s.reevaluate b).freeCount = s.freeCount := rfl
@[simp] theorem State.reevaluate_pending (b : BinNo) : (s.reevaluate b).pending = s.pending := rfl

/-! ### release -/
@[simp] theorem State.release_powered (b : BinNo) (w : HolderRef) : (s.release b w).powered = s.powered := rfl
@[simp] theorem State.release_settings (b : BinNo) (w : HolderRef) : (s.release b w).settings = s.settings := rfl
@[simp] theorem State.release_bank0 (b : BinNo) (w : HolderRef) : (s.release b w).bank0 = s.bank0 := rfl
@[simp] theorem State.release_bank1 (b : BinNo) (w : HolderRef) : (s.release b w).bank1 = s.bank1 := rfl
@[simp] theorem State.release_currentBank (b : BinNo) (w : HolderRef) : (s.release b w).currentBank = s.currentBank := rfl
@[simp] theorem State.release_commit (b : BinNo) (w : HolderRef) : (s.release b w).commit = s.commit := rfl
@[simp] theorem State.release_commitResult (b : BinNo) (w : HolderRef) : (s.release b w).commitResult = s.commitResult := rfl
@[simp] theorem State.release_startKind (b : BinNo) (w : HolderRef) : (s.release b w).startKind = s.startKind := rfl
@[simp] theorem State.release_defaulted (b : BinNo) (w : HolderRef) : (s.release b w).defaulted = s.defaulted := rfl
@[simp] theorem State.release_timebase (b : BinNo) (w : HolderRef) : (s.release b w).timebase = s.timebase := rfl
@[simp] theorem State.release_terminalTime (b : BinNo) (w : HolderRef) : (s.release b w).terminalTime = s.terminalTime := rfl
@[simp] theorem State.release_timeValid (b : BinNo) (w : HolderRef) : (s.release b w).timeValid = s.timeValid := rfl
@[simp] theorem State.release_lots (b : BinNo) (w : HolderRef) : (s.release b w).lots = s.lots := rfl
@[simp] theorem State.release_lastLot (b : BinNo) (w : HolderRef) : (s.release b w).lastLot = s.lastLot := rfl
@[simp] theorem State.release_channels (b : BinNo) (w : HolderRef) : (s.release b w).channels = s.channels := rfl
@[simp] theorem State.release_vehicles (b : BinNo) (w : HolderRef) : (s.release b w).vehicles = s.vehicles := rfl
@[simp] theorem State.release_tickets (b : BinNo) (w : HolderRef) : (s.release b w).tickets = s.tickets := rfl
@[simp] theorem State.release_nextTicket (b : BinNo) (w : HolderRef) : (s.release b w).nextTicket = s.nextTicket := rfl
@[simp] theorem State.release_lastClosed (b : BinNo) (w : HolderRef) : (s.release b w).lastClosed = s.lastClosed := rfl
@[simp] theorem State.release_lastExpired (b : BinNo) (w : HolderRef) : (s.release b w).lastExpired = s.lastExpired := rfl
@[simp] theorem State.release_dryer (b : BinNo) (w : HolderRef) : (s.release b w).dryer = s.dryer := rfl
@[simp] theorem State.release_legs (b : BinNo) (w : HolderRef) : (s.release b w).legs = s.legs := rfl
@[simp] theorem State.release_nextTransfer (b : BinNo) (w : HolderRef) : (s.release b w).nextTransfer = s.nextTransfer := rfl
@[simp] theorem State.release_schedules (b : BinNo) (w : HolderRef) : (s.release b w).schedules = s.schedules := rfl
@[simp] theorem State.release_berths (b : BinNo) (w : HolderRef) : (s.release b w).berths = s.berths := rfl
@[simp] theorem State.release_river (b : BinNo) (w : HolderRef) : (s.release b w).river = s.river := rfl
@[simp] theorem State.release_events (b : BinNo) (w : HolderRef) : (s.release b w).events = s.events := rfl
@[simp] theorem State.release_receiver (b : BinNo) (w : HolderRef) : (s.release b w).receiver = s.receiver := rfl
@[simp] theorem State.release_response (b : BinNo) (w : HolderRef) : (s.release b w).response = s.response := rfl
@[simp] theorem State.release_resetPending (b : BinNo) (w : HolderRef) : (s.release b w).resetPending = s.resetPending := rfl
@[simp] theorem State.release_estop (b : BinNo) (w : HolderRef) : (s.release b w).estop = s.estop := rfl
@[simp] theorem State.release_resetLine (b : BinNo) (w : HolderRef) : (s.release b w).resetLine = s.resetLine := rfl
@[simp] theorem State.release_backupLost (b : BinNo) (w : HolderRef) : (s.release b w).backupLost = s.backupLost := rfl
@[simp] theorem State.release_freeCount (b : BinNo) (w : HolderRef) : (s.release b w).freeCount = s.freeCount := rfl
@[simp] theorem State.release_pending (b : BinNo) (w : HolderRef) : (s.release b w).pending = s.pending := rfl

/-! ### handOver -/
@[simp] theorem State.handOver_powered (b : BinNo) (v w : HolderRef) : (s.handOver b v w).powered = s.powered := rfl
@[simp] theorem State.handOver_settings (b : BinNo) (v w : HolderRef) : (s.handOver b v w).settings = s.settings := rfl
@[simp] theorem State.handOver_bank0 (b : BinNo) (v w : HolderRef) : (s.handOver b v w).bank0 = s.bank0 := rfl
@[simp] theorem State.handOver_bank1 (b : BinNo) (v w : HolderRef) : (s.handOver b v w).bank1 = s.bank1 := rfl
@[simp] theorem State.handOver_currentBank (b : BinNo) (v w : HolderRef) : (s.handOver b v w).currentBank = s.currentBank := rfl
@[simp] theorem State.handOver_commit (b : BinNo) (v w : HolderRef) : (s.handOver b v w).commit = s.commit := rfl
@[simp] theorem State.handOver_commitResult (b : BinNo) (v w : HolderRef) : (s.handOver b v w).commitResult = s.commitResult := rfl
@[simp] theorem State.handOver_startKind (b : BinNo) (v w : HolderRef) : (s.handOver b v w).startKind = s.startKind := rfl
@[simp] theorem State.handOver_defaulted (b : BinNo) (v w : HolderRef) : (s.handOver b v w).defaulted = s.defaulted := rfl
@[simp] theorem State.handOver_timebase (b : BinNo) (v w : HolderRef) : (s.handOver b v w).timebase = s.timebase := rfl
@[simp] theorem State.handOver_terminalTime (b : BinNo) (v w : HolderRef) : (s.handOver b v w).terminalTime = s.terminalTime := rfl
@[simp] theorem State.handOver_timeValid (b : BinNo) (v w : HolderRef) : (s.handOver b v w).timeValid = s.timeValid := rfl
@[simp] theorem State.handOver_lots (b : BinNo) (v w : HolderRef) : (s.handOver b v w).lots = s.lots := rfl
@[simp] theorem State.handOver_lastLot (b : BinNo) (v w : HolderRef) : (s.handOver b v w).lastLot = s.lastLot := rfl
@[simp] theorem State.handOver_channels (b : BinNo) (v w : HolderRef) : (s.handOver b v w).channels = s.channels := rfl
@[simp] theorem State.handOver_vehicles (b : BinNo) (v w : HolderRef) : (s.handOver b v w).vehicles = s.vehicles := rfl
@[simp] theorem State.handOver_tickets (b : BinNo) (v w : HolderRef) : (s.handOver b v w).tickets = s.tickets := rfl
@[simp] theorem State.handOver_nextTicket (b : BinNo) (v w : HolderRef) : (s.handOver b v w).nextTicket = s.nextTicket := rfl
@[simp] theorem State.handOver_lastClosed (b : BinNo) (v w : HolderRef) : (s.handOver b v w).lastClosed = s.lastClosed := rfl
@[simp] theorem State.handOver_lastExpired (b : BinNo) (v w : HolderRef) : (s.handOver b v w).lastExpired = s.lastExpired := rfl
@[simp] theorem State.handOver_dryer (b : BinNo) (v w : HolderRef) : (s.handOver b v w).dryer = s.dryer := rfl
@[simp] theorem State.handOver_legs (b : BinNo) (v w : HolderRef) : (s.handOver b v w).legs = s.legs := rfl
@[simp] theorem State.handOver_nextTransfer (b : BinNo) (v w : HolderRef) : (s.handOver b v w).nextTransfer = s.nextTransfer := rfl
@[simp] theorem State.handOver_schedules (b : BinNo) (v w : HolderRef) : (s.handOver b v w).schedules = s.schedules := rfl
@[simp] theorem State.handOver_berths (b : BinNo) (v w : HolderRef) : (s.handOver b v w).berths = s.berths := rfl
@[simp] theorem State.handOver_river (b : BinNo) (v w : HolderRef) : (s.handOver b v w).river = s.river := rfl
@[simp] theorem State.handOver_events (b : BinNo) (v w : HolderRef) : (s.handOver b v w).events = s.events := rfl
@[simp] theorem State.handOver_receiver (b : BinNo) (v w : HolderRef) : (s.handOver b v w).receiver = s.receiver := rfl
@[simp] theorem State.handOver_response (b : BinNo) (v w : HolderRef) : (s.handOver b v w).response = s.response := rfl
@[simp] theorem State.handOver_resetPending (b : BinNo) (v w : HolderRef) : (s.handOver b v w).resetPending = s.resetPending := rfl
@[simp] theorem State.handOver_estop (b : BinNo) (v w : HolderRef) : (s.handOver b v w).estop = s.estop := rfl
@[simp] theorem State.handOver_resetLine (b : BinNo) (v w : HolderRef) : (s.handOver b v w).resetLine = s.resetLine := rfl
@[simp] theorem State.handOver_backupLost (b : BinNo) (v w : HolderRef) : (s.handOver b v w).backupLost = s.backupLost := rfl
@[simp] theorem State.handOver_freeCount (b : BinNo) (v w : HolderRef) : (s.handOver b v w).freeCount = s.freeCount := rfl
@[simp] theorem State.handOver_pending (b : BinNo) (v w : HolderRef) : (s.handOver b v w).pending = s.pending := rfl

/-! ### returnSlots -/
@[simp] theorem State.returnSlots_powered (b : BinNo) (w : HolderRef) (n : Nat) : (s.returnSlots b w n).powered = s.powered := rfl
@[simp] theorem State.returnSlots_settings (b : BinNo) (w : HolderRef) (n : Nat) : (s.returnSlots b w n).settings = s.settings := rfl
@[simp] theorem State.returnSlots_bank0 (b : BinNo) (w : HolderRef) (n : Nat) : (s.returnSlots b w n).bank0 = s.bank0 := rfl
@[simp] theorem State.returnSlots_bank1 (b : BinNo) (w : HolderRef) (n : Nat) : (s.returnSlots b w n).bank1 = s.bank1 := rfl
@[simp] theorem State.returnSlots_currentBank (b : BinNo) (w : HolderRef) (n : Nat) : (s.returnSlots b w n).currentBank = s.currentBank := rfl
@[simp] theorem State.returnSlots_commit (b : BinNo) (w : HolderRef) (n : Nat) : (s.returnSlots b w n).commit = s.commit := rfl
@[simp] theorem State.returnSlots_commitResult (b : BinNo) (w : HolderRef) (n : Nat) : (s.returnSlots b w n).commitResult = s.commitResult := rfl
@[simp] theorem State.returnSlots_startKind (b : BinNo) (w : HolderRef) (n : Nat) : (s.returnSlots b w n).startKind = s.startKind := rfl
@[simp] theorem State.returnSlots_defaulted (b : BinNo) (w : HolderRef) (n : Nat) : (s.returnSlots b w n).defaulted = s.defaulted := rfl
@[simp] theorem State.returnSlots_timebase (b : BinNo) (w : HolderRef) (n : Nat) : (s.returnSlots b w n).timebase = s.timebase := rfl
@[simp] theorem State.returnSlots_terminalTime (b : BinNo) (w : HolderRef) (n : Nat) : (s.returnSlots b w n).terminalTime = s.terminalTime := rfl
@[simp] theorem State.returnSlots_timeValid (b : BinNo) (w : HolderRef) (n : Nat) : (s.returnSlots b w n).timeValid = s.timeValid := rfl
@[simp] theorem State.returnSlots_lots (b : BinNo) (w : HolderRef) (n : Nat) : (s.returnSlots b w n).lots = s.lots := rfl
@[simp] theorem State.returnSlots_lastLot (b : BinNo) (w : HolderRef) (n : Nat) : (s.returnSlots b w n).lastLot = s.lastLot := rfl
@[simp] theorem State.returnSlots_channels (b : BinNo) (w : HolderRef) (n : Nat) : (s.returnSlots b w n).channels = s.channels := rfl
@[simp] theorem State.returnSlots_vehicles (b : BinNo) (w : HolderRef) (n : Nat) : (s.returnSlots b w n).vehicles = s.vehicles := rfl
@[simp] theorem State.returnSlots_tickets (b : BinNo) (w : HolderRef) (n : Nat) : (s.returnSlots b w n).tickets = s.tickets := rfl
@[simp] theorem State.returnSlots_nextTicket (b : BinNo) (w : HolderRef) (n : Nat) : (s.returnSlots b w n).nextTicket = s.nextTicket := rfl
@[simp] theorem State.returnSlots_lastClosed (b : BinNo) (w : HolderRef) (n : Nat) : (s.returnSlots b w n).lastClosed = s.lastClosed := rfl
@[simp] theorem State.returnSlots_lastExpired (b : BinNo) (w : HolderRef) (n : Nat) : (s.returnSlots b w n).lastExpired = s.lastExpired := rfl
@[simp] theorem State.returnSlots_dryer (b : BinNo) (w : HolderRef) (n : Nat) : (s.returnSlots b w n).dryer = s.dryer := rfl
@[simp] theorem State.returnSlots_legs (b : BinNo) (w : HolderRef) (n : Nat) : (s.returnSlots b w n).legs = s.legs := rfl
@[simp] theorem State.returnSlots_nextTransfer (b : BinNo) (w : HolderRef) (n : Nat) : (s.returnSlots b w n).nextTransfer = s.nextTransfer := rfl
@[simp] theorem State.returnSlots_schedules (b : BinNo) (w : HolderRef) (n : Nat) : (s.returnSlots b w n).schedules = s.schedules := rfl
@[simp] theorem State.returnSlots_berths (b : BinNo) (w : HolderRef) (n : Nat) : (s.returnSlots b w n).berths = s.berths := rfl
@[simp] theorem State.returnSlots_river (b : BinNo) (w : HolderRef) (n : Nat) : (s.returnSlots b w n).river = s.river := rfl
@[simp] theorem State.returnSlots_events (b : BinNo) (w : HolderRef) (n : Nat) : (s.returnSlots b w n).events = s.events := rfl
@[simp] theorem State.returnSlots_receiver (b : BinNo) (w : HolderRef) (n : Nat) : (s.returnSlots b w n).receiver = s.receiver := rfl
@[simp] theorem State.returnSlots_response (b : BinNo) (w : HolderRef) (n : Nat) : (s.returnSlots b w n).response = s.response := rfl
@[simp] theorem State.returnSlots_resetPending (b : BinNo) (w : HolderRef) (n : Nat) : (s.returnSlots b w n).resetPending = s.resetPending := rfl
@[simp] theorem State.returnSlots_estop (b : BinNo) (w : HolderRef) (n : Nat) : (s.returnSlots b w n).estop = s.estop := rfl
@[simp] theorem State.returnSlots_resetLine (b : BinNo) (w : HolderRef) (n : Nat) : (s.returnSlots b w n).resetLine = s.resetLine := rfl
@[simp] theorem State.returnSlots_backupLost (b : BinNo) (w : HolderRef) (n : Nat) : (s.returnSlots b w n).backupLost = s.backupLost := rfl
@[simp] theorem State.returnSlots_freeCount (b : BinNo) (w : HolderRef) (n : Nat) : (s.returnSlots b w n).freeCount = s.freeCount := rfl
@[simp] theorem State.returnSlots_pending (b : BinNo) (w : HolderRef) (n : Nat) : (s.returnSlots b w n).pending = s.pending := rfl

/-! ### noteOverfull -/
@[simp] theorem State.noteOverfull_powered (v : Bool) (b : BinNo) : (s.noteOverfull v b).powered = s.powered := by cases v <;> unfold State.noteOverfull State.raiseIf <;> split <;> rfl
@[simp] theorem State.noteOverfull_settings (v : Bool) (b : BinNo) : (s.noteOverfull v b).settings = s.settings := by cases v <;> unfold State.noteOverfull State.raiseIf <;> split <;> rfl
@[simp] theorem State.noteOverfull_bank0 (v : Bool) (b : BinNo) : (s.noteOverfull v b).bank0 = s.bank0 := by cases v <;> unfold State.noteOverfull State.raiseIf <;> split <;> rfl
@[simp] theorem State.noteOverfull_bank1 (v : Bool) (b : BinNo) : (s.noteOverfull v b).bank1 = s.bank1 := by cases v <;> unfold State.noteOverfull State.raiseIf <;> split <;> rfl
@[simp] theorem State.noteOverfull_currentBank (v : Bool) (b : BinNo) : (s.noteOverfull v b).currentBank = s.currentBank := by cases v <;> unfold State.noteOverfull State.raiseIf <;> split <;> rfl
@[simp] theorem State.noteOverfull_commit (v : Bool) (b : BinNo) : (s.noteOverfull v b).commit = s.commit := by cases v <;> unfold State.noteOverfull State.raiseIf <;> split <;> rfl
@[simp] theorem State.noteOverfull_commitResult (v : Bool) (b : BinNo) : (s.noteOverfull v b).commitResult = s.commitResult := by cases v <;> unfold State.noteOverfull State.raiseIf <;> split <;> rfl
@[simp] theorem State.noteOverfull_startKind (v : Bool) (b : BinNo) : (s.noteOverfull v b).startKind = s.startKind := by cases v <;> unfold State.noteOverfull State.raiseIf <;> split <;> rfl
@[simp] theorem State.noteOverfull_defaulted (v : Bool) (b : BinNo) : (s.noteOverfull v b).defaulted = s.defaulted := by cases v <;> unfold State.noteOverfull State.raiseIf <;> split <;> rfl
@[simp] theorem State.noteOverfull_timebase (v : Bool) (b : BinNo) : (s.noteOverfull v b).timebase = s.timebase := by cases v <;> unfold State.noteOverfull State.raiseIf <;> split <;> rfl
@[simp] theorem State.noteOverfull_terminalTime (v : Bool) (b : BinNo) : (s.noteOverfull v b).terminalTime = s.terminalTime := by cases v <;> unfold State.noteOverfull State.raiseIf <;> split <;> rfl
@[simp] theorem State.noteOverfull_timeValid (v : Bool) (b : BinNo) : (s.noteOverfull v b).timeValid = s.timeValid := by cases v <;> unfold State.noteOverfull State.raiseIf <;> split <;> rfl
@[simp] theorem State.noteOverfull_lots (v : Bool) (b : BinNo) : (s.noteOverfull v b).lots = s.lots := by cases v <;> unfold State.noteOverfull State.raiseIf <;> split <;> rfl
@[simp] theorem State.noteOverfull_lastLot (v : Bool) (b : BinNo) : (s.noteOverfull v b).lastLot = s.lastLot := by cases v <;> unfold State.noteOverfull State.raiseIf <;> split <;> rfl
@[simp] theorem State.noteOverfull_bins (v : Bool) (b : BinNo) : (s.noteOverfull v b).bins = s.bins := by cases v <;> unfold State.noteOverfull State.raiseIf <;> split <;> rfl
@[simp] theorem State.noteOverfull_channels (v : Bool) (b : BinNo) : (s.noteOverfull v b).channels = s.channels := by cases v <;> unfold State.noteOverfull State.raiseIf <;> split <;> rfl
@[simp] theorem State.noteOverfull_vehicles (v : Bool) (b : BinNo) : (s.noteOverfull v b).vehicles = s.vehicles := by cases v <;> unfold State.noteOverfull State.raiseIf <;> split <;> rfl
@[simp] theorem State.noteOverfull_tickets (v : Bool) (b : BinNo) : (s.noteOverfull v b).tickets = s.tickets := by cases v <;> unfold State.noteOverfull State.raiseIf <;> split <;> rfl
@[simp] theorem State.noteOverfull_nextTicket (v : Bool) (b : BinNo) : (s.noteOverfull v b).nextTicket = s.nextTicket := by cases v <;> unfold State.noteOverfull State.raiseIf <;> split <;> rfl
@[simp] theorem State.noteOverfull_lastClosed (v : Bool) (b : BinNo) : (s.noteOverfull v b).lastClosed = s.lastClosed := by cases v <;> unfold State.noteOverfull State.raiseIf <;> split <;> rfl
@[simp] theorem State.noteOverfull_lastExpired (v : Bool) (b : BinNo) : (s.noteOverfull v b).lastExpired = s.lastExpired := by cases v <;> unfold State.noteOverfull State.raiseIf <;> split <;> rfl
@[simp] theorem State.noteOverfull_dryer (v : Bool) (b : BinNo) : (s.noteOverfull v b).dryer = s.dryer := by cases v <;> unfold State.noteOverfull State.raiseIf <;> split <;> rfl
@[simp] theorem State.noteOverfull_legs (v : Bool) (b : BinNo) : (s.noteOverfull v b).legs = s.legs := by cases v <;> unfold State.noteOverfull State.raiseIf <;> split <;> rfl
@[simp] theorem State.noteOverfull_nextTransfer (v : Bool) (b : BinNo) : (s.noteOverfull v b).nextTransfer = s.nextTransfer := by cases v <;> unfold State.noteOverfull State.raiseIf <;> split <;> rfl
@[simp] theorem State.noteOverfull_schedules (v : Bool) (b : BinNo) : (s.noteOverfull v b).schedules = s.schedules := by cases v <;> unfold State.noteOverfull State.raiseIf <;> split <;> rfl
@[simp] theorem State.noteOverfull_berths (v : Bool) (b : BinNo) : (s.noteOverfull v b).berths = s.berths := by cases v <;> unfold State.noteOverfull State.raiseIf <;> split <;> rfl
@[simp] theorem State.noteOverfull_river (v : Bool) (b : BinNo) : (s.noteOverfull v b).river = s.river := by cases v <;> unfold State.noteOverfull State.raiseIf <;> split <;> rfl
@[simp] theorem State.noteOverfull_receiver (v : Bool) (b : BinNo) : (s.noteOverfull v b).receiver = s.receiver := by cases v <;> unfold State.noteOverfull State.raiseIf <;> split <;> rfl
@[simp] theorem State.noteOverfull_response (v : Bool) (b : BinNo) : (s.noteOverfull v b).response = s.response := by cases v <;> unfold State.noteOverfull State.raiseIf <;> split <;> rfl
@[simp] theorem State.noteOverfull_resetPending (v : Bool) (b : BinNo) : (s.noteOverfull v b).resetPending = s.resetPending := by cases v <;> unfold State.noteOverfull State.raiseIf <;> split <;> rfl
@[simp] theorem State.noteOverfull_estop (v : Bool) (b : BinNo) : (s.noteOverfull v b).estop = s.estop := by cases v <;> unfold State.noteOverfull State.raiseIf <;> split <;> rfl
@[simp] theorem State.noteOverfull_resetLine (v : Bool) (b : BinNo) : (s.noteOverfull v b).resetLine = s.resetLine := by cases v <;> unfold State.noteOverfull State.raiseIf <;> split <;> rfl
@[simp] theorem State.noteOverfull_backupLost (v : Bool) (b : BinNo) : (s.noteOverfull v b).backupLost = s.backupLost := by cases v <;> unfold State.noteOverfull State.raiseIf <;> split <;> rfl
@[simp] theorem State.noteOverfull_freeCount (v : Bool) (b : BinNo) : (s.noteOverfull v b).freeCount = s.freeCount := by cases v <;> unfold State.noteOverfull State.raiseIf <;> split <;> rfl
@[simp] theorem State.noteOverfull_pending (v : Bool) (b : BinNo) : (s.noteOverfull v b).pending = s.pending := by cases v <;> unfold State.noteOverfull State.raiseIf <;> split <;> rfl

end Sys2Proof.Machine
end

