-- ==== Sys2Proof/Laws/Ops.lean ====
section
/-! SUPPORT. What the shared operations do, said once: the tables of the state, answers and checks, the port, the
holders of a bin, the layer stack and the lot table. -/

namespace Sys2Proof.Machine

/-! ### Tables -/

/-- An entry of a table that has been set. -/
theorem get_set_same {α : Type} {n : Nat} (v : Vector α n) (i : Fin n) (x : α) :
    (v.set i.val x i.isLt).get i = x := by
  show (v.set i.val x i.isLt)[i.val] = x
  simp

/-- The entries of a table that have not been set. -/
theorem get_set_other {α : Type} {n : Nat} (v : Vector α n) {i j : Fin n} (h : j ≠ i) (x : α) :
    (v.set i.val x i.isLt).get j = v.get j := by
  have hv : i.val ≠ j.val := fun e => h (Fin.ext e.symm)
  show (v.set i.val x i.isLt)[j.val] = v[j.val]
  exact Vector.getElem_set_ne _ _ hv

section Tables
variable (s : State)

@[simp] theorem State.bin_setBin_same (b : BinNo) (x : Bin) : (s.setBin b x).bin b = x := get_set_same _ _ _

theorem State.bin_setBin_other {b c : BinNo} (h : c ≠ b) (x : Bin) : (s.setBin b x).bin c = s.bin c :=
  get_set_other _ h _

@[simp] theorem State.leg_setLeg_same (l : LegNo) (x : Leg) : (s.setLeg l x).leg l = x := get_set_same _ _ _

theorem State.leg_setLeg_other {l m : LegNo} (h : m ≠ l) (x : Leg) : (s.setLeg l x).leg m = s.leg m :=
  get_set_other _ h _

@[simp] theorem State.berth_setBerth_same (k : BerthNo) (x : Berth) : (s.setBerth k x).berth k = x := get_set_same _ _ _

theorem State.berth_setBerth_other {k j : BerthNo} (h : j ≠ k) (x : Berth) :
    (s.setBerth k x).berth j = s.berth j :=
  get_set_other _ h _

@[simp] theorem State.channel_setChannel_same (c : ChannelNo) (x : Channel) : (s.setChannel c x).channel c = x := get_set_same _ _ _

@[simp] theorem State.entry_setEntry_same (n : EntryNo) (x : Option Entry) : (s.setEntry n x).entry n = x := get_set_same _ _ _

theorem State.entry_setEntry_other {n m : EntryNo} (h : m ≠ n) (x : Option Entry) :
    (s.setEntry n x).entry m = s.entry m :=
  get_set_other _ h _

@[simp] theorem State.group_setGroup_same (g : Fin 11) (e : EventGroup) : (s.setGroup g e).group g = e := get_set_same _ _ _

theorem State.group_setGroup_other {g j : Fin 11} (h : j ≠ g) (e : EventGroup) :
    (s.setGroup g e).group j = s.group j :=
  get_set_other _ h _

@[simp] theorem State.station_setStation_same (n : StationNo) (x : Station) : (s.setStation n x).station n = x := get_set_same _ _ _

/-- A flag that has been raised is set (R182). -/
@[simp] theorem State.flag_raise_same (f : Flag) : (s.raise f).flag f = true := by
  simp [State.flag, State.raise, Flag.mask]

/-- Raising a flag leaves the enables of every group as they are. -/
theorem State.enables_raise (f : Flag) (g : Fin 11) : ((s.raise f).group g).enables = (s.group g).enables := by
  by_cases h : g = f.group
  · subst h; simp [State.raise]
  · simp [State.raise, State.group_setGroup_other s h]

end Tables

/-! ### Checks and answers -/

/-- No check has failed. -/
theorem firstFailure_eq_none {cs : List (Bool × Status)} : firstFailure cs = none ↔ ∀ c ∈ cs, c.1 = false := by
  induction cs with
  | nil => simp [firstFailure]
  | cons c cs ih => obtain ⟨b, code⟩ := c; cases b <;> simp [firstFailure, ih]

/-- A failed check gives its own code. -/
theorem firstFailure_mem {cs : List (Bool × Status)} {code : Status} (h : firstFailure cs = some code) :
    (true, code) ∈ cs := by
  induction cs with
  | nil => simp [firstFailure] at h
  | cons c cs ih =>
    obtain ⟨b, k⟩ := c
    cases b
    · simp only [firstFailure] at h; exact List.mem_cons_of_mem _ (ih h)
    · simp only [firstFailure, if_true, Option.some.injEq] at h; subst h; exact List.mem_cons_self

theorem unlessFails_none {cs : List (Bool × Status)} {s : State} {go : State × Answer} (h : firstFailure cs = none) :
    unlessFails cs s go = go := by simp [unlessFails, h]

theorem unlessFails_some {cs : List (Bool × Status)} {s : State} {go : State × Answer} {code : Status}
    (h : firstFailure cs = some code) : unlessFails cs s go = (s, ⟨code, []⟩) := by simp [unlessFails, h, refuse]

@[simp] theorem index_val {k : Nat} (i : Fin k) : index k i.val = some i := by simp [index]

/-! ### The port -/

/-- What a heard request is: its answer is the owning block's, or FORMAT (R177). -/
theorem serve_heard {α : Type} {code : Byte} {cs : Classes} {decode : List Byte → Option α}
    {act : StationNo → α → State → State × Answer} {f : Frame} {s : State} (h : Heard s f cs) :
    serve code cs decode act f s =
      respond code f (match decode f.payload with | none => refuse .format s | some a => act f.station a s) := by
  have h1 := h.enabled
  have h2 := h.accepted
  cases hd : decode f.payload <;> simp [serve, h.listening, takeRequest, h1, h2, hd]

/-- A request that is heard and decodes is its owning block's (R177). -/
theorem serve_decoded {α : Type} {code : Byte} {cs : Classes} {decode : List Byte → Option α}
    {act : StationNo → α → State → State × Answer} {f : Frame} {s : State} {a : α} (h : Heard s f cs)
    (hd : decode f.payload = some a) : serve code cs decode act f s = respond code f (act f.station a s) := by
  rw [serve_heard h, hd]

/-- A request that reaches a closed port changes nothing (R173). -/
theorem serve_deaf {α : Type} {code : Byte} {cs : Classes} {decode : List Byte → Option α}
    {act : StationNo → α → State → State × Answer} {f : Frame} {s : State} (h : s.listening = false) :
    serve code cs decode act f s = s := by simp [serve, h]

/-! ### The lot table -/

@[simp] theorem State.modLot_numbers (s : State) (n : Nat) (g : Lot → Lot) (hg : ∀ l, (g l).no = l.no) :
    (s.modLot n g).lots.map Lot.no = s.lots.map Lot.no := by
  simp only [State.modLot, List.map_map]
  apply List.map_congr_left
  intro l _
  by_cases h : l.no = n <;> simp [h, hg]

/-- Changing a lot changes what its number finds. -/
theorem State.lot?_modLot_same (s : State) (n : Nat) (g : Lot → Lot) (hg : ∀ l, (g l).no = l.no) :
    (s.modLot n g).lot? n = (s.lot? n).map g := by
  unfold State.lot? State.modLot
  generalize s.lots = ls
  induction ls with
  | nil => rfl
  | cons l ls ih =>
    by_cases h : l.no = n
    · simp [h, hg]
    · simp [h, ih]

/-- Changing a lot leaves what every other number finds. -/
theorem State.lot?_modLot_other (s : State) {n m : Nat} (g : Lot → Lot) (hg : ∀ l, (g l).no = l.no) (h : m ≠ n) :
    (s.modLot n g).lot? m = s.lot? m := by
  unfold State.lot? State.modLot
  generalize s.lots = ls
  induction ls with
  | nil => rfl
  | cons l ls ih =>
    by_cases hl : l.no = n
    · have : n ≠ m := fun e => h e.symm
      simp [hl, hg, this, ih]
    · by_cases hm : l.no = m
      · simp [hm, h]
      · simp [hl, hm, ih]

/-! ### Holders -/

/-- The slots of a list of holders. -/
def slotSum (hs : List Holder) : Nat := (hs.map Holder.slots).sum

@[simp] theorem slotSum_nil : slotSum [] = 0 := rfl
@[simp] theorem slotSum_cons (h : Holder) (hs : List Holder) : slotSum (h :: hs) = h.slots + slotSum hs := by
  simp [slotSum]

/-- A holder that uses one of its slots lowers the bin's reserved slots by one (R29, R33). -/
theorem slotSum_modFirst_pred {who : HolderRef} {hs : List Holder} {h : Holder}
    (hf : hs.find? (fun x => x.who == who) = some h) (hp : 0 < h.slots) :
    slotSum (modFirst who (fun x => { x with slots := x.slots - 1 }) hs) + 1 = slotSum hs := by
  induction hs with
  | nil => simp at hf
  | cons x xs ih =>
    by_cases hx : x.who = who
    · simp [hx] at hf; subst hf; simp [modFirst, hx]; omega
    · simp [hx] at hf; simp [modFirst, hx]; have := ih hf; omega

/-- Slots given back go to one holder at most (R36). -/
theorem slotSum_modFirst_add (who : HolderRef) (n : Nat) (hs : List Holder) :
    slotSum (modFirst who (fun x => { x with slots := x.slots + n }) hs) ≤ slotSum hs + n := by
  induction hs with
  | nil => simp [modFirst]
  | cons x xs ih =>
    by_cases hx : x.who = who
    · simp [modFirst, hx]; omega
    · simp [modFirst, hx]; omega

/-- A change of a holder's kilograms leaves the slots. -/
theorem slotSum_modFirst_same (who : HolderRef) (g : Holder → Holder) (hg : ∀ h, (g h).slots = h.slots)
    (hs : List Holder) : slotSum (modFirst who g hs) = slotSum hs := by
  induction hs with
  | nil => rfl
  | cons x xs ih => by_cases hx : x.who = who <;> simp [modFirst, hx, hg, ih]

/-- A release lowers the reserved slots by what the holder still held, or leaves them (R31). -/
theorem slotSum_filter_le (p : Holder → Bool) (hs : List Holder) : slotSum (hs.filter p) ≤ slotSum hs := by
  induction hs with
  | nil => simp
  | cons x xs ih => by_cases hx : p x = true <;> simp [hx] <;> omega

/-! ### The layer stack -/

/-- A draw takes what it is asked for or the whole stack, and no kilogram is lost (R36). -/
theorem drawLayers_conserves (ls : List Layer) (q : Nat) :
    ((drawLayers ls q).1.map Portion.kg).sum + ((drawLayers ls q).2.map Layer.kg).sum = (ls.map Layer.kg).sum := by
  induction ls generalizing q with
  | nil => simp [drawLayers]
  | cons l ls ih =>
    unfold drawLayers
    split
    · simp
    · split
      · have := ih (q - l.kg); simp only [List.map_cons, List.sum_cons]; omega
      · simp only [List.map_cons, List.map_nil, List.sum_cons, List.sum_nil]; omega

/-- A draw of no more than the stack holds takes exactly what it is asked for (R36). -/
theorem drawLayers_takes (ls : List Layer) (q : Nat) (h : q ≤ (ls.map Layer.kg).sum) :
    ((drawLayers ls q).1.map Portion.kg).sum = q := by
  induction ls generalizing q with
  | nil => simp at h; simp [drawLayers, h]
  | cons l ls ih =>
    simp only [List.map_cons, List.sum_cons] at h
    unfold drawLayers
    split
    · simp_all
    · split
      · have := ih (q - l.kg) (by omega); simp only [List.map_cons, List.sum_cons]; omega
      · simp

/-- A draw leaves no layer of 0 kg and returns no piece of 0 kg (R28, R36). -/
theorem drawLayers_pos (ls : List Layer) (q : Nat) (h : ∀ l ∈ ls, 1 ≤ l.kg) :
    (∀ p ∈ (drawLayers ls q).1, 1 ≤ p.kg) ∧ ∀ l ∈ (drawLayers ls q).2, 1 ≤ l.kg := by
  induction ls generalizing q with
  | nil => simp [drawLayers]
  | cons l ls ih =>
    have hl := h l List.mem_cons_self
    have hr : ∀ m ∈ ls, 1 ≤ m.kg := fun m hm => h m (List.mem_cons_of_mem _ hm)
    unfold drawLayers
    split
    · exact ⟨by simp, h⟩
    · split
      · obtain ⟨h1, h2⟩ := ih (q - l.kg) hr
        refine ⟨?_, h2⟩
        intro p hp
        rcases List.mem_cons.mp hp with rfl | hp
        · exact hl
        · exact h1 p hp
      · refine ⟨?_, ?_⟩
        · intro p hp; simp at hp; subst hp; simp; omega
        · intro m hm
          rcases List.mem_cons.mp hm with rfl | hm
          · simp; omega
          · exact hr m hm

/-- A draw never makes a stack longer (R28). -/
theorem drawLayers_length (ls : List Layer) (q : Nat) : (drawLayers ls q).2.length ≤ ls.length := by
  induction ls generalizing q with
  | nil => simp [drawLayers]
  | cons l ls ih =>
    unfold drawLayers
    split
    · simp
    · split
      · exact (ih _).trans (by simp)
      · simp

/-! ### Free numbers -/

/-- A number found free is not in use, or every number tried was (R1, R70, R104). -/
theorem firstFree_spec (used : List Nat) (top fuel n : Nat) :
    firstFree used top fuel n ∉ used ∨ ∀ i < fuel, (wrapNext top)^[i] n ∈ used := by
  induction fuel generalizing n with
  | zero => right; intro i hi; omega
  | succ k ih =>
    unfold firstFree
    by_cases h : used.contains n = true
    · simp only [h, if_true]
      rcases ih (wrapNext top n) with h1 | h1
      · exact .inl h1
      · right
        intro i hi
        cases i with
        | zero => simpa using h
        | succ j => simpa [Function.iterate_succ] using h1 j (by omega)
    · simp only [h]
      exact .inl (by simpa using h)

end Sys2Proof.Machine
end

