-- ==== Sys2Proof/Laws/Launch.lean ====
section
/-! SUPPORT. The live transfers, and what each launch check of a staged request says (R104, R108 to R113). -/

namespace Sys2Proof.Machine

variable (s : State)

/-! ### Live transfers -/

theorem mem_allLegs (l : LegNo) : l ∈ allLegs := by revert l; decide

theorem mem_endOrder (k : Slot) : k ∈ endOrder := by cases k <;> decide

/-- A transfer is live when it stands in a slot of a leg. -/
theorem State.mem_live {x : Transfer} : x ∈ s.live ↔ ∃ l k, (s.leg l).slot k = some x := by
  simp [State.live, mem_allLegs, mem_endOrder]

/-- The ids R104 looks at are those of the live transfers. -/
theorem State.liveIds_eq : s.liveIds = s.live.map Transfer.id := by
  simp only [State.liveIds, State.live, List.map_flatMap, List.map_filterMap]

/-- The live transfers are those of the legs. -/
theorem State.live_congr {s t : State} (h : t.legs = s.legs) : t.live = s.live := by
  unfold State.live State.leg
  rw [h]

@[simp] theorem State.live_setBin (b : BinNo) (x : Bin) : (s.setBin b x).live = s.live := rfl
@[simp] theorem State.live_setBerth (k : BerthNo) (x : Berth) : (s.setBerth k x).live = s.live := rfl
@[simp] theorem State.live_setEntry (n : EntryNo) (x : Option Entry) : (s.setEntry n x).live = s.live := rfl
@[simp] theorem State.live_raise (f : Flag) : (s.raise f).live = s.live := rfl

/-! ### The checks of a staged launch -/

section Checks
variable (x : Staging) (l : LegNo)

theorem State.legOpen_iff : s.legOpen l ↔ (s.estop || s.flag (flagStopped l)) = false := by
  simp [State.legOpen]

/-- The hold check passes (R108). -/
theorem State.stagedUnheld_iff :
    s.stagedUnheld x ↔ ((x.request l).binsNamed.any fun b => (s.bin b).hold.isSome) = false := by
  obtain ⟨o, a, d, kg, attr⟩ := x
  cases d <;> simp [State.stagedUnheld, Staging.request, LaunchRequest.binsNamed, Source.bin?, Dest.bin?]

/-- The check of restricted bins passes (R25, R108). -/
theorem State.stagedPermitted_iff : s.stagedPermitted x ↔ s.restrictedFor (x.request l) = false := by
  obtain ⟨o, a, d, kg, attr⟩ := x
  cases d <;>
    simp [State.stagedPermitted, State.restrictedFor, Staging.request, LaunchRequest.binsNamed, Source.bin?, Dest.bin?,
      State.supervisor, or_iff_not_imp_left]

theorem FillOwner.isTransfer_eq_false {o : FillOwner} : o.isTransfer = false ↔ ∀ id, o ≠ .transfer id := by
  cases o <;> simp [FillOwner.isTransfer]

/-- The claim check passes (R109). -/
theorem State.claimChecks_iff :
    firstFailure (s.claimChecks (x.request l)) = none ↔ s.stagedFree x ∧ s.stagedReady x := by
  obtain ⟨o, a, d, kg, attr⟩ := x
  rw [firstFailure_eq_none]
  cases d with
  | berth k =>
    simp [State.claimChecks, Staging.request, LaunchRequest.selfTurn, Source.bin?, Dest.bin?, State.stagedFree,
      State.stagedReady, FillOwner.isTransfer_eq_false, and_assoc]
  | bin d =>
    by_cases h : d = a
    · subst h
      simp [State.claimChecks, Staging.request, LaunchRequest.selfTurn, Source.bin?, Dest.bin?, State.stagedFree,
        State.stagedReady]
    · simp [State.claimChecks, Staging.request, LaunchRequest.selfTurn, Source.bin?, Dest.bin?, State.stagedFree,
        State.stagedReady, FillOwner.isTransfer_eq_false, h, Ne.symm h, and_assoc]

/-- A berth agrees with an identity as R154 says. -/
theorem State.berthAgrees_iff (k : BerthNo) (i : Identity) :
    s.berthAgrees k i = true ↔ (∃ o, (s.berth k).order = some o ∧ o.cls = i.cls) ∧
      ∀ e ∈ (s.berth k).manifest,
        match i.ip with
        | some n => e.lot = n
        | none => ∀ m, s.lot? e.lot = some m → m.kind = .receiving := by
  unfold State.berthAgrees
  rw [Bool.and_eq_true, List.all_eq_true]
  refine and_congr ?_ (forall₂_congr fun e _ => ?_)
  · cases (s.berth k).order <;> simp
  · cases i.ip with
    | some n => simp
    | none => cases h : s.lot? e.lot <;> simp

/-- The identity check passes (R110). -/
theorem State.identityChecks_iff :
    firstFailure (s.identityChecks (x.request l)) = none ↔ s.stagedAgrees x := by
  obtain ⟨o, a, d, kg, attr⟩ := x
  rw [firstFailure_eq_none]
  unfold State.identityChecks State.stagedAgrees
  cases h : (s.bin a).identity with
  | none => simp [Staging.request, State.sourceIdentity, h]
  | some i =>
    cases d with
    | berth k =>
      simp only [Staging.request, State.sourceIdentity, h, List.mem_singleton, forall_eq, Bool.not_eq_false',
        s.berthAgrees_iff k i, Option.some.injEq, Dest.berth.injEq, forall_eq', reduceCtorEq, false_implies, implies_true,
        true_and]
        <;> exact Iff.rfl
    | bin d =>
      cases hd : (s.bin d).identity <;> simp [Staging.request, State.sourceIdentity, h, hd, Bin.agrees]

/-- The draw plan of a staged launch (R111). -/
theorem State.planTransfer_staged :
    (s.planTransfer (x.request l).source (x.request l).dest (x.request l).kg).plan = s.stagedPlan x := by
  obtain ⟨o, a, d, kg, attr⟩ := x
  cases d with
  | berth k => rfl
  | bin d =>
    by_cases h : d = a
    · subst h; simp [State.planTransfer, State.stagedPlan, Staging.request]
    · simp [State.planTransfer, State.stagedPlan, Staging.request, h, Ne.symm h]

/-- The placement of a launch (R113). -/
theorem Leg.place_eq_none (g : Leg) (attr : Attr) : g.place attr = none ↔ g.full attr := by
  unfold Leg.place Leg.full Leg.givesWay
  cases ha : g.active with
  | none => simp
  | some a =>
    by_cases h1 : attr = .priority <;> by_cases h2 : a.attr = .yield <;> cases g.suspended <;> cases g.buffered <;>
      simp [h1, h2]

end Checks

end Sys2Proof.Machine
end

