-- ==== Sys2Proof/Laws/Assign.lean ====
section
/-! SUPPORT. The bin that automatic assignment chooses is the one R75 describes. -/

namespace Sys2Proof.Machine

variable (s : State) (st : StationNo) (g : Grade) (kg : Nat)

theorem FillOwner.permits_ticket {o : FillOwner} {n : Nat} :
    o.permits (.ticket n) = true ↔ o = .none ∨ o = .intake := by
  cases o <;> simp [FillOwner.permits]

/-- The bin checks pass for a bin exactly when it takes the dump (R73). -/
theorem State.passes_iff (b : BinNo) : s.passes st g kg b = true ↔ s.TakesDump st g kg b := by
  have identity : (∀ i, (s.bin b).identity = some i → i = { cls := g.cls, ip := g.ip }) ↔
      (match (s.bin b).identity with | some i => i.cls != g.cls | none => false) = false ∧
      (match (s.bin b).identity with | some i => i.ip != g.ip | none => false) = false := by
    cases h : (s.bin b).identity with
    | none => simp
    | some i => obtain ⟨c, n⟩ := i; simp
  have owner := FillOwner.permits_ticket (o := (s.bin b).fillOwner) (n := 0)
  rw [State.passes, Option.isNone_iff_eq_none, firstFailure_eq_none]
  simp only [State.binChecks, List.forall_mem_cons, List.not_mem_nil, false_implies, implies_true, and_true]
  constructor
  · rintro ⟨h1, h2, h3, h4, h5, h6, h7⟩
    simp only [decide_eq_false_iff_not, not_or, not_lt] at h7
    exact ⟨by simpa using h1, by simpa using h2, by simpa [State.supervisor] using h3, owner.1 (by simpa using h4),
      identity.2 ⟨h5, h6⟩, h7.1, h7.2⟩
  · rintro ⟨h1, h2, h3, h4, h5, h6, h7⟩
    refine ⟨by simpa using h1, by simpa using h2, by simpa [State.supervisor] using h3, by simpa using owner.2 h4,
      (identity.1 h5).1, (identity.1 h5).2, ?_⟩
    simp only [decide_eq_false_iff_not, not_or, not_lt]
    exact ⟨h6, h7⟩

/-- Two chosen bins are one. -/
theorem State.DumpChoice.unique {b c : BinNo} (hb : s.DumpChoice st g kg b) (hc : s.DumpChoice st g kg c) : b = c := by
  have h1 := hb.2 c hc.1
  have h2 := hc.2 b hb.1
  unfold State.dumpsBefore at h1 h2
  by_cases wet : s.isWet g = true
  · rw [if_pos wet] at h1 h2
    rcases h1 with h1 | ⟨_, h1⟩ <;> rcases h2 with h2 | ⟨_, h2⟩ <;> first | omega | exact le_antisymm h1 h2
  · rw [if_neg wet] at h1 h2
    by_cases hb : (s.bin b).identity = none <;> by_cases hc : (s.bin c).identity = none <;> simp_all [le_antisymm_iff]

/-- The first of a rising list that passes a test is the least that passes. -/
theorem find?_least {l : List BinNo} {p : BinNo → Bool} {b : BinNo} (rising : l.Pairwise (· < ·))
    (h : l.find? p = some b) : ∀ c ∈ l, p c = true → b ≤ c := by
  induction l with
  | nil => simp at h
  | cons a l ih =>
    obtain ⟨below, rising⟩ := List.pairwise_cons.1 rising
    rw [List.find?_cons] at h
    cases ha : p a with
    | true =>
      obtain rfl : a = b := by simpa [ha] using h
      intro c hc _
      rcases List.mem_cons.1 hc with rfl | hc
      · exact le_rfl
      · exact (below c hc).le
    | false =>
      rw [ha] at h
      intro c hc pc
      rcases List.mem_cons.1 hc with rfl | hc
      · simp [ha] at pc
      · exact ih rising h c hc pc

/-- The storage bins, in rising order. -/
theorem storage_rising : (allBins.filter fun b => !isTank b).Pairwise (· < ·) :=
  (List.pairwise_lt_finRange 42).filter _

/-- What the model chooses is what R75 describes. -/
theorem State.chooseBin_spec :
    (s.chooseBin st g kg = none → ∀ b, ¬ s.TakesDump st g kg b) ∧
      ∀ b, s.chooseBin st g kg = some b → s.DumpChoice st g kg b := by
  have passes := s.passes_iff st g kg
  unfold State.chooseBin
  by_cases wet : s.isWet g = true
  · have tanks (c : BinNo) (h : s.TakesDump st g kg c) : c = 40 ∨ c = 41 := by
      have := h.kind
      rw [wet, eq_comm, isTank, decide_eq_true_eq] at this
      have := c.isLt
      rcases (show c.val = 40 ∨ c.val = 41 by omega) with h | h
      · exact .inl (Fin.ext h)
      · exact .inr (Fin.ext h)
    have before (b c : BinNo) : s.dumpsBefore g b c ↔ s.freeSpace c < s.freeSpace b ∨ s.freeSpace c = s.freeSpace b ∧ b ≤ c := by
      rw [State.dumpsBefore, if_pos wet]
    rw [if_pos wet]
    have e0 := passes 40
    have e1 := passes 41
    cases h0 : s.passes st g kg 40 <;> cases h1 : s.passes st g kg 41 <;> rw [h0] at e0 <;> rw [h1] at e1 <;>
      simp only [reduceCtorEq, false_iff, true_iff, false_implies, forall_const, Option.some.injEq, forall_eq',
        true_and, and_true] at e0 e1 ⊢
    · intro b hb
      rcases tanks b hb with rfl | rfl
      · exact e0 hb
      · exact e1 hb
    · refine ⟨e1, fun c hc => ?_⟩
      rcases tanks c hc with rfl | rfl
      · exact absurd hc e0
      · simp [before]
    · refine ⟨e0, fun c hc => ?_⟩
      rcases tanks c hc with rfl | rfl
      · simp [before]
      · exact absurd hc e1
    · refine ⟨by split <;> simp, fun b hb => ?_⟩
      split at hb <;> cases hb
      · refine ⟨e1, fun c hc => ?_⟩
        rcases tanks c hc with rfl | rfl
        · exact (before _ _).2 (.inl ‹_›)
        · simp [before]
      · refine ⟨e0, fun c hc => ?_⟩
        rcases tanks c hc with rfl | rfl
        · simp [before]
        · refine (before _ _).2 ?_
          rcases (not_lt.1 ‹_›).lt_or_eq with h | h
          · exact .inl h
          · exact .inr ⟨h, by decide⟩
  · rw [if_neg wet]
    have stored (c : BinNo) (h : s.TakesDump st g kg c) : c ∈ allBins.filter fun b => !isTank b := by
      have := h.kind
      rw [Bool.not_eq_true] at wet
      simp [allBins, ← this, wet]
    have before (b c : BinNo) : s.dumpsBefore g b c ↔
        if (s.bin b).identity ≠ none then (s.bin c).identity = none ∨ b ≤ c else (s.bin c).identity = none ∧ b ≤ c := by
      rw [State.dumpsBefore, if_neg wet]
    have known (c : BinNo) (h : s.TakesDump st g kg c) (hc : (s.bin c).identity ≠ none) :
        (((s.bin c).identity.map Identity.cls == some g.cls) && s.passes st g kg c) = true := by
      obtain ⟨i, hi⟩ := Option.ne_none_iff_exists'.1 hc
      simp [hi, h.identity i hi, (passes c).2 h]
    have unknown (c : BinNo) (h : s.TakesDump st g kg c) (hc : (s.bin c).identity = none) :
        ((s.bin c).identity.isNone && s.passes st g kg c) = true := by
      simp [hc, (passes c).2 h]
    cases h1 : (allBins.filter fun b => !isTank b).find? fun b =>
        ((s.bin b).identity.map Identity.cls == some g.cls) && s.passes st g kg b with
    | some b =>
      refine ⟨fun h => by simp [h1] at h, fun b' h => ?_⟩
      obtain rfl : b = b' := by simpa [h1] using h
      have hb := List.find?_some h1
      simp only [Bool.and_eq_true, beq_iff_eq] at hb
      refine ⟨(passes b).1 hb.2, fun c hc => (before b c).2 ?_⟩
      rw [if_pos (by rintro h; simp [h] at hb)]
      by_cases h : (s.bin c).identity = none
      · exact .inl h
      · exact .inr (find?_least storage_rising h1 c (stored c hc) (known c hc h))
    | none =>
      have fresh (c : BinNo) (h : s.TakesDump st g kg c) : (s.bin c).identity = none := by
        by_contra hc
        exact absurd (known c h hc) (List.find?_eq_none.1 h1 c (stored c h))
      dsimp only
      rw [h1]
      refine ⟨fun h2 b hb => List.find?_eq_none.1 h2 b (stored b hb) (unknown b hb (fresh b hb)), fun b h2 => ?_⟩
      have hb := List.find?_some h2
      simp only [Bool.and_eq_true, Option.isNone_iff_eq_none] at hb
      refine ⟨(passes b).1 hb.2, fun c hc => (before b c).2 ?_⟩
      rw [if_neg (by simp [hb.1])]
      exact ⟨fresh c hc, find?_least storage_rising h2 c (stored c hc) (unknown c hc (fresh c hc))⟩

/-- A bin is chosen exactly when R75 describes it (R75). -/
theorem State.chooseBin_eq_some {b : BinNo} : s.chooseBin st g kg = some b ↔ s.DumpChoice st g kg b := by
  refine ⟨(s.chooseBin_spec st g kg).2 b, fun h => ?_⟩
  cases e : s.chooseBin st g kg with
  | none => exact absurd h.1 ((s.chooseBin_spec st g kg).1 e b)
  | some c => rw [((s.chooseBin_spec st g kg).2 c e).unique s st g kg h]

/-- None is chosen exactly when no bin passes (R75). -/
theorem State.chooseBin_eq_none : s.chooseBin st g kg = none ↔ ∀ b, ¬ s.TakesDump st g kg b := by
  refine ⟨(s.chooseBin_spec st g kg).1, fun h => ?_⟩
  cases e : s.chooseBin st g kg with
  | none => rfl
  | some c => exact absurd ((s.chooseBin_spec st g kg).2 c e).1 (h c)

end Sys2Proof.Machine
end

