-- ==== Sys2Proof/Laws/PerInstr.lean ====
section
/-! SUPPORT. What is said of every command as syntax, one lemma per row of the table. -/

namespace Sys2Proof.Laws.RequestFits

/-- A command that is a request is well formed exactly when its payload fits a frame (R172). -/
def Statement (i : Instr) : Prop := ∀ k, Machine.request? i = some k → i.wellFormed = k.frame.fits

theorem readLot (f : Frame) : Statement (.readLot f) := fun _ h => by cases h; rfl
theorem findLots (f : Frame) : Statement (.findLots f) := fun _ h => by cases h; rfl
theorem closeReceivingLot (f : Frame) : Statement (.closeReceivingLot f) := fun _ h => by cases h; rfl
theorem closeIpLot (f : Frame) : Statement (.closeIpLot f) := fun _ h => by cases h; rfl
theorem setLotHold (f : Frame) : Statement (.setLotHold f) := fun _ h => by cases h; rfl
theorem clearLotHold (f : Frame) : Statement (.clearLotHold f) := fun _ h => by cases h; rfl
theorem amendLot (f : Frame) : Statement (.amendLot f) := fun _ h => by cases h; rfl
theorem retireLot (f : Frame) : Statement (.retireLot f) := fun _ h => by cases h; rfl
theorem readBin (f : Frame) : Statement (.readBin f) := fun _ h => by cases h; rfl
theorem readLayers (f : Frame) : Statement (.readLayers f) := fun _ h => by cases h; rfl
theorem setBinSettings (f : Frame) : Statement (.setBinSettings f) := fun _ h => by cases h; rfl
theorem setBinHold (f : Frame) : Statement (.setBinHold f) := fun _ h => by cases h; rfl
theorem clearBinHold (f : Frame) : Statement (.clearBinHold f) := fun _ h => by cases h; rfl
theorem sweepClose (f : Frame) : Statement (.sweepClose f) := fun _ h => by cases h; rfl
theorem scaleSample (f : Frame) : Statement (.scaleSample f) := fun _ h => by cases h; rfl
theorem setCalibration (f : Frame) : Statement (.setCalibration f) := fun _ h => by cases h; rfl
theorem setScaleParameters (f : Frame) : Statement (.setScaleParameters f) := fun _ h => by cases h; rfl
theorem zeroScale (f : Frame) : Statement (.zeroScale f) := fun _ h => by cases h; rfl
theorem weighIn (f : Frame) : Statement (.weighIn f) := fun _ h => by cases h; rfl
theorem gradeReport (f : Frame) : Statement (.gradeReport f) := fun _ h => by cases h; rfl
theorem assignDump (f : Frame) : Statement (.assignDump f) := fun _ h => by cases h; rfl
theorem dumpReport (f : Frame) : Statement (.dumpReport f) := fun _ h => by cases h; rfl
theorem weighOut (f : Frame) : Statement (.weighOut f) := fun _ h => by cases h; rfl
theorem voidTicket (f : Frame) : Statement (.voidTicket f) := fun _ h => by cases h; rfl
theorem forgetVehicle (f : Frame) : Statement (.forgetVehicle f) := fun _ h => by cases h; rfl
theorem setIntakeSettings (f : Frame) : Statement (.setIntakeSettings f) := fun _ h => by cases h; rfl
theorem readScale (f : Frame) : Statement (.readScale f) := fun _ h => by cases h; rfl
theorem readVehicle (f : Frame) : Statement (.readVehicle f) := fun _ h => by cases h; rfl
theorem readTicket (f : Frame) : Statement (.readTicket f) := fun _ h => by cases h; rfl
theorem listTickets (f : Frame) : Statement (.listTickets f) := fun _ h => by cases h; rfl
theorem readIntakeStatus (f : Frame) : Statement (.readIntakeStatus f) := fun _ h => by cases h; rfl
theorem startDryer (f : Frame) : Statement (.startDryer f) := fun _ h => by cases h; rfl
theorem stopDryer (f : Frame) : Statement (.stopDryer f) := fun _ h => by cases h; rfl
theorem chargeBatch (f : Frame) : Statement (.chargeBatch f) := fun _ h => by cases h; rfl
theorem batchDried (f : Frame) : Statement (.batchDried f) := fun _ h => by cases h; rfl
theorem discharge (f : Frame) : Statement (.discharge f) := fun _ h => by cases h; rfl
theorem suspendDryer (f : Frame) : Statement (.suspendDryer f) := fun _ h => by cases h; rfl
theorem resumeDryer (f : Frame) : Statement (.resumeDryer f) := fun _ h => by cases h; rfl
theorem dryerFault (f : Frame) : Statement (.dryerFault f) := fun _ h => by cases h; rfl
theorem clearDryerFault (f : Frame) : Statement (.clearDryerFault f) := fun _ h => by cases h; rfl
theorem setDryerSettings (f : Frame) : Statement (.setDryerSettings f) := fun _ h => by cases h; rfl
theorem readDryer (f : Frame) : Statement (.readDryer f) := fun _ h => by cases h; rfl
theorem stageTransfer (f : Frame) : Statement (.stageTransfer f) := fun _ h => by cases h; rfl
theorem launch (f : Frame) : Statement (.launch f) := fun _ h => by cases h; rfl
theorem withdrawStaging (f : Frame) : Statement (.withdrawStaging f) := fun _ h => by cases h; rfl
theorem flowReport (f : Frame) : Statement (.flowReport f) := fun _ h => by cases h; rfl
theorem abortTransfer (f : Frame) : Statement (.abortTransfer f) := fun _ h => by cases h; rfl
theorem clearLegFlags (f : Frame) : Statement (.clearLegFlags f) := fun _ h => by cases h; rfl
theorem markLegClean (f : Frame) : Statement (.markLegClean f) := fun _ h => by cases h; rfl
theorem setLegSettings (f : Frame) : Statement (.setLegSettings f) := fun _ h => by cases h; rfl
theorem readLeg (f : Frame) : Statement (.readLeg f) := fun _ h => by cases h; rfl
theorem temperatureReport (f : Frame) : Statement (.temperatureReport f) := fun _ h => by cases h; rfl
theorem setSchedule (f : Frame) : Statement (.setSchedule f) := fun _ h => by cases h; rfl
theorem endSchedule (f : Frame) : Statement (.endSchedule f) := fun _ h => by cases h; rfl
theorem setRotationSettings (f : Frame) : Statement (.setRotationSettings f) := fun _ h => by cases h; rfl
theorem readSchedules (f : Frame) : Statement (.readSchedules f) := fun _ h => by cases h; rfl
theorem acceptBarge (f : Frame) : Statement (.acceptBarge f) := fun _ h => by cases h; rfl
theorem setLoadOrder (f : Frame) : Statement (.setLoadOrder f) := fun _ h => by cases h; rfl
theorem setPositionPlan (f : Frame) : Statement (.setPositionPlan f) := fun _ h => by cases h; rfl
theorem setBerthEnable (f : Frame) : Statement (.setBerthEnable f) := fun _ h => by cases h; rfl
theorem setSpoutPosition (f : Frame) : Statement (.setSpoutPosition f) := fun _ h => by cases h; rfl
theorem spoutArrived (f : Frame) : Statement (.spoutArrived f) := fun _ h => by cases h; rfl
theorem resumeBerth (f : Frame) : Statement (.resumeBerth f) := fun _ h => by cases h; rfl
theorem releaseBarge (f : Frame) : Statement (.releaseBarge f) := fun _ h => by cases h; rfl
theorem stageReading (f : Frame) : Statement (.stageReading f) := fun _ h => by cases h; rfl
theorem setRiverSettings (f : Frame) : Statement (.setRiverSettings f) := fun _ h => by cases h; rfl
theorem readBerth (f : Frame) : Statement (.readBerth f) := fun _ h => by cases h; rfl
theorem readRiver (f : Frame) : Statement (.readRiver f) := fun _ h => by cases h; rfl
theorem readStations (f : Frame) : Statement (.readStations f) := fun _ h => by cases h; rfl
theorem setStation (f : Frame) : Statement (.setStation f) := fun _ h => by cases h; rfl
theorem readEvents (f : Frame) : Statement (.readEvents f) := fun _ h => by cases h; rfl
theorem clearEvents (f : Frame) : Statement (.clearEvents f) := fun _ h => by cases h; rfl
theorem setEventEnables (f : Frame) : Statement (.setEventEnables f) := fun _ h => by cases h; rfl
theorem commitSettings (f : Frame) : Statement (.commitSettings f) := fun _ h => by cases h; rfl
theorem setTime (f : Frame) : Statement (.setTime f) := fun _ h => by cases h; rfl
theorem readTime (f : Frame) : Statement (.readTime f) := fun _ h => by cases h; rfl
theorem resetPart (f : Frame) : Statement (.resetPart f) := fun _ h => by cases h; rfl
theorem setLotSize (f : Frame) : Statement (.setLotSize f) := fun _ h => by cases h; rfl
theorem unknownRequest (code : Byte) (f : Frame) : Statement (.unknownRequest code f) := fun _ h => by cases h
theorem frameDiscarded (bytes : List Byte) : Statement (.frameDiscarded bytes) := fun _ h => by cases h
theorem frameGapTimeout (next : Byte) : Statement (.frameGapTimeout next) := fun _ h => by cases h
theorem responseSent (pins : Pins) : Statement (.responseSent pins) := fun _ h => by cases h
theorem signalExpiry (c : ChannelNo) : Statement (.signalExpiry c) := fun _ h => by cases h
theorem ticketExpiry (number : Nat) : Statement (.ticketExpiry number) := fun _ h => by cases h
theorem warmUpExpiry : Statement .warmUpExpiry := fun _ h => by cases h
theorem dryingTimerExpiry : Statement .dryingTimerExpiry := fun _ h => by cases h
theorem cleanoutExpiry (leg : LegNo) : Statement (.cleanoutExpiry leg) := fun _ h => by cases h
theorem staleExpiry (bin : BinNo) : Statement (.staleExpiry bin) := fun _ h => by cases h
theorem riverStaleExpiry : Statement .riverStaleExpiry := fun _ h => by cases h
theorem spoutTimerExpiry (berth : BerthNo) : Statement (.spoutTimerExpiry berth) := fun _ h => by cases h
theorem commitDone : Statement .commitDone := fun _ h => by cases h
theorem commitFailed : Statement .commitFailed := fun _ h => by cases h
theorem estopAsserted : Statement .estopAsserted := fun _ h => by cases h
theorem estopReleased : Statement .estopReleased := fun _ h => by cases h
theorem resetAsserted (pins : Pins) : Statement (.resetAsserted pins) := fun _ h => by cases h
theorem mainPowerReturn (pins : Pins) : Statement (.mainPowerReturn pins) := fun _ h => by cases h
theorem backupLostChange (level : Bool) : Statement (.backupLostChange level) := fun _ h => by cases h
theorem presentChange (berth : BerthNo) (level : Bool) : Statement (.presentChange berth level) := fun _ h => by cases h
theorem mooredChange (berth : BerthNo) (level : Bool) : Statement (.mooredChange berth level) := fun _ h => by cases h
theorem buttonPress (berth : BerthNo) : Statement (.buttonPress berth) := fun _ h => by cases h
theorem buttonRelease (berth : BerthNo) : Statement (.buttonRelease berth) := fun _ h => by cases h
theorem mainPowerLoss : Statement .mainPowerLoss := fun _ h => by cases h
theorem resetReleased : Statement .resetReleased := fun _ h => by cases h

end Sys2Proof.Laws.RequestFits
end

