-- ==== Sys2Proof/Tests/Slice0.lean ====
section
/-! SUPPORT. The model's own tests: ill-formed commands refused, the figures of the manual's worked examples, and for
every statement with hypotheses a state and operands that meet them. Each test is about one step or one operation. -/

namespace Sys2Proof.Tests

open Sys2Proof Sys2Proof.Machine

/-! The proofs are short and many: they are checked one after another, so that no run of Lean opens a thread for each. -/

set_option Elab.async false

/-! ### Helpers -/

/-- A frame from a station, with tag 7. -/
def fr (st : StationNo) (p : List Byte) : Frame := ⟨st, 7#8, p⟩

/-- The levels a quiet start finds. -/
def quiet : Pins := ⟨false, false, false, false, false, false, false, false, false⟩

/-- The status and payload a command leaves as the response being sent. -/
def answerOf (c : Instr) (s : State) : Option (Status × List Byte) :=
  match exec c s with
  | .next t => t.response.map fun r => (r.status, r.payload)
  | _ => none

/-- What a command leaves, seen through `f`. -/
def after {α : Type} (c : Instr) (s : State) (f : State → α) : Option α :=
  match exec c s with
  | .next t => some (f t)
  | _ => none

def isNext : Host.Outcome State Fault Refusal → Bool
  | .next _ => true
  | _ => false

theorem next_of {o : Host.Outcome State Fault Refusal} (h : isNext o = true) : ∃ t, o = .next t := by
  cases o with
  | next t => exact ⟨t, rfl⟩
  | fault _ => cases h
  | refused _ => cases h

/-- `Heard`, as one decidable test of a state, a station and the classes. -/
def hears (s : State) (n : StationNo) (cs : Classes) : Bool :=
  s.listening && (s.station n).enabled && cs.accept (s.station n).cls

theorem heard_of {s : State} {f : Frame} {cs : Classes} (h : hears s f.station cs = true) : Heard s f cs := by
  simp only [hears, Bool.and_eq_true] at h
  exact ⟨h.1.1, h.1.2, h.2⟩

theorem of_none {α : Type} {o : Option α} {p : α → Prop} (h : o = none) : ∀ a, o = some a → p a := by
  intro a ha
  rw [h] at ha
  cases ha

theorem of_some {α : Type} {o : Option α} {p : α → Prop} {a : α} (h : o = some a) (ha : p a) : ∀ b, o = some b → p b := by
  intro b hb
  rw [h] at hb
  cases hb
  exact ha

/-! ### A terminal at work -/

def corn : GrainClass := ⟨2, 1⟩
def cornId : Identity := ⟨corn, none⟩
def tagA : List Byte := List.replicate 10 0x41#8
def gradeA : Grade := ⟨corn, 150, 730, 18, none⟩

/-- The calibration of the manual's converted sample, "Worked example: converting a sample". -/
def calA : Calibration := { calibrated := true, zero := 120000, span := 21500, division := 20, capacity := 80000 }

def lotA : Lot :=
  { newLot 5 .receiving corn with received := 41000, standing := 41000, layerCount := 2, intakeMoisture := 7150000 }

/-- Every station of the factory table is enabled, scale 0 is calibrated and STABLE at 37,720 kg, bin 1 and tank 40
hold grain of lot 5, lot 6 is CLOSED and empty, lot 7 is an IP lot, and the dryer is READY. -/
def work : State :=
  { State.reset with
    settings := { Settings.factory with
      stations := factoryStations.map fun x => { x with enabled := true }
      scales := #v[⟨calA, 3, 1⟩, factoryScale, factoryScale] }
    terminalTime := 1000000, timeValid := true
    lots := [lotA, { newLot 6 .receiving corn with state := .closed }, newLot 7 .ip corn]
    lastLot := 6
    channels := #v[⟨List.replicate 3 ⟨1874350, 37720⟩, some 0, some 3, .stable⟩, Channel.started, Channel.started]
    bins := (State.reset.bins.set 1 { Bin.cold with identity := some cornId, layers := [⟨5, 21000, 150, 730⟩] }).set 40
      { Bin.cold with identity := some cornId, layers := [⟨5, 20000, 200, 730⟩] }
    dryer := { Dryer.cold with state := .ready } }

/-- A vehicle with open ticket 1. -/
def ticketed (st : TicketState) (single : Bool) (a : Option Assignment) : State :=
  { work with
    vehicles := [⟨tagA, 0, some ⟨9000, 1000000⟩, some 1, 1000000⟩], nextTicket := 2
    tickets := [⟨1, tagA, 0, 37720, 1000000, 0, single, some gradeA, a, st⟩]
    bins := work.bins.set 2
      { Bin.cold with identity := some cornId, holders := a.toList.map fun x => ⟨.ticket 1, x.estimate, 1⟩ } }

def boundFor2 : Assignment := ⟨2, 5, 28720⟩

/-- A batch in the dryer, and its reservation at bin 3. -/
def batchOf (phase : Phase) : Batch :=
  { tank := 40, dest := 3, identity := cornId, target := 150, phase := phase, wetTotal := 24650, dryEstimate := 23201,
    outlet := none, portions := [⟨5, 18250, 212, 736⟩, ⟨5, 6400, 140, 741⟩] }

def kiln (st : DryerState) (phase : Phase) : State :=
  { work with
    dryer := { Dryer.cold with state := st, drying := some ⟨5400, false⟩, batch := some (batchOf phase) }
    bins := work.bins.set 3 { Bin.cold with identity := some cornId, holders := [⟨.batch, 23201, 2⟩] } }

def pass1 : Transfer :=
  { id := 1, origin := .station 0, source := .bin 1, dest := .bin 2, target := 20000, delivered := 0, overrun := 0,
    identity := cornId, attr := .ordinary, state := .running, clamps := ClampFlags.none, originalRemaining := none }

def stagedFor2 : Staging := { owner := 0, source := 1, dest := .bin 2, kg := 20000, attr := .ordinary }

/-- Leg 1 with a staged request of station 0 from bin 1 to bin 2. -/
def staged (x : Staging) : State := work.setLeg 1 { Leg.cold with staging := some x }

/-- Leg 1 carries a transfer from bin 1 to bin 2. -/
def carrying (st : TransferState) : State :=
  { work with
    legs := work.legs.set 1 { Leg.cold with active := some { pass1 with state := st } }, nextTransfer := 2
    bins := (work.bins.set 1
      { Bin.cold with identity := some cornId, layers := [⟨5, 21000, 150, 730⟩], claim := some 1 }).set 2
      { Bin.cold with identity := some cornId, holders := [⟨.transfer 1, 20000, 1⟩] } }

/-- Berth A ready for a barge, its lines active and its enable on. -/
def berthOf (st : BerthState) : Berth :=
  { Berth.cold true true false with
    enabled := true, state := st, barge := some ⟨List.replicate 12 0x48#8, 55, 6400, 275⟩, loadLimit := 1216000
    order := some ⟨corn, 145, 720, 1200000⟩, plan := some [⟨400000, 0⟩, ⟨400000, 0⟩], current := some 1
    commanded := some 1 }

def quay (b : Berth) : State := (work.setBerth 0 b)

/-- Leg 1 loads berth A from bin 1. -/
def loading : State :=
  ((carrying .running).setLeg 1 { Leg.cold with active := some { pass1 with dest := .berth 0 } }).setBerth 0
    { berthOf .loading with claim := some 1 }

/-- Leg 1 carries the discharge of a batch into bin 3. -/
def unloading (portions : List Portion) : State :=
  { work with
    dryer := { Dryer.cold with
      state := .discharging, discharge := some 1, batch := some { batchOf .dried with portions := portions } }
    legs := work.legs.set 1
      { Leg.cold with active := some { pass1 with origin := .dryer, source := .dryer, dest := .bin 3, target := 23163 } }
    nextTransfer := 2
    bins := work.bins.set 3 { Bin.cold with identity := some cornId, holders := [⟨.transfer 1, 23163, 2⟩] } }

def entryA : Entry :=
  { source := 1, dest := 1, leg := 0, kg := 0, remaining := some 2, done := 0, condition := .ifHot, state := .waiting,
    reason := none, inFlight := none, origin := .set }

def scheduled (e : Entry) : State := work.setEntry 3 (some e)

/-! ### Well-formedness: each check refuses an ill-formed command -/

theorem test_long_payload_refused : (Instr.readTime (fr 0 (List.replicate 241 0#8))).wellFormed = false := by decide +kernel
theorem test_longest_payload_fits : (Instr.readTime (fr 0 (List.replicate 240 0#8))).wellFormed = true := by decide +kernel
theorem test_known_code_is_not_unknown : (Instr.unknownRequest 0x10#8 (fr 0 [])).wellFormed = false := by decide +kernel
theorem test_unknown_code_long_payload_refused :
    (Instr.unknownRequest 0x18#8 (fr 0 (List.replicate 241 0#8))).wellFormed = false := by decide +kernel
theorem test_discard_needs_sync : (Instr.frameDiscarded [1#8, 2#8]).wellFormed = false := by decide +kernel
theorem test_discard_ends_where_it_fails : (Instr.frameDiscarded [0xC7#8, 2#8, 0#8]).wellFormed = false := by decide +kernel
theorem test_discard_of_short_length : (Instr.frameDiscarded [0xC7#8, 2#8]).wellFormed = true := by decide +kernel
theorem test_ticket_zero_refused : (Instr.ticketExpiry 0).wellFormed = false := by decide +kernel
theorem test_ticket_past_the_top_refused : (Instr.ticketExpiry 1000000).wellFormed = false := by decide +kernel

/-- No word spells a command. -/
theorem test_words_spell_nothing : decodeTableWord 8 0x10 = none ∧ State.reset.withFetchWord 8 0x10 = State.reset :=
  ⟨rfl, rfl⟩

/-! ### The check and the image CRC -/

/-- The check of "123456789" under the parameters of R172, and its CRC-32 under those of R190, are the published check
values of the two codes. -/
theorem test_crc_check_values :
    crc16 ([0x31, 0x32, 0x33, 0x34, 0x35, 0x36, 0x37, 0x38, 0x39].map (BitVec.ofNat 8)) = 0x29B1#16 ∧
      crc32 ([0x31, 0x32, 0x33, 0x34, 0x35, 0x36, 0x37, 0x38, 0x39].map (BitVec.ofNat 8)) = 0xCBF43926#32 := by
  decide +kernel

/-- The CRC register after each 16 bytes of a list is the number named. -/
def crcSteps : BitVec 32 → List Byte → List Nat → Bool
  | _, bs, [] => bs.isEmpty
  | c, bs, n :: ns =>
    ((bs.take 16).foldl crc32Byte c == BitVec.ofNat 32 n) && crcSteps (BitVec.ofNat 32 n) (bs.drop 16) ns

theorem crcSteps_end : ∀ (ns : List Nat) (c : BitVec 32) (bs : List Byte), crcSteps c bs ns = true →
    bs.foldl crc32Byte c = ns.foldl (fun _ n => BitVec.ofNat 32 n) c
  | [], c, bs, h => by
    simp only [crcSteps, List.isEmpty_iff] at h
    simp [h]
  | n :: ns, c, bs, h => by
    simp only [crcSteps, Bool.and_eq_true, beq_iff_eq] at h
    rw [← List.take_append_drop 16 bs, List.foldl_append, h.1, crcSteps_end ns _ _ h.2]
    rfl

def factoryCrcs : List Nat :=
  [3113755399, 602086766, 1289031204, 3379692864, 445479178, 3123935377, 3826740736, 1580634341, 1684378776, 
   3123552092, 2322349752, 2356406156, 2095809880, 2706621252, 3209267270, 2852913097, 1090572406, 1406288959, 
   1244653779, 2652177021, 3912541084, 4023661923, 196904886, 2090380881, 323763387, 3502866468, 1986066883, 
   2090539630, 3993694716, 3329899838, 1744991230, 1324040752, 2778509141, 4049717182, 2923817964, 2019124154, 
   2673621615, 2046752723, 647498582] 

theorem test_factory_crcs : crcSteps 0xFFFFFFFF#32 Settings.factory.bytes factoryCrcs = true := by decide +kernel

/-- The banks of reset are bad, as the cold start of a blank store finds them (R190, R193). -/
theorem test_blank_bank_is_bad : Bank.blank.good = false := by
  have h : Bank.blank.good =
    (0#32 == (Settings.factory.bytes.foldl crc32Byte 0xFFFFFFFF#32).reverse ^^^ 0xFFFFFFFF#32) := rfl
  rw [h, crcSteps_end _ _ _ test_factory_crcs]
  decide +kernel

/-! ### Worked figures of Weights, Moisture and Limits -/

/-- "Worked example: converting a sample". -/
theorem test_convert_example : convert calA 1874350 = 37720 ∧ convert calA 118840 = -20 := by decide +kernel

/-- "Worked example: a batch of two portions", at outlet 148 and at the floor. -/
theorem test_shrink_example :
    shrink 18250 212 148 50 = ⟨148, 16795, 1371, 84⟩ ∧ shrink 6400 140 148 50 = ⟨140, 6368, 0, 32⟩ ∧
      shrink 18250 212 100 50 = ⟨100, 15898, 2272, 80⟩ ∧ shrink 6400 140 100 50 = ⟨100, 6084, 285, 31⟩ := by
  decide +kernel

/-- The text after R53: a very small, very wet portion dries to nothing. -/
theorem test_shrink_to_nothing : (shrink 1 400 100 50).dry = 0 ∧ (shrink 1 400 100 50).water = 1 := by decide +kernel

/-- "Worked example: the average of a bin". -/
theorem test_average_example :
    average 64363 9639580 = some 150 ∧ average 64363 47114608 = some 732 ∧ average 0 0 = none := by decide +kernel

/-- "Worked example: a layer cut on moisture". -/
theorem test_blend_cut_example :
    blendPasses ⟨corn, 145, 720, 1200000⟩ ⟨400000, 56000000, 304000000⟩ 120000 170 745 = false ∧
      blendCut ⟨corn, 145, 720, 1200000⟩ ⟨400000, 56000000, 304000000⟩ 120000 170 745 = 80000 := by decide +kernel

/-- "Worked example: a falling river": the stage 35, fresh and stale, and −160. -/
theorem test_load_limit_example :
    loadLimitOf ⟨240, 30, 20, 1800⟩ ⟨35, 0, true, false, none⟩ ⟨[], 55, 6400, 275⟩ = 1216000 ∧
      loadLimitOf ⟨240, 30, 20, 1800⟩ ⟨35, 0, true, true, none⟩ ⟨[], 55, 6400, 275⟩ = 1088000 ∧
      loadLimitOf ⟨240, 30, 20, 1800⟩ ⟨-160, 0, true, false, none⟩ ⟨[], 55, 6400, 275⟩ = 0 := by decide +kernel

/-- "Worked example: a plan that meets a held lot". -/
theorem test_plan_stops_at_a_held_lot :
    planWalk (· == 191) [⟨188, 40000, 150, 728⟩, ⟨190, 35000, 148, 731⟩, ⟨191, 20000, 152, 719⟩, ⟨195, 30000, 147, 735⟩]
      90000 none none none = ⟨[⟨188, 40000, 150, 728⟩, ⟨190, 35000, 148, 731⟩], .heldLot⟩ := by decide +kernel

/-- "Worked example: a plan across layers, an overshoot and its correction", the first launch. -/
theorem test_plan_cut_by_the_blend :
    planWalk (fun _ => false) [⟨1, 60000, 140, 730⟩, ⟨2, 50000, 160, 725⟩, ⟨3, 45000, 138, 742⟩] 200000 none none
      (some ⟨⟨corn, 145, 720, 1200000⟩, ⟨0, 0, 0⟩, []⟩) =
      ⟨[⟨1, 60000, 140, 730⟩, ⟨2, 20000, 160, 725⟩], .spec⟩ := by decide +kernel

/-! ### One step of each family, from the manual's worked examples and rules -/

/-- "Worked example: the life of a RECEIVING lot": 0 + 40,500 reaches the lot size of 40,000 and the lot closes. -/
theorem test_lot_closes_when_an_assignment_reaches_its_size :
    ({ newLot 119 .receiving corn with pendingEstimate := 40500 }.sizeCheck 40000).state = .closed ∧
      ({ newLot 119 .receiving corn with pendingEstimate := 18400 }.sizeCheck 40000).state = .opened := by decide +kernel

theorem test_read_lot_absent : answerOf (.readLot (fr 0 [8#8, 0#8])) work = some (.noSuch, []) := by decide +kernel

theorem test_grader_sets_quality_only :
    answerOf (.setLotHold (fr 4 [5#8, 0#8, 1#8])) work = some (.notPermitted, []) ∧
      after (.setLotHold (fr 4 [5#8, 0#8, 0#8])) work (fun t => (t.lot? 5).map Lot.hold) = some (some (some .quality)) := by
  decide +kernel

theorem test_sweep_close_writes_off :
    answerOf (.sweepClose (fr 0 [1#8])) work = some (.ok, small 1 ++ mass 21000) ∧
      after (.sweepClose (fr 0 [1#8])) work (fun t => (t.lot? 5).map Lot.writtenOff) = some (some 21000) := by decide +kernel

/-- The third sample of R63 within the band makes the channel STABLE. -/
theorem test_sample_keeps_the_channel_stable :
    answerOf (.scaleSample (fr 1 (0#8 :: counts 1874350))) work = some (.ok, weight 37720 ++ small 2) := by decide +kernel

theorem test_weigh_in_opens_ticket_one :
    answerOf (.weighIn (fr 1 (0#8 :: tagA ++ [2#8, 0#8]))) work = some (.ok, long 1 ++ mass 37720 ++ [0#8]) := by decide +kernel

/-- The net of the manual's truck: 37,720 − 14,220 = 23,500. -/
theorem test_settlement_of_the_truck :
    ((⟨40411, tagA, 1, 37720, 0, 0, false, some gradeA, some ⟨40, 126, 23540⟩, .dumped⟩ : Ticket).settled 14220 .weighed
      .normal 0).net = some 23500 := by decide +kernel

/-- "Worked example: one batch, charge to discharge": the charge is cut by the held lot. -/
theorem test_charge_cut_by_a_held_lot :
    answerOf (.chargeBatch (fr 5 (40#8 :: mass 30000 ++ short 150 ++ [7#8])))
      { work with
        lots := [newLot 119 .receiving corn, newLot 124 .receiving corn, { newLot 126 .receiving corn with hold := some .quality }]
        bins := work.bins.set 40 { Bin.cold with
          identity := some cornId
          layers := [⟨119, 18250, 212, 736⟩, ⟨124, 6400, 140, 741⟩, ⟨126, 23500, 212, 736⟩] } } =
      some (.clamped, mass 24650 ++ small 2 ++ mass 23201 ++ small 2) := by decide +kernel

/-- The same batch reported at 148: the figures of the manual's table. -/
theorem test_batch_dried_figures :
    (answerOf (.batchDried (fr 5 (short 148))) (kiln .drying .wet)).map (fun a => a.2.take 14) =
      some (short 148 ++ mass 23163 ++ mass 1371 ++ mass 116) := by decide +kernel

theorem test_flow_report_moves :
    after (.flowReport (fr 7 (1#8 :: mass 5000))) (carrying .running)
      (fun t => ((t.bin 1).contents, (t.bin 2).contents, (t.bin 2).reservedKg)) = some (16000, 5000, 15000) := by
  decide +kernel

/-- "Worked example: a bin heats and turns itself": 245 over a baseline of 182 makes the bin HOT. -/
theorem test_rise_makes_hot : hotAfter false 245 182 280 60 = true ∧ hotAfter true 238 182 280 60 = true ∧
    hotAfter true 238 238 280 60 = false ∧ hotAfter false 231 182 280 60 = false := by decide +kernel

theorem test_accept_barge_before_any_stage :
    answerOf (.acceptBarge (fr 7 (0#8 :: List.replicate 12 0x48#8 ++ short 55 ++ short 6400 ++ short 275))) work =
      some (.ok, mass 0) := by decide +kernel

theorem test_clear_events_answers_what_is_left :
    answerOf (.clearEvents (fr 0 [0#8, 2#8, 0#8])) work = some (.ok, flagSet 2#16 ++ flagSet 4#16) := by decide +kernel

theorem test_station_zero_is_fixed : answerOf (.setStation (fr 0 [0#8, 1#8, 1#8])) work = some (.state, []) := by
  decide +kernel

theorem test_set_time_answers_the_old_time :
    answerOf (.setTime (fr 0 (long 5))) work = some (.ok, long 1000000 ++ [1#8]) := by decide +kernel

theorem test_estop_stops_the_dryer : after .estopAsserted work (fun t => (t.estop, t.dryer.state)) = some (true, .off) := by
  decide +kernel

/-- R85: while ESTOP stays asserted Start Dryer is refused, with a stop pending too. -/
theorem test_estop_refuses_a_start :
    let s : State := { kiln .dischargeWait .dried with estop := true }
    after (.startDryer (fr 5 [])) (s.setDryer { s.dryer with stopPending := true })
      (fun t => (t.response.map Response.status, t.dryer.stopPending)) = some (some .state, true) := by decide +kernel

theorem test_spout_expiry_forgets_the_position :
    after (.spoutTimerExpiry 0) (quay { berthOf .assigned with movePending := true, spoutTimer := some 0 })
      (fun t => ((t.berth 0).current, t.flag (flagSpoutTimeout 0))) = some (none, true) := by decide +kernel

/-! ### Witnesses: for each statement, and for each of its clauses, a state and operands that meet its hypotheses

Each is named after its statement. A step of the machine is written as `isNext`, which `next_of` turns into the
statement's own form. -/

def queued (s : State) (c : Instr) : State := { s with pending := [c] }
def reportOf5000 : Instr := .flowReport (fr 7 (1#8 :: mass 5000))

theorem witness_StepRunsTheFront : (queued work reportOf5000).pending = [reportOf5000] := rfl

theorem witness_EmptyQueueLetsASecondPass :
    work.pending = [] ∧ work.powered = true ∧
      ({ work with powered := false }.pending = [] ∧ { work with powered := false }.powered = false) ∧
      ((kiln .drying .wet).pending = [] ∧ (kiln .drying .wet).powered = true ∧ (kiln .drying .wet).dryer.state = .drying ∧
        (kiln .drying .wet).dryer.drying = some ⟨5400, false⟩) ∧
      (carrying (.cleanout 1)).pending = [] ∧ (carrying (.cleanout 1)).powered = true := by decide +kernel

theorem witness_EveryStepKeepsTheLayerLaw :
    LayerLaw (queued (carrying .running) reportOf5000) ∧ ∃ t, step (queued (carrying .running) reportOf5000) = .next t := by
  refine ⟨⟨?_, of_none (by decide +kernel)⟩, next_of (by decide +kernel)⟩
  unfold Bin.layersFit
  decide +kernel

theorem witness_EveryStepKeepsTheSlotRelation :
    SlotLaw (queued (carrying .running) reportOf5000) ∧ IdLaw (queued (carrying .running) reportOf5000) ∧
      HoldLaw (queued (carrying .running) reportOf5000) ∧
      ∃ t, step (queued (carrying .running) reportOf5000) = .next t := by
  refine ⟨?_, ?_, ?_, next_of (by decide +kernel)⟩
  · unfold SlotLaw; decide +kernel
  · unfold IdLaw; decide +kernel
  · unfold HoldLaw; decide +kernel

theorem witness_EveryStepKeepsTheLegsEmptyUnderEstop :
    EstopLaw (queued { work with estop := true } .estopReleased) ∧
      ∃ t, step (queued { work with estop := true } .estopReleased) = .next t := by
  refine ⟨?_, next_of (by decide +kernel)⟩
  unfold EstopLaw
  decide +kernel

theorem witness_EveryStepKeepsStationZero :
    StationLaw (queued work reportOf5000) ∧ ∃ t, step (queued work reportOf5000) = .next t := by
  refine ⟨?_, next_of (by decide +kernel)⟩
  unfold StationLaw
  decide +kernel

theorem witness_EveryStepKeepsThePortLaw :
    PortLaw (queued work reportOf5000) ∧ ∃ t, step (queued work reportOf5000) = .next t := by
  refine ⟨?_, next_of (by decide +kernel)⟩
  unfold PortLaw
  decide +kernel

theorem witness_EveryStepKeepsTheTablesInOrder :
    let s := queued (ticketed .graded false none) reportOf5000
    TableLaw s ∧ RegistryLaw s ∧ ∃ t, step s = .next t := by
  refine ⟨?_, ⟨by decide +kernel, by decide +kernel, ?_⟩, next_of (by decide +kernel)⟩
  · unfold TableLaw
    decide +kernel
  · simp [queued, ticketed]

theorem unloading_ids (ps : List Portion) : IdLaw (unloading ps) := by
  have h : (unloading ps).live.map Transfer.id = [1] := rfl
  simp [IdLaw, h]

theorem unloading_discharge (ps : List Portion) : DischargeLaw (unloading ps) := by
  have h : (unloading ps).live =
    [{ pass1 with origin := .dryer, source := .dryer, dest := .bin 3, target := 23163 }] := rfl
  refine ⟨?_, ?_, ?_, by simp [unloading]⟩
  · rw [h]; simp [unloading, pass1]
  · rw [h]; simp [unloading, batchOf]
  · rw [h]; simp [unloading, pass1]

theorem witness_EveryStepKeepsTheDryerLaw :
    let s := queued (unloading (batchOf .dried).portions) reportOf5000
    DryerLaw s ∧ IdLaw s ∧ DischargeLaw s ∧ ∃ t, step s = .next t :=
  ⟨⟨batchOf .dried, rfl, rfl⟩, unloading_ids (batchOf .dried).portions,
   let h := unloading_discharge (batchOf .dried).portions
   ⟨h.named, h.route, h.live, h.state⟩,
   next_of (by decide +kernel)⟩

/-- A berth that loads, in a state that every law of the last statements holds of. -/
theorem loading_berths : BerthLaw loading := by
  refine ⟨by decide +kernel, fun k => ⟨?_, ?_, ?_, ?_, ?_, ?_, ?_, fun n => ?_, ?_⟩⟩
  case refine_8 =>
    have h0 : (loading.berth 0).current = some 1 ∧ (loading.berth 0).commanded = some 1 ∧
      ((loading.berth 0).plan.getD []).length = 2 := by decide +kernel
    have h1 : (loading.berth 1).current = none ∧ (loading.berth 1).commanded = none := by decide +kernel
    match k with
    | 0 => rw [h0.1, h0.2.1, h0.2.2]; simp; omega
    | 1 => rw [h1.1, h1.2]; simp
  all_goals revert k; decide +kernel

theorem loading_accounts : AccountLaw loading := by
  have hl : ∀ m ∈ loading.lots, (loading.Balanced m) := by
    have : loading.lots = [lotA, { newLot 6 .receiving corn with state := .closed }, newLot 7 .ip corn] := rfl
    rw [this]
    simp only [List.mem_cons, List.not_mem_nil, or_false, forall_eq_or_imp, forall_eq]
    exact ⟨⟨by decide +kernel, by decide +kernel, by decide +kernel, by decide +kernel, by decide +kernel, by decide +kernel,
        by decide +kernel⟩,
      ⟨by decide +kernel, by decide +kernel, by decide +kernel, by decide +kernel, by decide +kernel, by decide +kernel,
        by decide +kernel⟩,
      ⟨by decide +kernel, by decide +kernel, by decide +kernel, by decide +kernel, by decide +kernel, by decide +kernel,
        by decide +kernel⟩⟩
  have ht : loading.tickets = [] := rfl
  have hw : ∀ b, ∀ h ∈ (loading.bin b).holders, h.who = .transfer 1 := by decide +kernel
  refine ⟨hl, by decide +kernel, by decide +kernel, by decide +kernel, by simp [ht], by simp [ht], by simp [ht], ?_, ?_⟩
  · intro b h hh n hn
    rw [hw b h hh] at hn
    cases hn
  · exact ⟨by unfold Settings.handlingFits; decide +kernel, by unfold Settings.handlingFits; decide +kernel,
      by unfold Settings.handlingFits; decide +kernel, fun _ _ _ h => by cases h⟩

theorem witness_EveryStepKeepsTheManifestLaw :
    let s := queued loading reportOf5000
    ManifestLaw s ∧ IdLaw s ∧ BerthLaw s ∧ TableLaw s ∧ DryerLaw s ∧ AccountLaw s ∧ ∃ t, step s = .next t := by
  refine ⟨?_, ?_, ⟨loading_berths.claims, fun k => ?_⟩, ?_, rfl, ?_, next_of (by decide +kernel)⟩
  · unfold ManifestLaw Berth.manifestAgrees; decide +kernel
  · unfold IdLaw; decide +kernel
  · obtain ⟨h1, h2, h3, h4, h5, h6, h7, h8, h9⟩ := loading_berths.berths k
    exact ⟨h1, h2, h3, h4, h5, h6, h7, h8, h9⟩
  · unfold TableLaw; decide +kernel
  · obtain ⟨h1, h2, h3, h4, h5, h6, h7, h8, h9⟩ := loading_accounts
    exact ⟨fun m hm => by
      obtain ⟨b1, b2, b3, b4, b5, b6, b7⟩ := h1 m hm
      exact ⟨b1, b2, b3, b4, b5, b6, b7⟩, h2, h3, h4, h5, h6, h7, h8, h9⟩

theorem witness_NoCommandTouchesTheQueue : ∃ t, exec reportOf5000 (carrying .running) = .next t :=
  next_of (by decide +kernel)

theorem witness_PowerOffIgnoresEveryCommand :
    { work with powered := false }.powered = false ∧ ∀ p, reportOf5000 ≠ .mainPowerReturn p :=
  ⟨rfl, fun _ h => by cases h⟩

theorem witness_ReceiverReadsEveryFrameItIsSent : (fr 0 (List.replicate 240 0#8)).fits = true := by decide +kernel

theorem witness_EveryRequestIsAnsweredWithItsOwnTag :
    request? reportOf5000 = some ⟨0x63#8, some [.loadout, .dryer], fr 7 (1#8 :: mass 5000)⟩ ∧ work.listening = true :=
  ⟨rfl, by decide +kernel⟩

/-- At reset station 1 is disabled; at work it is enabled and of class SCALE, which no lot request accepts. -/
theorem witness_PortChecksComeInOrder :
    request? (.retireLot (fr 1 [])) = some ⟨0x17#8, onlySupervisor, fr 1 []⟩ ∧
      State.reset.listening = true ∧ (State.reset.station 1).enabled = false ∧
      work.listening = true ∧ (work.station 1).enabled = true ∧ onlySupervisor.accept (work.station 1).cls = false ∧
      isRequestCode 0x18#8 = false := ⟨rfl, by decide +kernel⟩

/-- The answer that a command leaves is a refusal. -/
def refuses (c : Instr) (s : State) : Bool :=
  match exec c s with
  | .next t => match t.response with
    | some r => decide (0x10 ≤ r.status.code.toNat)
    | none => false
  | _ => false

theorem refused_of {c : Instr} {s : State} (h : refuses c s = true) :
    ∃ t r, exec c s = .next t ∧ t.response = some r ∧ 0x10 ≤ r.status.code.toNat := by
  unfold refuses at h
  split at h
  · rename_i t ht
    split at h
    · rename_i r hr
      exact ⟨t, r, ht, hr, of_decide_eq_true h⟩
    · cases h
  · cases h

theorem witness_RefusedRequestsChangeNothing :
    request? (.readLot (fr 0 [8#8, 0#8])) = some ⟨0x10#8, everyStation, fr 0 [8#8, 0#8]⟩ ∧
      Instr.readLot (fr 0 [8#8, 0#8]) ≠ .stageTransfer (fr 0 [8#8, 0#8]) ∧
      Instr.readLot (fr 0 [8#8, 0#8]) ≠ .launch (fr 0 [8#8, 0#8]) ∧
      Instr.readLot (fr 0 [8#8, 0#8]) ≠ .discharge (fr 0 [8#8, 0#8]) ∧
      Instr.readLot (fr 0 [8#8, 0#8]) ≠ .resumeDryer (fr 0 [8#8, 0#8]) ∧
      ∃ t r, exec (.readLot (fr 0 [8#8, 0#8])) work = .next t ∧ t.response = some r ∧ 0x10 ≤ r.status.code.toNat :=
  ⟨rfl, by decide, by decide, by decide, by decide, refused_of (by decide +kernel)⟩

def answering : State :=
  { work with receiver := .closed, response := some ⟨0, 7#8, 0x10#8, .ok, []⟩ }

theorem witness_ReceiverCommandsChangeOnlyTheReceiver :
    request? reportOf5000 = some ⟨0x63#8, some [.loadout, .dryer], fr 7 (1#8 :: mass 5000)⟩ ∧
      answering.receiver = .closed ∧ answering.powered = true ∧ work.powered = true ∧ work.receiver = .hunting ∧
      isDiscarded [0xC7#8, 2#8] = true ∧ { work with receiver := .inFrame [3#8] }.receiver = .inFrame [3#8] ∧
      answering.response.isSome = true ∧ answering.resetPending = false := ⟨rfl, by decide +kernel⟩

/-- The state of `ticketed` has a lot, a bin, a vehicle and a ticket to read. -/
theorem witness_ReadsAnswerAndChangeNothing :
    let s := ticketed .graded false none
    (∀ p, Heard s (fr 9 p) everyStation) ∧
      (decodeOne 2 [5#8, 0#8] = some 5 ∧ s.lot? 5 = some lotA) ∧
      (decodeFindLots [0#8, 0#8, 0#8] = some (.all, 0) ∧ LotFilter.inRange .all = true) ∧
      decodeOne 1 [41#8] = some (41 : BinNo).val ∧
      decodeTwo 1 1 [1#8, 1#8] = some ((1 : BinNo).val, 1) ∧
      decodeOne 1 [2#8] = some (2 : ChannelNo).val ∧
      (decodeTag tagA = some tagA ∧ s.vehicle? tagA = some ⟨tagA, 0, some ⟨9000, 1000000⟩, some 1, 1000000⟩) ∧
      (decodeOne 4 (long 1) = some 1 ∧ (s.ticket? 1).isSome = true) ∧
      decodeOne 4 (long 999999) = some 999999 ∧
      decodeOne 1 [3#8] = some (3 : LegNo).val ∧ decodeOne 1 [1#8] = some (1 : BerthNo).val ∧
      (fr 9 []).payload = [] :=
  ⟨fun _ => heard_of (by change hears _ 9 everyStation = true; decide +kernel), by decide +kernel⟩

theorem witness_ClosingLots :
    (∀ p, Heard work (fr 0 p) onlySupervisor) ∧ (∀ p, Heard work (fr 4 p) (supervisorOr [.grader])) ∧
      decodeOne 2 [0#8, 0#8] = some 0 ∧ decodeOne 2 [5#8, 0#8] = some 5 ∧ (work.lot? 5).isSome = true ∧
      decodeOne 2 [7#8, 0#8] = some 7 ∧ (work.lot? 7).map Lot.kind = some .ip :=
  ⟨fun _ => heard_of (by change hears _ 0 onlySupervisor = true; decide +kernel),
   fun _ => heard_of (by change hears _ 4 (supervisorOr [.grader]) = true; decide +kernel), by decide +kernel⟩

theorem witness_LotHoldsAndAmendments :
    (∀ p, Heard work (fr 4 p) (supervisorOr [.grader])) ∧ decodeLotHold [5#8, 0#8, 3#8] = none ∧
      decodeLotHold [5#8, 0#8, 2#8] = some (5, .claim) ∧ decodeOne 2 [5#8, 0#8] = some 5 ∧
      decodeAmendLot [7#8, 0#8, 3#8] = none ∧
      decodeAmendLot ([7#8, 0#8, 0#8] ++ short 9999 ++ List.replicate 8 0x20#8) =
        some ⟨7, .owner, 9999, List.replicate 8 0x20#8⟩ :=
  ⟨fun _ => heard_of (by change hears _ 4 (supervisorOr [.grader]) = true; decide +kernel), by decide +kernel⟩

theorem witness_RetireLotNeedsALotNothingNames :
    Heard work (fr 0 [6#8, 0#8]) onlySupervisor ∧ decodeOne 2 (fr 0 [6#8, 0#8]).payload = some 6 ∧
      (work.lot? 6).map Lot.state = some .closed := ⟨heard_of (by decide +kernel), by decide +kernel⟩

def settingsOf (b : BinNo) (kg : Nat) : List Byte := small b.val ++ mass kg ++ [0#8, 0#8] ++ degrees 280 ++ degrees 60

theorem witness_SetBinSettingsWritesFiveValues :
    Heard work (fr 0 (settingsOf 40 10000)) onlySupervisor ∧
      decodeBinSettings (settingsOf 40 10000) = some ((40 : BinNo).val, ⟨10000, false, false, 280, 60⟩) ∧
      capacityRange 40 10000 = true ∧ temperatureRange 280 = true ∧ temperatureRange 60 = true ∧
      (isTank 40 = true → false = false) ∧ work.commit = .idle := ⟨heard_of (by decide +kernel), by decide +kernel⟩

/-- A bin not held, that a running transfer, a ticket and an entry name. -/
theorem witness_SetBinHoldClearsTheBinsWork :
    Heard (carrying .running) (fr 4 [1#8, 1#8]) (supervisorOr [.grader]) ∧
      decodeBinHold [1#8, 1#8] = some ((1 : BinNo).val, .quality) ∧
      (((carrying .running).station 4).cls = .grader → BinHold.quality = .quality) ∧
      ((carrying .running).bin 1).hold = none ∧
      ((work.setBin 1 { Bin.cold with hold := some .fumigation }).bin 1).hold.isSome = true :=
  ⟨heard_of (by decide +kernel), by decide +kernel⟩

theorem witness_ClearBinHoldRemovesTheHold :
    Heard (kiln .dischargeWait .dried) (fr 0 [3#8]) (supervisorOr [.grader]) ∧ decodeOne 1 [3#8] = some (3 : BinNo).val :=
  ⟨heard_of (by decide +kernel), by decide +kernel⟩

theorem witness_SweepCloseRefusalsInOrder :
    (∀ s, s ∈ [work.setBin 1 { Bin.cold with hold := some .fumigation }, carrying .running] →
      Heard s (fr 0 [1#8]) onlySupervisor) ∧ decodeOne 1 [1#8] = some (1 : BinNo).val ∧
      ((work.setBin 1 { Bin.cold with hold := some .fumigation }).bin 1).hold.isSome = true ∧
      ((carrying .running).bin 1).hold = none ∧ ((carrying .running).bin 1).claim.isSome = true := by
  refine ⟨fun s hs => heard_of ?_, by decide +kernel⟩
  simp only [List.mem_cons, List.not_mem_nil, or_false] at hs
  rcases hs with rfl | rfl <;> decide +kernel

theorem witness_SweepCloseWritesOffEveryLayer :
    Heard work (fr 0 [1#8]) onlySupervisor ∧ decodeOne 1 [1#8] = some (1 : BinNo).val ∧ (work.bin 1).hold = none ∧
      (work.bin 1).holders = [] ∧ (work.bin 1).claim = none ∧ (work.bin 1).layers ≠ [] :=
  ⟨heard_of (by decide +kernel), by decide +kernel⟩

theorem witness_ScaleSampleIsConvertedAndJudged :
    Heard work (fr 1 (0#8 :: counts 1874350)) (some [.scale]) ∧
      decodeScaleSample (0#8 :: counts (-8388608)) = some ((0 : ChannelNo).val, -8388608) ∧
      decodeScaleSample (0#8 :: counts 1874350) = some ((0 : ChannelNo).val, 1874350) :=
  ⟨heard_of (by decide +kernel), by decide +kernel⟩

theorem witness_ConversionRoundsHalvesAwayFromZero : 0 < calA.division := by decide

theorem witness_ChannelSetUpEmptiesTheWindow :
    (∀ p, Heard work (fr 0 p) onlySupervisor) ∧ (∀ p, Heard work (fr 1 p) (supervisorOr [.scale])) ∧
      work.commit = .idle ∧
      (decodeCalibration (0#8 :: counts 0 ++ long 10000000 ++ mass 50 ++ mass 120000) =
        some ((0 : ChannelNo).val, ⟨true, 0, 10000000, 50, 120000⟩) ∧ 50 ∈ [1, 2, 5, 10, 20, 50]) ∧
      decodeScaleParameters [2#8, 16#8, 5#8] = some ((2 : ChannelNo).val, 16, 5) ∧
      decodeOne 1 [0#8] = some (0 : ChannelNo).val ∧ (work.scaleSet 1).cal.calibrated = false ∧
      ((work.scaleSet 0).cal.calibrated = true ∧ (work.channel 0).status = .stable) ∧
      (work.channel 0).window.getLast? = some ⟨1874350, 37720⟩ ∧
      (work.channel 0).signal.isSome = true ∧ (work.channel 1).signal = none :=
  ⟨fun _ => heard_of (by change hears _ 0 onlySupervisor = true; decide +kernel),
   fun _ => heard_of (by change hears _ 1 (supervisorOr [.scale]) = true; decide +kernel), by decide +kernel⟩

/-- A weight within 2 % of the capacity, for the zero, and the two other statuses. -/
theorem witness_ChannelSetUpEmptiesTheWindow_zero :
    let near (st : ChannelStatus) : State := work.setChannel 0 ⟨List.replicate 3 ⟨194418, 1600⟩, some 0, some 3, st⟩
    (∀ st, hears (near st) 1 (supervisorOr [.scale]) = true) ∧
      ((near .stable).channel 0).window.getLast? = some ⟨194418, 1600⟩ ∧
      50 * (1600 : Int).natAbs ≤ ((near .stable).scaleSet 0).cal.capacity ∧
      ((near .motion).channel 0).status = .motion ∧
      (((near .noSignal).channel 0).status ≠ .motion ∧ ((near .noSignal).channel 0).status ≠ .stable) :=
  ⟨fun st => by cases st <;> decide +kernel, by decide +kernel⟩

theorem witness_WeighInOpensATicket :
    Heard work (fr 1 (0#8 :: tagA ++ [3#8, 1#8])) (supervisorOr [.scale]) ∧
      (decodeWeighIn (0#8 :: tagA ++ [3#8, 1#8]) = some ⟨(0 : ChannelNo).val, tagA, (3 : Fin 4).val, true⟩ ∧
      (∀ b ∈ tagA, printable b = true) ∧ (∃ b ∈ tagA, b ≠ 0x20#8) ∧ (work.scaleSet 0).cal.calibrated = true ∧
      (work.channel 0).status = .stable ∧ (work.channel 0).window.getLast?.map Sample.weight = some 37720 ∧
      ((work.scaleSet 0).cal.division : Int) ≤ 37720 ∧ 37720 ≤ ((work.scaleSet 0).cal.capacity : Int) ∧
      work.tickets.length < 32) ∧ (∀ v, work.vehicle? tagA = some v → v.openTicket = none) :=
  ⟨heard_of (by decide +kernel), by decide +kernel, of_none (by decide +kernel)⟩

/-- A vehicle of the registry, by its place in it. -/
def vehicleOf (i seen : Nat) (o : Option Nat) : Vehicle := ⟨List.replicate 9 0x42#8 ++ [BitVec.ofNat 8 (0x21 + i)], 0, none, o, seen⟩

/-- A tag that is registered, one that joins a registry of 63, and a full registry: the earliest seen vehicle has an
open ticket, and of the two earliest without one, seen at the same time, the first leaves. -/
theorem witness_WeighInOpensATicket_registry :
    let before := [vehicleOf 0 0 (some 1), vehicleOf 1 9 none]
    let later (n : Nat) := vehicleOf 3 5 none :: (List.range n).map fun i => vehicleOf (i + 4) 7 none
    let all (n : Nat) := before ++ vehicleOf 2 5 none :: later n
    let known : State := { ticketed .graded false none with vehicles := [⟨tagA, 0, none, none, 1000000⟩] }
    known.vehicle? tagA ≠ none ∧ (∀ v, known.vehicle? tagA = some v → v.openTicket = none) ∧
      ({ work with vehicles := all 59 }.vehicle? tagA = none ∧ (all 59).length = 63) ∧
      { work with vehicles := all 60 }.vehicle? tagA = none ∧ (all 60).length = 64 ∧
      ((all 60).map Vehicle.tag).Nodup ∧ (vehicleOf 2 5 none).openTicket = none ∧
      (∀ u ∈ before, u.openTicket = none → (vehicleOf 2 5 none).lastSeen < u.lastSeen) ∧
      ∀ u ∈ later 60, u.openTicket = none → (vehicleOf 2 5 none).lastSeen ≤ u.lastSeen :=
  ⟨by decide +kernel, of_some (a := ⟨tagA, 0, none, none, 1000000⟩) (by decide +kernel) rfl, by decide +kernel⟩

def report (ticket : Nat) (ip : Nat) : List Byte :=
  long ticket ++ [2#8, 1#8] ++ short 150 ++ short 730 ++ short 18 ++ short ip

theorem witness_GradeReportGradesTheTicket :
    (∀ st, Heard (ticketed st false none) (fr 4 (report 1 0)) (supervisorOr [.grader])) ∧
      decodeGradeReport (report 1 0) = some ⟨1, 2, 1, 150, 730, 18, 0⟩ ∧ classOf 2 1 = some corn ∧
      ((ticketed .weighedIn false none).ticket? 1).map Ticket.state = some .weighedIn ∧
      ((ticketed .dumped false none).ticket? 1).map Ticket.state = some .dumped ∧
      (ticketed .weighedIn false none).settings.intake.autoAssign = false :=
  ⟨fun st => heard_of (by cases st <;> decide +kernel), by decide +kernel⟩

/-- With automatic assignment set: a ticket that finds a bin, and one whose estimate fits no bin. -/
theorem witness_GradeReportGradesTheTicket_auto :
    let auto (gross : Nat) : State :=
      { ticketed .graded false none with
        settings := { work.settings with intake := { factoryIntake with autoAssign := true } }
        tickets := [⟨1, tagA, 0, gross, 1000000, 0, false, some gradeA, none, .graded⟩] }
    Heard (auto 37720) (fr 4 (report 1 0)) (supervisorOr [.grader]) ∧
      (auto 37720).settings.intake.autoAssign = true ∧ (auto 37720).bindCheck gradeA 28720 = .found 5 ∧
      (auto 37720).bindCheck { gradeA with ip := some 5 } 28720 = .refused .mismatch ∧
      (auto 37720).DumpChoice 4 gradeA 28720 1 ∧ ∀ b, ¬ (auto 3000000).TakesDump 4 gradeA 2991000 b := by
  refine ⟨heard_of (by decide +kernel), by decide +kernel, by decide +kernel, by decide +kernel, ?_, ?_⟩
  · rw [← State.chooseBin_eq_some]; decide +kernel
  · rw [← State.chooseBin_eq_none]; decide +kernel

def gradedTicket (g : Grade) : Ticket := ⟨1, tagA, 0, 37720, 1000000, 0, false, some g, none, .graded⟩

theorem witness_AssignDumpBindsAndReserves :
    let s := ticketed .graded false none
    Heard s (fr 1 (long 1 ++ [2#8])) (supervisorOr [.grader, .scale]) ∧
      (s.ticket? 1 = some (gradedTicket gradeA) ∧ s.estimate (gradedTicket gradeA) = 28720 ∧
        decodeTwo 4 1 (long 1 ++ [2#8]) = some (1, (2 : BinNo).val) ∧ s.isWet gradeA = isTank 2 ∧ (s.bin 2).hold = none ∧
        ((s.binSet 2).restricted = true → (s.station 1).cls = .supervisor) ∧
        ((s.bin 2).fillOwner = .none ∨ (s.bin 2).fillOwner = .intake) ∧
        28720 ≤ s.freeSpace 2 ∧ 1 ≤ s.freeSlots 2 ∧ s.bindCheck gradeA 28720 = .found 5) ∧
      ∀ i, (s.bin 2).identity = some i → i = { cls := gradeA.cls, ip := gradeA.ip } :=
  ⟨heard_of (by decide +kernel), by decide +kernel, of_some (by decide +kernel) rfl⟩

/-- A binding that creates a receiving lot, one that creates an IP lot, and AUTO: dry grain into the bin of its class
before a lower UNASSIGNED one, and into the lowest UNASSIGNED one; wet grain into tank 41 while tank 40 has less free
space, and into tank 40 when both have the same; and an estimate that no bin takes. -/
theorem witness_AssignDumpBindsAndReserves_created :
    let s := ticketed .graded false none
    { s with lots := [] }.bindCheck gradeA 28720 = .created 7 .receiving ∧
      s.bindCheck { gradeA with ip := some 50000 } 28720 = .created 50000 .ip ∧
      decodeTwo 4 1 (long 1 ++ [0xFF#8]) = some (1, 0xFF) ∧
      s.DumpChoice 1 gradeA 28720 1 ∧ (s.setBin 1 Bin.cold).DumpChoice 1 gradeA 28720 2 ∧
      State.reset.DumpChoice 1 gradeA 28720 0 ∧ s.DumpChoice 1 { gradeA with moisture := 212 } 28720 41 ∧
      State.reset.DumpChoice 1 { gradeA with moisture := 212 } 28720 40 ∧ (∀ b, ¬ s.TakesDump 1 gradeA 2991000 b) ∧
      s.TakesDump 1 gradeA 28720 1 := by
  refine ⟨by decide +kernel, by decide +kernel, by decide +kernel, ?_, ?_, ?_, ?_, ?_, ?_, ?_⟩
  all_goals first
    | rw [← State.chooseBin_eq_some]; decide +kernel
    | rw [← State.chooseBin_eq_none]; decide +kernel
    | rw [← State.passes_iff]; decide +kernel

theorem witness_DumpAndWeighOutSettleTickets :
    (∀ st single, Heard (ticketed st single (some boundFor2)) (fr 1 (long 1)) (supervisorOr [.scale])) ∧
      decodeOne 4 (long 1) = some 1 ∧
      ((ticketed .graded false none).ticket? 1).map Ticket.state = some .graded ∧
      ((ticketed .assigned false (some boundFor2)).ticket? 1).map (fun t => (t.state, t.singlePass)) = some (.assigned, false) ∧
      ((ticketed .assigned true (some boundFor2)).ticket? 1).map (fun t => (t.state, t.singlePass)) = some (.assigned, true) :=
  ⟨fun st single => heard_of (by cases st <;> cases single <;> decide +kernel), by decide +kernel⟩

theorem witness_DumpAndWeighOutSettleTickets_weighOut :
    let s (st : TicketState) (o : Option Nat) : State :=
      { ticketed st false (some boundFor2) with vehicles := [⟨tagA, 0, none, o, 1000000⟩] }
    (∀ st, Heard (s st (some 1)) (fr 1 (0#8 :: tagA)) (supervisorOr [.scale])) ∧
      decodeWeighOut (0#8 :: tagA) = some ((0 : ChannelNo).val, tagA) ∧
      (s .dumped (some 1)).vehicle? tagA = some ⟨tagA, 0, none, some 1, 1000000⟩ ∧
      ((s .dumped (some 1)).scaleSet 0).cal.calibrated = true ∧ ((s .dumped (some 1)).channel 0).status = .stable ∧
      ((s .dumped (some 1)).channel 0).window.getLast?.map Sample.weight = some 37720 ∧
      (((s .dumped (some 1)).scaleSet 0).cal.division : Int) ≤ 37720 ∧
      37720 ≤ (((s .dumped (some 1)).scaleSet 0).cal.capacity : Int) ∧
      (((some 1).bind fun n => (s .dumped (some 1)).ticket? n).map Ticket.state = some .dumped) ∧
      (((some 1).bind fun n => (s .graded (some 1)).ticket? n).map Ticket.state = some .graded) ∧
      ((none : Option Nat).bind fun n => (s .dumped none).ticket? n) = none :=
  ⟨fun st => heard_of (by cases st <;> decide +kernel), by decide +kernel⟩

def dumpedTicket : Ticket := ⟨1, tagA, 0, 37720, 1000000, 0, false, some gradeA, some boundFor2, .dumped⟩

theorem witness_ClosingATicketDepositsItsNet :
    let s := ticketed .dumped false (some boundFor2)
    dumpedTicket.assignment = some boundFor2 ∧ dumpedTicket.grade = some gradeA ∧ s.lot? boundFor2.lot = some lotA ∧
      (s.bin boundFor2.dest).held (.ticket dumpedTicket.number) = some ⟨.ticket 1, 28720, 1⟩ ∧
      1 ≤ (⟨.ticket 1, 28720, 1⟩ : Holder).slots ∧ 37719 < dumpedTicket.gross ∧
      ((s.setBin 2 { s.bin 2 with hold := some .quality }).bin 2).hold.isSome = true ∧
      (dumpedTicket.gross ≤ 37720 ∧ { dumpedTicket with gross := 0 }.gross ≤ 37720) := by decide +kernel

theorem witness_TicketsAreVoidedAndVehiclesForgotten :
    let s (st : TicketState) := ticketed st false (some boundFor2)
    (∀ st p, Heard (s st) (fr 0 p) onlySupervisor) ∧
      decodeOne 4 (long 1) = some 1 ∧ ((s .dumped).ticket? 1).map Ticket.state = some .dumped ∧
      ((s .assigned).ticket? 1).map Ticket.state = some .assigned ∧ dumpedTicket.assignment = some boundFor2 ∧
      decodeTag tagA = some tagA ∧ ((s .dumped).vehicle? tagA).isSome = true ∧ (s .dumped).powered = true ∧
      work.ticket? 1 = none ∧ (gradedTicket gradeA).assignment = none :=
  ⟨fun st _ => heard_of (by cases st <;> (change hears _ 0 onlySupervisor = true; decide +kernel)), by decide +kernel⟩

def committing : State := { work with commit := .writing 0 1 Settings.factory }

theorem witness_SettingsRequestsWriteTheWorkingCopy :
    (∀ p, Heard work (fr 0 p) onlySupervisor) ∧ (∀ p, Heard committing (fr 0 p) onlySupervisor) ∧
      work.commit = .idle ∧ committing.commit ≠ .idle ∧
      decodeIntakeSetting (4#8 :: [1#8]) = some (.autoAssign true) ∧ IntakeSetting.inRange (.autoAssign true) = true ∧
      decodeIntakeSetting (3#8 :: short 10) = some (.ticketTimeout 10) ∧ IntakeSetting.inRange (.ticketTimeout 10) = true ∧
      decodeDryerSetting (0#8 :: long 60) = some (.warmUp 60) ∧ DryerSetting.inRange (.warmUp 60) = true ∧
      decodeTwo 1 4 (3#8 :: long 900) = some ((3 : LegNo).val, 900) ∧
      decodeRotationSetting (0#8 :: long 604800) = some (.staleTime 604800) ∧
      RotationSetting.inRange (.staleTime 604800) = true :=
  ⟨fun _ => heard_of (by change hears _ 0 onlySupervisor = true; decide +kernel),
   fun _ => heard_of (by change hears _ 0 onlySupervisor = true; decide +kernel), by decide +kernel⟩

theorem witness_DryerRequestsFollowTheStateTable :
    (∀ st ph, Heard (kiln st ph) (fr 5 []) (supervisorOr [.dryer])) ∧ Heard (kiln .fault .wet) (fr 0 []) onlySupervisor ∧
      (kiln .suspended .wet).dryer.batch = some (batchOf .wet) ∧ (batchOf .wet).phase = .wet ∧
      (kiln .drying .wet).powered = true ∧ (kiln .drying .wet).dryer.drying = some ⟨5400, false⟩ ∧
      (∀ st ph, Heard { kiln st ph with estop := true } (fr 5 []) (supervisorOr [.dryer])) :=
  ⟨fun st ph => heard_of (by cases st <;> cases ph <;> decide +kernel), heard_of (by decide +kernel), by decide +kernel,
   by decide +kernel, by decide +kernel, by decide +kernel,
   fun st ph => heard_of (by cases st <;> cases ph <;> decide +kernel)⟩

def chargeOf : Charge := ⟨40, 20000, 150, 2⟩

theorem witness_ChargeDrawsThePlanAndReserves :
    LayerLaw work ∧ Heard work (fr 5 (40#8 :: mass 20000 ++ short 150 ++ [2#8])) (supervisorOr [.dryer]) ∧
      decodeCharge (40#8 :: mass 20000 ++ short 150 ++ [2#8]) = some chargeOf ∧
      chargeOf.tank = (40 : BinNo).val ∧ chargeOf.dest = (2 : BinNo).val ∧ work.dryer.state = .ready ∧
      isTank 40 = true ∧ isTank 2 = false ∧ (work.bin 40).hold = none ∧ (work.bin 2).hold = none ∧
      ((work.binSet 40).restricted = true ∨ (work.binSet 2).restricted = true → (work.station 5).cls = .supervisor) ∧
      (work.bin 40).claim = none ∧ (work.bin 2).holders = [] ∧ (work.bin 40).identity = some cornId ∧
      ((work.bin 2).identity = none ∨ (work.bin 2).identity = some cornId) ∧
      1000 ≤ (work.chargePlan 40 20000).granted ∧
      dryEstimate work.settings.dryer 150 (work.chargePlan 40 20000).pieces ≤ work.freeSpace 2 ∧
      (work.chargePlan 40 20000).touched ≤ work.freeSlots 2 := by
  refine ⟨⟨?_, of_none (by decide +kernel)⟩, heard_of (by decide +kernel), by decide +kernel⟩
  unfold Bin.layersFit
  decide +kernel

theorem witness_BatchDriedShrinksEveryPortion :
    Heard (kiln .drying .wet) (fr 5 (short 148)) (some [.dryer]) ∧ decodeOne 2 (short 148) = some 148 ∧
      (kiln .drying .wet).dryer.state = .drying ∧ (kiln .drying .wet).dryer.batch = some (batchOf .wet) ∧
      (batchOf .wet).target + factoryDryer.tolerance < 161 ∧ min 99 400 < factoryDryer.floor :=
  ⟨heard_of (by decide +kernel), by decide +kernel⟩

theorem witness_DischargeHandsTheReservationOver :
    let s := kiln .dischargeWait .dried
    Heard s (fr 5 []) (supervisorOr [.dryer]) ∧ (fr 5 []).payload = [] ∧ s.dryer.state = .dischargeWait ∧
      s.dryer.batch = some (batchOf .dried) ∧ s.estop = false ∧ s.flag (flagStopped 3) = false ∧
      (s.bin 3).hold = none ∧ (s.bin 3).claim = none ∧ (s.bin 3).fillOwner = .dryer ∧
      (s.bin 3).identity = some (batchOf .dried).identity ∧ ((batchOf .dried).portions.map Portion.kg).sum ≠ 0 ∧
      (s.leg 3).active = none ∧ (batchOf .dried).phase = .dried ∧
      ({ s with estop := true, dryer := { s.dryer with autoDischarge := true } }.tryDischarge).2 = .refused .state none ∧
      ({ s.setBin 3 { s.bin 3 with hold := some .quality } with
          dryer := { s.dryer with autoDischarge := true } }.tryDischarge).2 = .refused .protect none :=
  ⟨heard_of (by decide +kernel), by decide +kernel⟩

theorem witness_DryerFaultKeepsTheGrain :
    (∀ st, Heard (kiln st .wet) (fr 5 []) (supervisorOr [.dryer])) ∧ (fr 5 []).payload = [] ∧
      (kiln .off .wet).dryer.state = .off ∧ (kiln .fault .wet).dryer.state = .fault ∧
      ((kiln .drying .wet).dryer.state ≠ .off ∧ (kiln .drying .wet).dryer.state ≠ .fault) ∧
      (kiln .drying .wet).dryer.discharge = none :=
  ⟨fun st => heard_of (by cases st <;> decide +kernel), by decide +kernel⟩

/-- A discharge that is live, of a batch with portions and of one that has been discharged. -/
theorem witness_DryerFaultKeepsTheGrain_discharge :
    (∀ ps, Heard (unloading ps) (fr 5 []) (supervisorOr [.dryer]) ∧ (unloading ps).dryer.state ≠ .off ∧
      (unloading ps).dryer.state ≠ .fault ∧ IdLaw (unloading ps) ∧ DischargeLaw (unloading ps) ∧
      (unloading ps).dryer.discharge = some 1 ∧
      (unloading ps).dryer.batch = some { batchOf .dried with portions := ps } ∧
      ((unloading ps).bin 3).holders ≠ []) ∧
      (batchOf .dried).portions ≠ [] ∧ { batchOf .dried with portions := [] }.portions = [] := by
  refine ⟨fun ps => ⟨heard_of (by change hears work 5 (supervisorOr [.dryer]) = true; decide +kernel), ?_, ?_,
    unloading_ids ps, unloading_discharge ps, rfl, rfl, ?_⟩, by decide +kernel⟩
  · simp [unloading]
  · simp [unloading]
  · change [_] ≠ []
    simp

theorem witness_ShrinkLosesNoKilogram : 400 ≤ 400 ∧ 100 ≤ 100 := by decide

def stageFor (a d : Byte) : List Byte := [1#8, a, d] ++ mass 4000000 ++ [0#8]

theorem witness_StagingAndLegUpkeep :
    (∀ p, Heard work (fr 7 p) (supervisorOr [.loadout])) ∧ (∀ p, Heard (staged stagedFor2) (fr 7 p) (supervisorOr [.loadout])) ∧
      decodeStage (stageFor 1#8 2#8) = some ⟨(1 : LegNo).val, .bin 1, .bin 2, 4000000, .ordinary⟩ ∧
      Place.noSuch (.bin 1) = false ∧ Place.noSuch (.bin 2) = false ∧ Place.noSuch (.dryer) = false ∧
      (work.flag (flagProtect 1) = false ∧ work.flag (flagSequence 1) = false) ∧
      (work.raise (flagSequence 1)).flag (flagSequence 1) = true ∧
      (((staged stagedFor2).leg 1).staging = some stagedFor2 ∧ stagedFor2.owner ≠ (fr 7 []).station) ∧
      ((work.leg 1).staging = none ∧ Place.sourceBin? (.bin 1) = some 1 ∧ Place.dest? (.bin 2) = some (.bin 2)) ∧
      (decodeStage (stageFor 0x40#8 2#8) = some ⟨(1 : LegNo).val, .dryer, .bin 2, 4000000, .ordinary⟩ ∧
        Place.sourceBin? .dryer = none) ∧
      decodeOne 1 [3#8] = some (3 : LegNo).val ∧ ({ work with estop := true }.estop = true ∧ work.estop = false) :=
  ⟨fun _ => heard_of (by change hears _ 7 (supervisorOr [.loadout]) = true; decide +kernel),
   fun _ => heard_of (by change hears _ 7 (supervisorOr [.loadout]) = true; decide +kernel), by decide +kernel⟩

theorem witness_StagingAndLegUpkeep_cleanout :
    Heard work (fr 0 [3#8]) onlySupervisor ∧ (carrying (.cleanout 0)).powered = true ∧
      ((carrying (.cleanout 0)).leg 1).active = some { pass1 with state := .cleanout 0 } ∧
      ((carrying .running).leg 1).active = some pass1 ∧ ∀ n, pass1.state ≠ .cleanout n :=
  ⟨heard_of (by decide +kernel), by decide +kernel, by decide +kernel, by decide +kernel, fun _ h => by cases h⟩

theorem witness_LaunchCommitsABinTransfer :
    let s := staged stagedFor2
    Heard s (fr 0 [1#8]) (supervisorOr [.loadout]) ∧ (∀ x, (s.bin 1).fillOwner ≠ .transfer x) ∧
      decodeOne 1 [1#8] = some (1 : LegNo).val ∧ (1 : BinNo) ≠ 2 ∧ (s.leg 1).staging = some stagedFor2 ∧
      s.flag (flagProtect 1) = false ∧ s.flag (flagSequence 1) = false ∧ s.flag (flagStopped 1) = false ∧
      s.estop = false ∧ (s.bin 1).hold = none ∧ (s.bin 2).hold = none ∧
      ((s.binSet 1).restricted = true ∨ (s.binSet 2).restricted = true → (s.station 0).cls = .supervisor) ∧
      (s.bin 1).claim = none ∧ (s.bin 2).claim = none ∧ (s.bin 2).holders = [] ∧ (s.bin 1).identity = some cornId ∧
      ((s.bin 2).identity = none ∨ (s.bin 2).identity = some cornId) ∧ (s.leg 1).active = none ∧
      1 ≤ min (s.planBin 1 20000 none none none).granted (s.freeSpace 2) ∧
      (drawLayers (s.bin 1).layers 20000).1.length ≤ s.freeSlots 2 := by
  refine ⟨heard_of (by decide +kernel), fun x hx => ?_, by decide +kernel⟩
  rw [show ((staged stagedFor2).bin 1).fillOwner = .none by decide +kernel] at hx
  cases hx

/-- Leg 1 with a staged request and a transfer in its ACTIVE slot, and berth A with an order that admits the grain. -/
def stagedBehind (x : Staging) (active : Option Transfer) : State :=
  (work.setLeg 1 { Leg.cold with staging := some x, active := active }).setBerth 0
    { berthOf .ready with order := some ⟨corn, 155, 720, 1200000⟩ }

/-- Every check of a launch, as far as the place on the leg. -/
def launches (s : State) (l : LegNo) (x : Staging) : Bool :=
  hears s x.owner (supervisorOr [.loadout]) && ((s.leg l).staging == some x) && !s.flag (flagProtect l) &&
    !s.flag (flagSequence l) && !(s.estop || s.flag (flagStopped l)) &&
    !((x.request l).binsNamed.any fun b => (s.bin b).hold.isSome) && !s.restrictedFor (x.request l) &&
    firstFailure (s.claimChecks (x.request l)) == none && firstFailure (s.identityChecks (x.request l)) == none &&
    ((s.bin x.source).identity == some cornId) && (s.stagedPlan x).granted != 0 &&
    (allBins.all fun d => x.dest != .bin d || (d == x.source || s.freeSpace d != 0) && decide (s.stagedSlots x ≤ s.freeSlots d))

theorem launches_spec {s : State} {l : LegNo} {x : Staging} (h : launches s l x = true) (p : List Byte) :
    Heard s (fr x.owner p) (supervisorOr [.loadout]) ∧ (s.leg l).staging = some x ∧ s.flag (flagProtect l) = false ∧
      s.flag (flagSequence l) = false ∧ s.legOpen l ∧ s.stagedUnheld x ∧ s.stagedPermitted x ∧ s.stagedFree x ∧
      s.stagedReady x ∧ s.stagedAgrees x ∧ (s.bin x.source).identity = some cornId ∧ (s.stagedPlan x).granted ≠ 0 ∧
      s.stagedSpace x ∧ s.stagedHasSlots x := by
  simp only [launches, Bool.and_eq_true, Bool.not_eq_true', beq_iff_eq, bne_iff_ne, ne_eq] at h
  obtain ⟨⟨⟨⟨⟨⟨⟨⟨⟨⟨⟨h1, h2⟩, h3⟩, h4⟩, h5⟩, h6⟩, h7⟩, h8⟩, h9⟩, h10⟩, h11⟩, h12⟩ := h
  have hc := (s.claimChecks_iff x l).1 h8
  have hs : ∀ d, x.dest = .bin d → (d = x.source ∨ s.freeSpace d ≠ 0) ∧ s.stagedSlots x ≤ s.freeSlots d := by
    intro d hd
    have := List.all_eq_true.1 h12 d (List.mem_finRange d)
    simpa [hd] using this
  exact ⟨heard_of (f := fr x.owner p) h1, h2, h3, h4, (s.legOpen_iff l).2 h5, (s.stagedUnheld_iff x l).2 h6, (s.stagedPermitted_iff x l).2 h7,
    hc.1, hc.2, (s.identityChecks_iff x l).1 h9, h10, h11, fun d hd hn => (hs d hd).1.resolve_left hn,
    fun d hd => (hs d hd).2⟩

/-- Launches to another bin, to the bin itself and to a berth, on an empty leg, behind a transfer that stays, and over
a YIELD transfer. -/
theorem witness_LaunchCommitsABinTransfer_places :
    (∀ d ∈ [Dest.bin 2, .bin 1, .berth 0], ∀ active ∈ [none, some { pass1 with source := .bin 5, attr := .yield }],
      ∀ attr ∈ [Attr.ordinary, .priority],
        launches (stagedBehind ⟨7, 1, d, 20000, attr⟩ active) 1 ⟨7, 1, d, 20000, attr⟩ = true) ∧
      (∀ x, ¬ ((stagedBehind x (some pass1)).leg 1).givesWay .priority) ∧
      (∀ x, ((stagedBehind x (some pass1)).leg 1).active ≠ none ∧ ((stagedBehind x (some pass1)).leg 1).buffered = none ∧
        ((stagedBehind x none).leg 1).active = none) ∧
      ∀ x, ((stagedBehind x (some { pass1 with attr := .yield })).leg 1).givesWay .priority := by
  have leg : ∀ x a, (stagedBehind x a).leg 1 = { Leg.cold with staging := some x, active := a } := fun x a =>
    work.leg_setLeg_same 1 _
  refine ⟨by decide +kernel, fun x h => ?_, fun x => by simp [leg, Leg.cold], fun x => ?_⟩
  · obtain ⟨_, _, a, ha, hy⟩ := h
    rw [leg] at ha
    cases ha
    cases hy
  · rw [leg]
    exact ⟨rfl, rfl, _, rfl, rfl⟩

/-- A staged launch that every check of R107 to R109 and R110 passes but for one. -/
theorem witness_LaunchRefusalsComeInOrder :
    let s := staged stagedFor2
    let f := fr 0 [1#8]
    Heard s f (supervisorOr [.loadout]) ∧ decodeOne 1 [1#8] = some (1 : LegNo).val ∧
      ((work.leg 1).staging = none ∧ (s.leg 1).staging = some stagedFor2) ∧
      (stagedFor2.owner = f.station ∧ stagedFor2.owner ≠ (fr 7 []).station) ∧
      (s.flag (flagProtect 1) = false ∧ s.flag (flagSequence 1) = false) ∧
      (s.raise (flagProtect 1)).flag (flagProtect 1) = true ∧
      (s.legOpen 1 ∧ ¬ { s with estop := true }.legOpen 1) ∧
      (s.stagedUnheld stagedFor2 ∧ ¬ (s.setBin 2 { Bin.cold with hold := some .quality }).stagedUnheld stagedFor2) ∧
      (s.stagedPermitted stagedFor2 ∧
        ¬ (s.setBinSet 1 { s.binSet 1 with restricted := true }).stagedPermitted { stagedFor2 with owner := 7 }) ∧
      (s.stagedFree stagedFor2 ∧ ¬ (s.setBin 1 { s.bin 1 with claim := some 9 }).stagedFree stagedFor2) ∧
      (s.stagedReady stagedFor2 ∧ ¬ s.stagedReady { stagedFor2 with dest := .berth 0 }) ∧
      s.stagedAgrees stagedFor2 ∧
      ¬ (s.setBin 2 { Bin.cold with identity := some ⟨⟨5, 0⟩, none⟩ }).stagedAgrees stagedFor2 ∧
      ¬ ((s.setBerth 0 { berthOf .ready with manifest := [⟨7, 1000⟩] }).stagedAgrees { stagedFor2 with dest := .berth 0 }) := by
  have hc : firstFailure ((staged stagedFor2).claimChecks (stagedFor2.request 1)) = none := by decide +kernel
  refine ⟨heard_of (by decide +kernel), by decide +kernel, by decide +kernel, by decide +kernel, by decide +kernel, by decide +kernel, ?_, ?_, ?_, ?_, ?_, ?_, ?_, ?_⟩
  · rw [State.legOpen_iff, State.legOpen_iff]; decide +kernel
  · rw [State.stagedUnheld_iff _ _ 1, State.stagedUnheld_iff _ _ 1]; decide +kernel
  · rw [State.stagedPermitted_iff _ _ 1, State.stagedPermitted_iff _ _ 1]; decide +kernel
  · exact ⟨((State.claimChecks_iff _ _ _).1 hc).1, fun h => by
      have := h.1
      revert this
      decide +kernel⟩
  · refine ⟨((State.claimChecks_iff _ _ _).1 hc).2, fun h => ?_⟩
    have := h 0 rfl
    revert this
    decide +kernel
  · rw [← State.identityChecks_iff _ _ 1]; decide +kernel
  · rw [← State.identityChecks_iff _ _ 1]; decide +kernel
  · rw [← State.identityChecks_iff _ _ 1]; decide +kernel

/-- The refusals of the plan, the space, the slots and the place, with every earlier check passed. -/
theorem witness_LaunchRefusalsComeInOrder_plan :
    let busy : Leg := { Leg.cold with staging := some stagedFor2, active := some pass1, buffered := some pass1 }
    let toBerth : Staging := { stagedFor2 with dest := .berth 0 }
    let turn : Staging := { stagedFor2 with dest := .bin 1 }
    (({ staged stagedFor2 with lots := [{ lotA with hold := some .quality }] }.stagedPlan stagedFor2).granted = 0 ∧
      ({ staged stagedFor2 with lots := [{ lotA with hold := some .quality }] }.stagedPlan stagedFor2).cause = .heldLot) ∧
      ((((staged toBerth).setBerth 0 (berthOf .ready)).stagedPlan toBerth).granted = 0 ∧
        (((staged toBerth).setBerth 0 (berthOf .ready)).stagedPlan toBerth).cause = .spec) ∧
      ((((staged stagedFor2).setBin 1 Bin.cold).stagedPlan stagedFor2).granted = 0 ∧
        (((staged stagedFor2).setBin 1 Bin.cold).stagedPlan stagedFor2).cause = .sourceEnd) ∧
      (((staged stagedFor2).stagedPlan stagedFor2).granted ≠ 0 ∧ ((staged turn).stagedPlan turn).granted ≠ 0) ∧
      (¬ ((staged stagedFor2).setBinSet 2 { (staged stagedFor2).binSet 2 with capacity := 0 }).stagedSpace stagedFor2) ∧
      (¬ ((staged turn).setBin 1 { (staged turn).bin 1 with layers := List.replicate 12 ⟨5, 1750, 150, 730⟩ }).stagedHasSlots
        turn) ∧
      busy.full .ordinary := by
  refine ⟨by decide +kernel, by decide +kernel, by decide +kernel, by decide +kernel, fun h => ?_, fun h => ?_, ?_⟩
  · have := h 2 rfl (by decide)
    revert this
    decide +kernel
  · have := h 1 rfl
    revert this
    decide +kernel
  · rw [← Leg.place_eq_none]; decide +kernel

/-- A plan that the berth's 16 manifest entries stop at its first layer. -/
theorem witness_LaunchRefusalsComeInOrder_manifest :
    let b : Berth := { berthOf .ready with manifest := (List.range 16).map fun n => ⟨n + 100, 1⟩ }
    let x : Staging := { stagedFor2 with dest := .berth 0 }
    ((((staged x).setBerth 0 b).stagedPlan x).granted = 0 ∧ (((staged x).setBerth 0 b).stagedPlan x).cause = .manifest) := by
  decide +kernel

theorem witness_FlowReportMovesWithoutLoss :
    LayerLaw (carrying .running) ∧ Heard (carrying .running) (fr 7 (1#8 :: mass 65535)) (some [.loadout, .dryer]) ∧
      decodeTwo 1 4 (1#8 :: mass 65535) = some ((1 : LegNo).val, 65535) ∧
      ((carrying .running).leg 1).active = some pass1 ∧ pass1.state = .running ∧
      (carrying .running).supply pass1 < 65535 ∧
      ((carrying .running).bin 2).held (.transfer 1) = some ⟨.transfer 1, 20000, 1⟩ ∧
      ((carrying .running).bin 1).layers.length ≤ (⟨.transfer 1, 20000, 1⟩ : Holder).slots ∧
      pass1.originalRemaining = none := by
  refine ⟨⟨?_, of_none (by decide +kernel)⟩, heard_of (by decide +kernel), by decide +kernel⟩
  unfold Bin.layersFit
  decide +kernel

/-- A report into a berth, within its load limit and, at a limit of 0, past it. -/
theorem witness_FlowReportMovesWithoutLoss_berth :
    let past := loading.setBerth 0 { loading.berth 0 with loadLimit := 0 }
    LayerLaw loading ∧ LayerLaw past ∧ Heard loading (fr 7 (1#8 :: mass 65535)) (some [.loadout, .dryer]) ∧
      (loading.leg 1).active = some { pass1 with dest := .berth 0 } ∧ pass1.source = .bin 1 ∧
      pass1.originalRemaining = none ∧ (loading.berth 0).plan = some [⟨400000, 0⟩, ⟨400000, 0⟩] ∧
      (loading.berth 0).current = some (0 + 1) ∧ ((loading.berth 0).manifest.map Manifested.lot).Nodup ∧
      (loading.berth 0).manifest.length + (loading.bin 1).layers.length ≤ 16 ∧
      (∀ moved, moved ≤ 65535 → ¬ (loading.berth 0).loadLimit < (loading.berth 0).cargo.q + moved) ∧
      ∀ moved, 1 ≤ moved → (past.berth 0).loadLimit < (past.berth 0).cargo.q + moved := by
  have h1 : (loading.berth 0).loadLimit = 1216000 ∧ (loading.berth 0).cargo.q = 0 := by decide +kernel
  refine ⟨⟨?_, of_none (by decide +kernel)⟩, ⟨?_, of_none (by decide +kernel)⟩, heard_of (by decide +kernel), by decide +kernel,
    by decide +kernel, by decide +kernel, by decide +kernel, by decide +kernel, by decide +kernel, by decide +kernel,
    fun moved h => ?_, fun moved h => ?_⟩
  · unfold Bin.layersFit; decide +kernel
  · unfold Bin.layersFit; decide +kernel
  · rw [h1.1, h1.2]; omega
  · rw [State.berth_setBerth_same]
    exact Nat.lt_of_lt_of_le h (Nat.le_add_left _ _)

theorem witness_EndOfATransferReleasesWhatItHeld :
    ((carrying .running).leg 1).slot .active = some pass1 ∧
      (loading.leg 1).slot .active = some { pass1 with dest := .berth 0 } ∧
      Heard (carrying .running) (fr 7 [1#8, 0#8]) (supervisorOr [.loadout]) ∧
      decodeAbort [1#8, 0#8] = some ((1 : LegNo).val, .active) ∧ (work.leg 1).slot .active = none ∧
      (carrying .running).dryer.autoDischarge = false ∧ ∀ n, (carrying .running).entry n = none :=
  ⟨by decide +kernel, by decide +kernel, heard_of (by decide +kernel), by decide +kernel, by decide +kernel, by decide +kernel,
   by decide +kernel⟩

/-- A leg whose ACTIVE slot has just been emptied, with a transfer to a bin waiting in SUSPENDED, and one to a berth
waiting in BUFFERED: a berth that is not READY, one that is, and one whose order admits nothing of the source. -/
theorem witness_EndOfATransferReleasesWhatItHeld_succession :
    let leg (su bu : Option Transfer) : Leg := { Leg.cold with suspended := su, buffered := bu }
    let t : Transfer := { pass1 with dest := .berth 0 }
    let s (b : Berth) : State := (work.setLeg 1 (leg none (some t))).setBerth 0 b
    let ready : Berth := { berthOf .ready with order := some ⟨corn, 155, 720, 1200000⟩ }
    (leg (some pass1) none).active = none ∧ pass1.dest = .bin 2 ∧ t.dest = .berth 0 ∧ t.source = .bin 1 ∧
      ((s ready).leg 1).active = none ∧ ((s ready).leg 1).suspended = none ∧ ((s ready).leg 1).buffered = some t ∧
      ((s (berthOf .assigned)).berth 0).state ≠ .ready ∧ ((s ready).berth 0).state = .ready ∧
      ((s ready).planBin 1 (min (t.target - t.delivered) ready.figures.least) none none ready.bound).granted ≠ 0 ∧
      ((s (berthOf .ready)).planBin 1 (min (t.target - t.delivered) (berthOf .ready).figures.least) none none
        (berthOf .ready).bound).granted = 0 ∧
      ((loading.leg 1).active ≠ none ∧ (work.leg 1).active = none ∧ (work.leg 1).buffered = none) := by
  decide +kernel

theorem witness_TemperatureReportsJudgeTheBin :
    Heard work (fr 6 (41#8 :: degrees (-32768))) (supervisorOr [.scanner]) ∧
      decodeTemperature (41#8 :: degrees (-32768)) = some ((41 : BinNo).val, -32768) ∧ work.powered = true ∧
      (work.bin 41).temp.staleTimer = none ∧
      ((work.setBin 41 { Bin.cold with temp := { TempFields.cold with staleTimer := some 0 } }).bin 41).temp.staleTimer ≠
        none := ⟨heard_of (by decide +kernel), by decide +kernel⟩

/-- A report of 28.0 °C, the limit itself, on a bin that turns itself: every entry is free, or every one is taken, or
auto-turn is off. Then a bin that was HOT and cools, and one that was STALE and stays as hot as it was. -/
theorem witness_TemperatureReportsJudgeTheBin_turn :
    let auto := work.setBinSet 1 { work.binSet 1 with autoTurn := true }
    let taken : State := { auto with schedules := Vector.replicate 8 (some { entryA with source := 9, dest := 9 }) }
    let judged (x : TempFields) : State := work.setBin 1 { work.bin 1 with temp := x }
    let hot : TempFields := { TempFields.cold with hot := true, baseline := some 182 }
    (∀ s ∈ [work, auto, taken, judged hot, judged { TempFields.cold with stale := true }],
      Heard s (fr 6 (1#8 :: degrees 280)) (supervisorOr [.scanner])) ∧
      decodeTemperature (1#8 :: degrees 280) = some ((1 : BinNo).val, 280) ∧
      ((auto.bin 1).temp.hot = false ∧ (auto.bin 1).temp.baseline = none ∧ (auto.binSet 1).hotLimit = 280) ∧
      ((auto.binSet 1).autoTurn = true ∧ (auto.bin 1).hold = none ∧ (∀ n, auto.entry n = none) ∧
        (work.binSet 1).autoTurn = false) ∧
      (∀ n, taken.entry n = some { entryA with source := 9, dest := 9 }) ∧
      (decodeTemperature (1#8 :: degrees 221) = some ((1 : BinNo).val, 221) ∧ ((judged hot).bin 1).temp = hot ∧
        ((221 : Int) ≤ ((judged hot).binSet 1).hotLimit - 20 ∧ 221 - 182 < ((judged hot).binSet 1).riseLimit - 20)) ∧
      ((judged { TempFields.cold with stale := true }).bin 1).temp.stale = true := by
  refine ⟨fun s hs => heard_of ?_, by decide +kernel⟩
  simp only [List.mem_cons, List.not_mem_nil, or_false] at hs
  rcases hs with rfl | rfl | rfl | rfl | rfl <;> decide +kernel

theorem witness_SchedulesAreSetAndEnded :
    (∀ p, Heard work (fr 0 p) onlySupervisor) ∧ (∀ p, Heard (scheduled entryA) (fr 0 p) onlySupervisor) ∧
      decodeSchedule ([7#8, 1#8, 1#8, 3#8] ++ mass 4000000 ++ [0#8, 3#8] ++ short 365) =
        some ⟨(7 : EntryNo).val, (1 : BinNo).val, (1 : BinNo).val, (3 : LegNo).val, 4000000, 0, .ifAge 365⟩ ∧
      (1 ≤ 365 ∧ isTank 1 = false ∧ isTank 41 = true ∧ work.entry 7 = none ∧ (work.bin 1).hold = none) ∧
      decodeEndSchedule [3#8, 1#8] = some ((3 : EntryNo).val, true) ∧ work.entry 3 = none ∧
      (scheduled entryA).entry 3 = some entryA ∧ entryA.inFlight = none ∧
      ((scheduled { entryA with state := .launched, inFlight := some 1 }).entry 3).map Entry.inFlight = some (some 1) :=
  ⟨fun _ => heard_of (by change hears _ 0 onlySupervisor = true; decide +kernel),
   fun _ => heard_of (by change hears _ 0 onlySupervisor = true; decide +kernel), by decide +kernel⟩

def moves : Entry := { entryA with dest := 2, condition := .always }
def turns : Entry := { entryA with condition := .always }

/-- An entry that is due, and one whose bin is not HOT; then a pass that every check of R140 passes but for one. -/
theorem witness_SchedulesAreSetAndEnded_refused :
    let s := scheduled moves
    let q := moves.pass s
    let full := s.setBinSet 2 { s.binSet 2 with capacity := 0 }
    s.entry 3 = some moves ∧ s.entry 4 = none ∧ s.passDue moves ∧ ¬ (scheduled entryA).passDue entryA ∧
      ¬ { s with estop := true }.legOpen 0 ∧ ¬ (s.setBin 2 { Bin.cold with hold := some .quality }).stagedUnheld q ∧
      ¬ (s.setBin 1 { s.bin 1 with claim := some 9 }).stagedFree q ∧
      ¬ (s.setBin 2 { Bin.cold with identity := some ⟨⟨5, 0⟩, none⟩ }).stagedAgrees q ∧
      (({ s with lots := [{ lotA with hold := some .quality }] }.stagedPlan q).granted = 0 ∧
        ({ s with lots := [{ lotA with hold := some .quality }] }.stagedPlan q).cause = .heldLot) ∧
      ((s.setBin 1 Bin.cold).stagedPlan (moves.pass (s.setBin 1 Bin.cold))).granted = 0 ∧
      ¬ full.stagedSpace (moves.pass full) := by
  refine ⟨by decide +kernel, by decide +kernel, ⟨rfl, by decide +kernel, .inl (by decide +kernel)⟩, fun h => ?_, ?_, ?_,
    fun h => ?_, ?_, by decide +kernel, by decide +kernel, fun h => ?_⟩
  · have := h.2.1
    revert this
    decide +kernel
  · rw [State.legOpen_iff]; decide +kernel
  · rw [State.stagedUnheld_iff _ _ 1]; decide +kernel
  · have := h.1
    revert this
    decide +kernel
  · rw [← State.identityChecks_iff _ _ 1]; decide +kernel
  · have := h 2 rfl (by decide)
    revert this
    decide +kernel

/-- A pass to another bin and a self-turn, on an empty leg and behind another transfer, with every check passed. -/
theorem witness_SchedulesAreSetAndEnded_launched :
    let behind (e : Entry) : State := (scheduled e).setLeg 0 { Leg.cold with active := some { pass1 with source := .bin 5 } }
    ∀ e ∈ [moves, turns], ∀ s ∈ [scheduled e, behind e],
      s.entry 3 = some e ∧ s.passDue e ∧ s.legOpen e.leg ∧ s.stagedUnheld (e.pass s) ∧ s.stagedFree (e.pass s) ∧
        s.stagedAgrees (e.pass s) ∧ (s.bin e.source).identity = some cornId ∧ (s.stagedPlan (e.pass s)).granted ≠ 0 ∧
        s.stagedSpace (e.pass s) ∧ s.stagedHasSlots (e.pass s) := by
  intro behind e he s hs
  have test : (∀ e ∈ [moves, turns], ∀ s ∈ [scheduled e, behind e],
      s.entry 3 = some e ∧ launches (s.setLeg e.leg { s.leg e.leg with staging := some (e.pass s) }) e.leg (e.pass s) = true ∧
        e.state = .waiting ∧ s.conditionHolds e = true ∧ (s.leg e.leg).buffered = none) := by decide +kernel
  obtain ⟨h1, h2, h3, h4, h5⟩ := test e he s hs
  obtain ⟨-, -, -, -, c1, c2, -, c3, -, c4, c5, c6, c7, c8⟩ := launches_spec h2 []
  exact ⟨h1, ⟨h3, h4, .inr h5⟩, c1, c2, c3, c4, c5, c6, c7, c8⟩

/-- Leg 1 carries the pass of entry 3, which is LAUNCHED or has been ended; then a self-turn of an entry IF_HOT_REBASE,
with one pass left, whose bin has a reading. -/
theorem witness_SchedulesAreSetAndEnded_ended :
    let flying (e : Entry) (st : EntryState) : State :=
      ((carrying .running).setLeg 1 { Leg.cold with active := some { pass1 with origin := .schedule 3, dest := .bin e.dest } }).setEntry 3
        (some { e with state := st, inFlight := some 1 })
    let rebase : Entry := { turns with condition := .ifHotRebase, remaining := some 1 }
    (∀ e ∈ [moves, rebase], ∀ st ∈ [EntryState.launched, .ended],
      ((flying e st).leg 1).slot .active = some { pass1 with origin := .schedule 3, dest := .bin e.dest } ∧
        (flying e st).entry 3 = some { e with state := st, inFlight := some pass1.id } ∧
        ((flying e st).bin 1).temp.hot = false) ∧
      { TempFields.cold with lastReading := some 245, baseline := some 182, hot := true }.lastReading = some 245 := by
  decide +kernel

def bargeOf (name : Byte) : Barge := ⟨List.replicate 12 name, 20, 20000, 450⟩

theorem witness_BargesAreAcceptedAndReleased :
    (∀ p, Heard work (fr 7 p) (supervisorOr [.loadout])) ∧
      (∀ p, Heard (quay (berthOf .ready)) (fr 7 p) (supervisorOr [.loadout])) ∧
      decodeBarge (1#8 :: List.replicate 12 0x7E#8 ++ short 20 ++ short 20000 ++ short 450) =
        some ((1 : BerthNo).val, bargeOf 0x7E#8) ∧
      (∀ b ∈ (bargeOf 0x7E#8).name, printable b = true) ∧
      (bargeOf 0x7E#8).lightDraft < (bargeOf 0x7E#8).maxDraft ∧
      decodeOne 1 [0#8] = some (0 : BerthNo).val ∧ (work.berth 0).state = .vacant ∧
      ((quay (berthOf .ready)).berth 0).state ≠ .vacant ∧ ((quay (berthOf .ready)).berth 0).claim = none ∧
      (loading.berth 0).claim ≠ none :=
  ⟨fun _ => heard_of (by change hears _ 7 (supervisorOr [.loadout]) = true; decide +kernel),
   fun _ => heard_of (by change hears _ 7 (supervisorOr [.loadout]) = true; decide +kernel), by decide +kernel⟩

theorem witness_OrdersPlansAndSpoutsChangeTheirBerth :
    let s := quay (berthOf .ready)
    (∀ p, Heard s (fr 7 p) (supervisorOr [.loadout])) ∧ Heard s (fr 7 [0#8, 1#8]) (some [.loadout]) ∧
      (∀ p : Position, p ∈ ((s.berth 0).plan.getD []).drop 6 → p.loaded = 0) ∧
      decodeOrder ([0#8, 2#8, 1#8] ++ short 145 ++ short 720 ++ mass 1200000) =
        some ⟨(0 : BerthNo).val, 2, 1, 145, 720, 1200000⟩ ∧
      OrderRequest.order? ⟨0, 2, 1, 145, 720, 1200000⟩ = some ⟨corn, 145, 720, 1200000⟩ ∧
      (s.berth 0).barge ≠ none ∧ (s.berth 0).claim = none ∧ (work.berth 0).barge = none ∧ (loading.berth 0).claim ≠ none ∧
      decodePlan ([0#8, 6#8] ++ (List.replicate 6 (mass 8600000)).flatten) =
        some ((0 : BerthNo).val, List.replicate 6 8600000) ∧
      (decodeSpout [0#8, 2#8, 3#8] = some ⟨(0 : BerthNo).val, 2, 3⟩ ∧
        decodeSpout [0#8, 3#8, 0#8] = some ⟨(0 : BerthNo).val, 3, 0⟩) ∧
      (s.berth 0).plan = some [⟨400000, 0⟩, ⟨400000, 0⟩] ∧ (loading.berth 0).state = .loading ∧
      decodeTwo 1 1 [0#8, 1#8] = some ((0 : BerthNo).val, 1) ∧
      { berthOf .assigned with movePending := true, spoutTimer := some 0 }.spoutTimer ≠ none ∧
      (s.berth 0).movePending = false :=
  ⟨fun _ => heard_of (by change hears _ 7 (supervisorOr [.loadout]) = true; decide +kernel), heard_of (by decide +kernel),
   by decide +kernel, by decide +kernel⟩

/-- A plan that would drop a loaded position, and a spout command with no plan. -/
theorem witness_OrdersPlansAndSpoutsChangeTheirBerth_plan :
    (∃ p : Position, p ∈ (({ berthOf .ready with plan := some [⟨400000, 0⟩, ⟨400000, 1⟩] }.plan).getD []).drop 1 ∧
      p.loaded ≠ 0) ∧
      decodePlan ([0#8, 1#8] ++ mass 8600000) = some ((0 : BerthNo).val, [8600000]) ∧ (work.berth 0).plan = none ∧
      (work.berth 0).barge = none ∧ (loading.berth 0).barge ≠ none ∧ (loading.berth 0).claim ≠ none := by decide +kernel

/-- Another class of order on a berth whose cargo is not empty. -/
theorem witness_OrdersPlansAndSpoutsChangeTheirBerth_mismatch :
    0 < { berthOf .ready with cargo := ⟨1, 140, 730⟩ }.cargo.q ∧
      (berthOf .ready).order = some ⟨corn, 145, 720, 1200000⟩ ∧ corn ≠ ⟨5, 0⟩ := by decide +kernel

theorem witness_BerthConditionsHaltAndResume :
    (∀ p, Heard loading (fr 7 p) (supervisorOr [.loadout])) ∧
      (∀ p, Heard (quay (berthOf (.halted .estop))) (fr 7 p) (supervisorOr [.loadout])) ∧
      decodeEnable [0#8, 0#8] = some ((0 : BerthNo).val, false) ∧ (loading.berth 0).state = .loading ∧
      loading.powered = true ∧ (loading.berth 0).present ≠ false ∧ (loading.berth 0).moored ≠ false ∧
      (work.berth 0).state ≠ .loading ∧ (work.berth 0).button = false ∧
      { berthOf .ready with button := true }.button = true ∧ decodeOne 1 [0#8] = some (0 : BerthNo).val ∧
      ((quay (berthOf (.halted .estop))).berth 0).state = .halted .estop ∧
      (berthOf (.halted .estop)).cargo.q ≤ (berthOf (.halted .estop)).loadLimit ∧
      (berthOf (.halted .estop)).completed = false ∧
      { berthOf (.halted .estop) with order := some ⟨corn, 145, 720, 0⟩ }.completed = true :=
  ⟨fun _ => heard_of (by change hears _ 7 (supervisorOr [.loadout]) = true; decide +kernel),
   fun _ => heard_of (by change hears _ 7 (supervisorOr [.loadout]) = true; decide +kernel), by decide +kernel⟩

theorem witness_RiverChangesSetBothLoadLimits :
    (∀ p, Heard work (fr 9 p) (supervisorOr [.gauge])) ∧ (∀ p, Heard work (fr 0 p) onlySupervisor) ∧
      decodeSigned 2 (degrees (-32768)) = some (-32768) ∧ work.powered = true ∧ work.river.staleTimer = none ∧
      { work with river := ⟨35, 0, true, false, some 0⟩ }.river.staleTimer ≠ none ∧
      decodeRiverSetting (3#8 :: long 300) = some (.staleTime 300) ∧ RiverSetting.inRange (.staleTime 300) = true ∧
      decodeRiverSetting (0#8 :: short 1500) = some (.channelDepth 1500) ∧
      RiverSetting.inRange (.channelDepth 1500) = true ∧ work.commit = .idle :=
  ⟨fun _ => heard_of (by change hears _ 9 (supervisorOr [.gauge]) = true; decide +kernel),
   fun _ => heard_of (by change hears _ 0 onlySupervisor = true; decide +kernel), by decide +kernel⟩

theorem witness_StationsAndEventsAreWritten :
    (∀ p, Heard work (fr 0 p) onlySupervisor) ∧ (∀ p, Heard committing (fr 0 p) onlySupervisor) ∧
      decodeStation [1#8, 7#8, 0#8] = none ∧ decodeStation [16#8, 0#8, 0#8] = some (16, ⟨.supervisor, false⟩) ∧
      decodeFlags [11#8, 1#8, 0#8] = some (11, 1#16) ∧
      decodeStation [0#8, 0#8, 1#8] = some ((0 : StationNo).val, ⟨.supervisor, true⟩) ∧
      decodeStation [15#8, 6#8, 0#8] = some ((15 : StationNo).val, ⟨.gauge, false⟩) ∧
      work.commit = .idle ∧ committing.commit ≠ .idle ∧
      decodeFlags [10#8, 3#8, 0#8] = some ((10 : Fin 11).val, 3#16) :=
  ⟨fun _ => heard_of (by change hears _ 0 onlySupervisor = true; decide +kernel),
   fun _ => heard_of (by change hears _ 0 onlySupervisor = true; decide +kernel), by decide +kernel⟩

theorem witness_SettingsAreCommittedAndTimeIsSet :
    (∀ p, Heard work (fr 0 p) onlySupervisor) ∧ (∀ p, Heard committing (fr 0 p) onlySupervisor) ∧
      decodeOne 4 (mass 20000) = some 20000 ∧ decodeOne 4 (mass 5000000) = some 5000000 ∧ work.commit = .idle ∧
      committing.commit = .writing 0 1 Settings.factory ∧ (fr 0 []).payload = [] ∧
      decodeOne 4 (long 4294967295) = some 4294967295 ∧ committing.powered = true ∧ work.powered = true :=
  ⟨fun _ => heard_of (by change hears _ 0 onlySupervisor = true; decide +kernel),
   fun _ => heard_of (by change hears _ 0 onlySupervisor = true; decide +kernel), by decide +kernel⟩

theorem witness_LinesAndPowerChangeTheMachine :
    work.powered = true ∧ work.estop = false ∧ { work with estop := true }.estop = true ∧
      (∀ l k x, (work.leg l).slot k = some x → x.origin ≠ .dryer) ∧ work.dryer.state ≠ .dischargeWait ∧
      { work with resetLine := true }.resetLine = true ∧ work.commit = .idle ∧ committing.commit ≠ .idle := by
  refine ⟨by decide +kernel, by decide +kernel, by decide +kernel, fun l k x h => ?_, by decide +kernel⟩
  have none_there : ∀ l k, (work.leg l).slot k = none := by
    intro l k
    cases k <;> revert l <;> decide +kernel
  rw [none_there l k] at h
  cases h

theorem witness_WarmStartKeepsTheRecords :
    work.powered = true ∧ work.resetLine = false ∧ work.tickets = [] ∧ work.commit = .idle ∧
      { answering with resetPending := true }.response.isSome = true ∧
      { answering with resetPending := true }.resetPending = true ∧ quiet.backupLost = false := by decide +kernel

/-- The records a warm start finds: a ticket, a batch whose discharge is live, a berth that loads, one that has halted,
and no entry that waits. -/
theorem witness_WarmStartKeepsTheRecords_records :
    TableLaw (ticketed .graded false none) ∧ (ticketed .graded false none).tickets ≠ [] ∧
      (unloading (batchOf .dried).portions).dryer.batch = some (batchOf .dried) ∧ (batchOf .dried).portions ≠ [] ∧
      DischargeLaw (unloading (batchOf .dried).portions) ∧
      (loading.berth 0).state = .loading ∧ (∃ x ∈ loading.live, x.dest = .berth 0) ∧
      ((quay (berthOf (.halted .estop))).berth 0).state = .halted .estop ∧ (loading.berth 1).state = .vacant ∧
      (loading.berth 0).barge ≠ none ∧ ∀ n, loading.entry n = none := by
  refine ⟨?_, by decide +kernel, by decide +kernel, by decide +kernel, unloading_discharge _, by decide +kernel,
    by decide +kernel, by decide +kernel, by decide +kernel, by decide +kernel, by decide +kernel⟩
  unfold TableLaw
  decide +kernel

/-- A bin whose stale timer runs: the start carries it across on terminal time, short of its end and past it. -/
theorem witness_WarmStartKeepsTheRecords_stale :
    let running (read : Nat) : State :=
      work.setBin 1 { work.bin 1 with temp := { TempFields.cold with readingTime := some read, staleTimer := some 600 } }
    ∀ read ∈ [999999, 0], ((running read).bin 1).temp.staleTimer = some 600 ∧
      ((running read).bin 1).temp.readingTime = some read ∧ (running read).terminalTime = 1000000 ∧
      (running read).age 999999 = some 1 ∧ (running read).age 0 = some 1000000 := by decide +kernel

theorem written_good (g : Nat) (x : Settings) : (Bank.written g x).good = true := by simp [Bank.good, Bank.written]

theorem chooseBank_none {a b : Bank} (ha : a.good = false) (hb : b.good = false) : chooseBank a b = none := by
  simp [chooseBank, ha, hb]

theorem chooseBank_first {a b : Bank} (ha : a.good = true) (hb : b.good = false) : chooseBank a b = some 0 := by
  simp [chooseBank, ha, hb]

/-- A bank that was written is good, and the bank of reset is not. -/
theorem witness_ColdStartEmptiesEveryRecord :
    { quiet with backupLost := true }.backupLost = true ∧ work.commit = .idle ∧
      chooseBank Bank.blank Bank.blank = none ∧
      chooseBank (Bank.written 1 Settings.factory) Bank.blank = some 0 :=
  ⟨rfl, rfl, chooseBank_none test_blank_bank_is_bad test_blank_bank_is_bad,
   chooseBank_first (written_good 1 Settings.factory) test_blank_bank_is_bad⟩

end Sys2Proof.Tests
end

section
/-! PROOFS. The reads and the requests over the lot table: Close Receiving Lot, Close IP Lot, Set Lot Hold, Clear Lot
Hold, Amend Lot and Retire Lot (R13 to R20). -/

namespace Sys2Proof.Machine

/-! ### A heard request and its answer -/

section Heard
variable {α : Type} {code : Byte} {cs : Classes} {decode : List Byte → Option α}
  {act : StationNo → α → State → State × Answer} {f : Frame} {s : State} {a : α}

/-- A heard request that decodes is answered as its owning block answers it. -/
theorem answered_of_heard (h : Heard s f cs) (hd : decode f.payload = some a) :
    Host.Outcome.next (serve code cs decode act f s) =
      answered code f (act f.station a s).1 (act f.station a s).2 := by
  rw [serve_decoded h hd]; rfl

/-- A heard request that does not decode is answered FORMAT (R176). -/
theorem answered_format_of_heard (h : Heard s f cs) (hd : decode f.payload = none) :
    Host.Outcome.next (serve code cs decode act f s) = answered code f s ⟨.format, []⟩ := by
  rw [serve_heard h, hd]; rfl

/-- A heard request whose block goes to `t` and answers `x` is answered so. -/
theorem answered_of_act {t : State} {x : Answer} (h : Heard s f cs) (hd : decode f.payload = some a)
    (hr : act f.station a s = (t, x)) :
    Host.Outcome.next (serve code cs decode act f s) = answered code f t x := by
  rw [answered_of_heard h hd, hr]

end Heard

/-- A request with no fields decodes exactly from the empty payload. -/
theorem decodeNothing_nil {p : List Byte} (h : p = []) : decodeNothing p = some () := by
  subst h; rfl

/-! ### Reads -/

/-- Settles O19: each read decodes its fields and its block accepts the state it was given. -/
theorem readsAnswerAndChangeNothing : Obligations.ReadsAnswerAndChangeNothing := by
  unfold Obligations.ReadsAnswerAndChangeNothing
  intro s f h
  refine ⟨?lot, ?find, ?bin, ?layers, ?scale, ?vehicle, ?ticket, ?tickets, ?intake, ?dryer, ?leg, ?schedules, ?berth,
    ?river, ?stations, ?events, ?time⟩
  case lot => intro n l hd hl; exact answered_of_act h hd (by simp [actReadLot, hl, accept])
  case find =>
    intro q start hd hq
    exact answered_of_act h hd (by simp [actFindLots, unlessFails, firstFailure, hq, accept])
  case bin => intro b hd; exact answered_of_act h hd (by simp [actReadBin, accept])
  case layers =>
    intro b first hd hf
    exact answered_of_act h hd (by simp [actReadLayers, unlessFails, firstFailure, Nat.ne_of_gt hf, accept])
  case scale => intro c hd; exact answered_of_act h hd (by simp [actReadScale, accept])
  case vehicle => intro tag v hd hv; exact answered_of_act h hd (by simp [actReadVehicle, hv, accept])
  case ticket => intro n t hd ht; exact answered_of_act h hd (by simp [actReadTicket, ht, accept])
  case tickets =>
    intro start hd hs
    exact answered_of_act h hd
      (by simp [actListTickets, unlessFails, firstFailure, Config.maxTicketNo, Nat.not_lt.mpr hs, accept])
  case intake => intro hp; exact answered_of_act h (decodeNothing_nil hp) rfl
  case dryer => intro hp; exact answered_of_act h (decodeNothing_nil hp) rfl
  case leg => intro l hd; exact answered_of_act h hd (by simp [actReadLeg, accept])
  case schedules => intro hp; exact answered_of_act h (decodeNothing_nil hp) rfl
  case berth => intro k hd; exact answered_of_act h hd (by simp [actReadBerth, accept])
  case river => intro hp; exact answered_of_act h (decodeNothing_nil hp) rfl
  case stations => intro hp; exact answered_of_act h (decodeNothing_nil hp) rfl
  case events => intro hp; exact answered_of_act h (decodeNothing_nil hp) rfl
  case time => intro hp; exact answered_of_act h (decodeNothing_nil hp) rfl

/-! ### Closing lots -/

/-- An OPEN RECEIVING lot, as a proposition. -/
theorem Lot.isOpenReceiving_iff (l : Lot) : l.isOpenReceiving = true ↔ l.kind = .receiving ∧ l.state = .opened := by
  simp [Lot.isOpenReceiving]

/-- A lot that is not OPEN is CLOSED. -/
theorem LotState.ne_opened {x : LotState} : x ≠ .opened ↔ x = .closed := by cases x <;> simp

theorem LotKind.ne_receiving {k : LotKind} : k ≠ .receiving ↔ k = .ip := by cases k <;> simp

theorem LotKind.ne_ip {k : LotKind} : k ≠ .ip ↔ k = .receiving := by cases k <;> simp

/-- Close Receiving Lot with a number: its lot's answer (R13). -/
theorem actCloseReceivingLot_number (st : StationNo) {n : Nat} (hn : n ≠ 0) (s : State) :
    actCloseReceivingLot st n s =
      match s.lot? n with
      | none => (s, ⟨.noSuch, []⟩)
      | some l =>
        if l.kind = .ip then (s, ⟨.mismatch, []⟩)
        else if l.state = .closed then (s, ⟨.state, []⟩)
        else (s.modLot n Lot.close, ⟨.ok, small 1⟩) := by
  rw [actCloseReceivingLot, if_neg hn]
  cases s.lot? n with
  | none => rfl
  | some l => cases hk : l.kind <;> cases hs : l.state <;> simp [unlessFails, firstFailure, hk, hs, refuse, accept]

/-- Close IP Lot: its lot's answer (R14). -/
theorem actCloseIpLot_eq (st : StationNo) (n : Nat) (s : State) :
    actCloseIpLot st n s =
      match s.lot? n with
      | none => (s, ⟨.noSuch, []⟩)
      | some l =>
        if l.kind = .receiving then (s, ⟨.mismatch, []⟩)
        else if l.state = .closed then (s, ⟨.state, []⟩)
        else (s.modLot n Lot.close, ⟨.ok, []⟩) := by
  rw [actCloseIpLot]
  cases s.lot? n with
  | none => rfl
  | some l => cases hk : l.kind <;> cases hs : l.state <;> simp [unlessFails, firstFailure, hk, hs, refuse, accept]

/-- Settles O20. -/
theorem closingLots : Obligations.ClosingLots := by
  unfold Obligations.ClosingLots
  refine ⟨fun s f h => ⟨fun hd => ?every, fun n hd hn => ?receiving⟩, fun s f n h hd => ?ip⟩
  case every =>
    refine answered_of_act h hd ?_
    simp only [actCloseReceivingLot, if_true, accept, State.openReceiving, Lot.isOpenReceiving_iff]
    rfl
  case receiving =>
    refine (answered_of_heard h hd).trans ?_
    rw [actCloseReceivingLot_number _ hn]
    cases s.lot? n with
    | none => rfl
    | some l => dsimp only; split_ifs <;> rfl
  case ip =>
    refine (answered_of_heard h hd).trans ?_
    rw [actCloseIpLot_eq]
    cases s.lot? n with
    | none => rfl
    | some l => dsimp only; split_ifs <;> rfl

/-! ### Lot holds and amendments -/

theorem State.grader_iff (s : State) (n : StationNo) : s.grader n = true ↔ (s.station n).cls = .grader := by
  simp [State.grader]

/-- Set Lot Hold: its checks in order, and the hold written (R15). -/
theorem actSetLotHold_eq (st : StationNo) (n : Nat) (h : LotHold) (s : State) :
    actSetLotHold st (n, h) s =
      if s.lot? n = none then (s, ⟨.noSuch, []⟩)
      else if (s.station st).cls = .grader ∧ h ≠ .quality then (s, ⟨.notPermitted, []⟩)
      else (s.modLot n fun l => { l with hold := some h }, ⟨.ok, []⟩) := by
  unfold actSetLotHold
  by_cases h1 : s.lot? n = none
  · simp [unlessFails, firstFailure, h1, refuse]
  · by_cases h2 : (s.station st).cls = .grader ∧ h ≠ .quality <;>
      simp [unlessFails, firstFailure, State.grader, h1, h2, refuse, accept]

/-- Clear Lot Hold: its checks in order, and the hold removed (R15). -/
theorem actClearLotHold_eq (st : StationNo) (n : Nat) (s : State) :
    actClearLotHold st n s =
      match (s.lot? n).map Lot.hold with
      | none => (s, ⟨.noSuch, []⟩)
      | some none => (s, ⟨.ok, []⟩)
      | some (some h) =>
        if (s.station st).cls = .grader ∧ h ≠ .quality then (s, ⟨.notPermitted, []⟩)
        else (s.modLot n fun l => { l with hold := none }, ⟨.ok, []⟩) := by
  unfold actClearLotHold
  cases s.lot? n with
  | none => rfl
  | some l =>
    cases hh : l.hold with
    | none => simp [hh, accept]
    | some h =>
      by_cases hg : (s.station st).cls = .grader ∧ h ≠ .quality <;>
        simp [unlessFails, firstFailure, State.grader, hh, hg, refuse, accept]

/-- What an amendment writes, by its selector (R17). -/
theorem Lot.amend_eq (a : Amendment) (l : Lot) :
    l.amend a = { l with
      owner := if a.selector = .contract then l.owner else if a.owner = 0 then none else some a.owner
      contract := if a.selector = .owner then l.contract
        else if a.contract.all (· == 0x20#8) then none else some a.contract } := by
  unfold Lot.amend Amendment.setsOwner Amendment.setsContract allSpaces
  cases a.selector <;> simp

/-- Amend Lot: its checks in order, and the selected fields written (R17). -/
theorem actAmendLot_eq (st : StationNo) (a : Amendment) (s : State) :
    actAmendLot st a s =
      match (s.lot? a.lot).map Lot.kind with
      | none => (s, ⟨.noSuch, []⟩)
      | some .receiving => (s, ⟨.mismatch, []⟩)
      | some .ip =>
        if a.selector ≠ .contract ∧ 9999 < a.owner ∨ a.selector ≠ .owner ∧ ¬ ∀ b ∈ a.contract, printable b = true then
          (s, ⟨.format, []⟩)
        else (s.modLot a.lot (Lot.amend a), ⟨.ok, []⟩) := by
  unfold actAmendLot
  cases s.lot? a.lot with
  | none => rfl
  | some l =>
    cases hk : l.kind with
    | receiving => simp [unlessFails, firstFailure, hk, refuse]
    | ip =>
      have hc : (a.setsContract && !a.contract.all printable) = true ↔
          a.selector ≠ .owner ∧ ¬ ∀ b ∈ a.contract, printable b = true := by
        simp [Amendment.setsContract]
      have ho : (a.setsOwner && decide (9999 < a.owner)) = true ↔ a.selector ≠ .contract ∧ 9999 < a.owner := by
        simp [Amendment.setsOwner]
      simp only [Option.map_some, hk, ← ho, ← hc]
      cases a.setsOwner && decide (9999 < a.owner) <;> cases a.setsContract && !a.contract.all printable <;>
        simp [unlessFails, firstFailure, refuse, accept]

/-- Settles O21. -/
theorem lotHoldsAndAmendments : Obligations.LotHoldsAndAmendments := by
  unfold Obligations.LotHoldsAndAmendments
  refine ⟨fun s f h => ⟨fun hd => ?_, fun n x hd => ?set, fun n hd => ?clear⟩,
    fun s f h => ⟨fun hd => ?_, fun a hd => ?amend⟩⟩
  · exact answered_format_of_heard h hd
  case set =>
    refine (answered_of_heard h hd).trans ?_
    rw [actSetLotHold_eq]
    split_ifs <;> rfl
  case clear =>
    refine (answered_of_heard h hd).trans ?_
    rw [actClearLotHold_eq]
    rcases (s.lot? n).map Lot.hold with _ | _ | x
    · rfl
    · rfl
    · dsimp only; split_ifs <;> rfl
  · exact answered_format_of_heard h hd
  case amend =>
    refine (answered_of_heard h hd).trans ?_
    rw [actAmendLot_eq, show Lot.amend a = _ from funext (Lot.amend_eq a)]
    rcases (s.lot? a.lot).map Lot.kind with _ | _ | _
    · rfl
    · rfl
    · dsimp only; split_ifs <;> rfl

/-! ### Retire Lot -/

/-- The conditions of R20, one by one. -/
theorem Lot.retirable_iff (l : Lot) :
    l.retirable = true ↔ l.state = .closed ∧ l.standing = 0 ∧ l.pendingTickets = 0 ∧ l.layerCount = 0 ∧
      l.portionCount = 0 ∧ l.manifestRefs = 0 ∧ l.hold = none := by
  simp [Lot.retirable, and_assoc]

/-- Settles O22. -/
theorem retireLotNeedsALotNothingNames : Obligations.RetireLotNeedsALotNothingNames := by
  unfold Obligations.RetireLotNeedsALotNothingNames
  intro s f n h hd
  refine (answered_of_heard h hd).trans ?_
  unfold actRetireLot
  cases s.lot? n with
  | none => rfl
  | some l =>
    by_cases hl : l.retirable = true
    · simp only [if_pos (l.retirable_iff.mp hl)]
      simp [unlessFails, firstFailure, hl, accept]
    · simp only [if_neg (mt l.retirable_iff.mpr hl)]
      simp [unlessFails, firstFailure, hl, refuse]

end Sys2Proof.Machine
end

section
/-! PROOFS. What one command can do to the records, said once: the operations, one constructor each with what its checks
have established, and the lemma that every step is one of them (with the port and the queue aside). -/

namespace Sys2Proof.Machine

/-- What the requests do to the lot, bin, scale and ticket tables, with what their checks have established. -/
inductive IntakeOperation (s : State) : State → Prop
  | closeReceivingLots :
    IntakeOperation s { s with lots := s.lots.map fun l => if l.isOpenReceiving then l.close else l }
  | closeLot (n : Nat) : IntakeOperation s (s.modLot n Lot.close)
  | holdLot (n : Nat) (h : Option LotHold) : IntakeOperation s (s.modLot n fun l => { l with hold := h })
  | amendLot (a : Amendment) : IntakeOperation s (s.modLot a.lot (Lot.amend a))
  | retireLot (n : Nat) (l : Lot) : s.lot? n = some l → l.retirable = true →
    IntakeOperation s { s with lots := s.lots.filter fun m => m.no != n }
  | setLotSize (size : Nat) :
    IntakeOperation s { s with settings := { s.settings with lotSize := size } }.checkSizes
  | setBinSettings (b : BinNo) (x : BinSettings) : IntakeOperation s ((s.setBinSet b x).noteOverfull (s.overfull b) b)
  | replaceHold (b : BinNo) (h : BinHold) : (s.bin b).hold.isSome = true →
    IntakeOperation s (s.setBin b { s.bin b with hold := some h })
  | imposeHold (b : BinNo) (h : BinHold) : (s.bin b).hold = none → IntakeOperation s (s.imposeHold b h)
  | liftHold (b : BinNo) : IntakeOperation s (s.liftHold b)
  | sweep (b : BinNo) : (s.bin b).fillOwner = .none → (s.bin b).claim = none → IntakeOperation s (s.sweep b)
  | setChannel (c : ChannelNo) (x : Channel) (p : Bool) :
    IntakeOperation s ((s.setChannel c x).raiseIf p flagScaleFault)
  | setScale (c : ChannelNo) (y : ScaleSettings) (x : Channel) :
    IntakeOperation s ((s.setScaleSet c y).setChannel c x)
  | openTicket (c : ChannelNo) (cls : Fin 4) (w : WeighIn) :
    s.hasOpenTicket w.tag = false → s.tickets.length < Config.maxTickets → IntakeOperation s (s.openTicket c cls w)
  | gradeTicket (t : Ticket) (g : Grade) : t ∈ s.tickets → t.state ≠ .assigned → t.state ≠ .dumped →
    IntakeOperation s (s.modTicket t.number fun u => { u with state := .graded, grade := some g })
  | gradeNoSpace (t : Ticket) (g : Grade) (p : Bool) : t ∈ s.tickets → t.state ≠ .assigned → t.state ≠ .dumped →
    IntakeOperation s
      ((s.modTicket t.number fun u => { u with state := .graded, grade := some g }).raiseIf p flagNoSpace)
  | gradeAndAssign (st : StationNo) (t : Ticket) (g : Grade) (b : BinNo) (r : BindResult) (u : State) :
    t ∈ s.tickets → t.state ≠ .assigned → t.state ≠ .dumped →
    u = s.modTicket t.number (fun u => { u with state := .graded, grade := some g }) →
    u.TakesDump st g (u.estimate t) b → u.bindCheck g (u.estimate t) = r → (∀ code, r ≠ .refused code) →
    IntakeOperation s (u.assign t g b r)
  | assign (st : StationNo) (t : Ticket) (g : Grade) (b : BinNo) (r : BindResult) : t ∈ s.tickets → t.state = .graded →
    t.grade = some g → s.TakesDump st g (s.estimate t) b → s.bindCheck g (s.estimate t) = r →
    (∀ code, r ≠ .refused code) → IntakeOperation s (s.assign t g b r)
  | dump (t : Ticket) : t ∈ s.tickets → t.state = .assigned →
    IntakeOperation s (s.modTicket t.number fun u => { u with state := .dumped })
  | dumpAndClose (t : Ticket) (tare : Nat) (r : Settlement) : t ∈ s.tickets → t.state = .assigned →
    IntakeOperation s { (s.modTicket t.number fun u => { u with state := .dumped }).closeTicket t tare with
      lastClosed := some r }
  | storeTare (tag : List Byte) (kg : Nat) : IntakeOperation s ((s.storeTare tag kg).seen tag)
  | weighOut (tag : List Byte) (t : Ticket) (kg : Nat) (r : Settlement) : t ∈ s.tickets → t.state = .dumped →
    IntakeOperation s (({ s.closeTicket t kg with lastClosed := some r }.storeTare tag kg).seen tag)
  | reject (tag : List Byte) (t : Ticket) (r : Settlement) : t ∈ s.tickets → t.state ≠ .dumped →
    IntakeOperation s ({ s.voidTicket t with lastClosed := some r }.seen tag)
  | void (t : Ticket) (r : Settlement) : t ∈ s.tickets → t.state ≠ .dumped →
    IntakeOperation s { s.voidTicket t with lastClosed := some r }
  | forgetVehicle (v : Vehicle) : v ∈ s.vehicles → v.openTicket = none →
    IntakeOperation s { s with vehicles := s.vehicles.filter fun w => w.tag != v.tag }
  | expire (t : Ticket) : t ∈ s.tickets → IntakeOperation s (s.expireTicket t)
  | setIntake (x : IntakeSetting) : IntakeOperation s (s.setIntake x)

/-- What the requests and the expiries do to the dryer, the legs and the schedules. -/
inductive TransferOperation (s : State) : State → Prop
  | warmUp (returning : Bool) : s.dryer.batch.isSome = returning → TransferOperation s (s.warmUpDryer returning)
  | setStop (stop : Bool) : TransferOperation s (s.setDryer { s.dryer with stopPending := stop })
  | stopDryer : s.dryer.state = .ready ∨ s.dryer.state = .warming ∧ s.dryer.returnMark = false →
    TransferOperation s (s.setDryer { s.dryer with
      state := .off, warmUp := if s.dryer.state = .ready then s.dryer.warmUp else none })
  | charge (st : StationNo) (c : Charge) (tank dest : BinNo) (i : Identity) :
    (∀ x ∈ s.chargeChecks st c tank dest, x.1 = false) → (s.bin tank).identity = some i →
    TransferOperation s (s.charge c tank dest i)
  | batchDried (b : Batch) (reported : Nat) : s.dryer.state = .drying → s.dryer.batch = some b →
    TransferOperation s (s.dryBatch b reported).tryDischarge.1
  | discharge (stop : Bool) :
    s.dryer.state = .dischargeWait ∨ s.dryer.state = .off ∧ s.dryer.batch.isSome = true ∨
      s.dryer.state = .suspended ∧ (∃ b, s.dryer.batch = some b ∧ b.phase = .dried) →
    TransferOperation s (s.dischargeNow stop).1
  | suspendDryer : s.dryer.state = .drying → TransferOperation s (s.setDryer { s.dryer with state := .suspended })
  | faultDryer : s.dryer.state ≠ .off → s.dryer.state ≠ .fault → TransferOperation s s.faultDryer
  | clearFault : s.dryer.state = .fault → TransferOperation s (s.setDryer
      (if s.dryer.batch.isSome then { s.dryer with state := .suspended }
       else { s.dryer with state := .off, stopPending := false }))
  | setDryerSettings (x : DryerSetting) : x.inRange = true →
    TransferOperation s { s with settings := { s.settings with dryer := s.settings.dryer.apply x } }
  | warmUpExpired : TransferOperation s s.warmUpExpired
  | dryingExpired : TransferOperation s s.dryingExpired
  | setStaging (l : LegNo) (x : Option Staging) : TransferOperation s (s.setLeg l { s.leg l with staging := x })
  | launchStaged (l : LegNo) (x : Staging) : (s.leg l).staging = some x →
    TransferOperation s (s.launchStaged l x).1
  | flowReport (l : LegNo) (t : Transfer) (kg : Nat) : (s.leg l).active = some t → t.state = .running →
    TransferOperation s (s.flowReport l t kg).1
  | abort (l : LegNo) (k : Slot) : TransferOperation s (s.endTransfers [{ leg := l, slot := k, reason := .aborted }])
  | markClean (l : LegNo) : (s.leg l).empty = true →
    TransferOperation s (s.setLeg l { s.leg l with lastCarried := .clean })
  | setCleanout (l : LegNo) (time : Nat) : TransferOperation s (s.setCleanout l time)
  | cleanoutDone (l : LegNo) : TransferOperation s (s.cleanoutDone l)
  | reportTemperature (b : BinNo) (z : Int) : TransferOperation s (s.reportTemperature b z)
  | setSchedule (n : EntryNo) (r : ScheduleRequest) (a b : BinNo) (l : LegNo) :
    fillable (s.entry n) = true → (s.bin a).hold = none → (s.bin b).hold = none →
    TransferOperation s (s.setEntry n (some (r.toEntry a b l))).examine
  | endSchedule (n : EntryNo) (e : Entry) (abort : Bool) : s.entry n = some e →
    TransferOperation s (s.endSchedule n e abort)
  | setRotation (x : RotationSetting) :
    TransferOperation s { s with settings := { s.settings with rotation := s.settings.rotation.apply x } }
  | staleExpired (b : BinNo) : TransferOperation s (s.staleExpired b)

/-- What the requests and the lines do to the berths and the river. -/
inductive BerthOperation (s : State) : State → Prop
  | acceptBarge (k : BerthNo) (g : Barge) : (s.berth k).state = .vacant → BerthOperation s (s.acceptBarge k g)
  | setOrder (k : BerthNo) (o : LoadOrder) : (s.berth k).barge.isSome = true → (s.berth k).claim = none →
    BerthOperation s ((s.setBerth k { s.berth k with order := some o }).orderChanged k)
  | setPlan (k : BerthNo) (qs : List Nat) : (s.berth k).barge.isSome = true → (s.berth k).claim = none →
    (s.berth k).dropsLoaded qs.length = false → BerthOperation s ((s.setBerth k ((s.berth k).setPlan qs)).orderChanged k)
  | setEnable (k : BerthNo) (on : Bool) :
    BerthOperation s ((s.setBerth k { s.berth k with enabled := on }).conditionChanged k (!on) .disabled)
  | commandSpout (k : BerthNo) (n select : Nat) : 1 ≤ n → n ≤ ((s.berth k).plan.getD []).length →
    (s.berth k).state ≠ .loading → BerthOperation s (s.commandSpout k n select)
  | spoutArrived (k : BerthNo) (n : Nat) : (s.berth k).commanded = some n → BerthOperation s (s.spoutArrived k n)
  | spoutExpired (k : BerthNo) : BerthOperation s (s.spoutExpired k)
  | resumeBerth (k : BerthNo) : (s.berth k).isHalted = true → s.mayResume k = true →
    BerthOperation s (s.completionTest k)
  | releaseBarge (k : BerthNo) : (s.berth k).state ≠ .vacant → (s.berth k).claim = none →
    BerthOperation s (s.releaseBarge k)
  | readStage (z : Int) : BerthOperation s (s.readStage z)
  | riverExpired : BerthOperation s s.riverExpired
  | setRiver (x : RiverSetting) : BerthOperation s (s.setRiver x)
  | presentChanged (k : BerthNo) (level : Bool) : BerthOperation s (s.presentChanged k level)
  | mooredChanged (k : BerthNo) (level : Bool) : BerthOperation s (s.mooredChanged k level)
  | buttonPressed (k : BerthNo) : BerthOperation s (s.buttonPressed k)
  | buttonReleased (k : BerthNo) : BerthOperation s (s.buttonReleased k)

/-- What the remaining requests, the lines and main power do: stations, event flags, the store, time and the starts. -/
inductive SystemOperation (s : State) : State → Prop
  | unchanged : SystemOperation s s
  | raise (f : Flag) : SystemOperation s (s.raise f)
  | lower (g : Fin 11) (m : BitVec 16) : SystemOperation s (s.lower g m)
  | setEnables (g : Fin 11) (m : BitVec 16) : SystemOperation s (s.setGroup g { s.group g with enables := m })
  | setStation (n : StationNo) (x : Station) : n ≠ 0 → SystemOperation s (s.setStation n x)
  | dropStation (n : StationNo) (x : Station) : n ≠ 0 → SystemOperation s ((s.setStation n x).dropStagings n)
  | beginCommit : s.commit = .idle → SystemOperation s
      { s with commit := .writing s.otherBank (wrapNext Config.maxGeneration s.generation) s.settings }
  | commitEnds : SystemOperation s s.commitEnds
  | commitFails : SystemOperation s s.commitFails
  | setTime (time : Nat) : SystemOperation s { s with terminalTime := time, timeValid := true }
  | resetPart : s.commit = .idle → SystemOperation s { s with resetPending := true }
  | assertEstop : SystemOperation s s.assertEstop
  | releaseEstop : SystemOperation s s.releaseEstop
  | releaseReset : SystemOperation s s.releaseReset
  | setBackupLost (level : Bool) : SystemOperation s (s.setBackupLost level)
  | losePower : SystemOperation s s.losePower
  | warmStart (p : Pins) : SystemOperation s (s.warmStart p)
  | warmReturn (p : Pins) : SystemOperation s (s.losePower.warmStart p)
  | coldReturn (p : Pins) : SystemOperation s (s.losePower.coldStart p)

/-- What one command does to the records. -/
inductive Operation (s t : State) : Prop
  | intake (h : IntakeOperation s t)
  | transfer (h : TransferOperation s t)
  | berth (h : BerthOperation s t)
  | system (h : SystemOperation s t)

/-- A command that leaves every record as it was. -/
theorem Operation.refl (s : State) : Operation s s := .system .unchanged

/-! ### Every block's answer is an operation -/

/-- A request refused by its checks changes nothing. -/
theorem Operation.unlessFails {cs : List (Bool × Status)} {s : State} {go : State × Answer}
    (h : (∀ c ∈ cs, c.1 = false) → Operation s go.1) : Operation s (unlessFails cs s go).1 := by
  cases hc : firstFailure cs with
  | none => rw [unlessFails_none hc]; exact h (firstFailure_eq_none.1 hc)
  | some code => rw [unlessFails_some hc]; exact .refl s

theorem Operation.refuse {code : Status} {s : State} : Operation s (refuse code s).1 := .refl s

theorem Operation.accept {p : List Byte} {s t : State} (h : Operation s t) : Operation s (accept p t).1 := h

/-- A commit is writing or idle. -/
theorem State.committing_eq_false {s : State} : s.committing = false ↔ s.commit = .idle := by
  unfold State.committing; cases s.commit <;> simp

/-- The record found under a number is in its table, under that number. -/
theorem State.ticket?_mem {s : State} {n : Nat} {t : Ticket} (h : s.ticket? n = some t) :
    t ∈ s.tickets ∧ t.number = n :=
  ⟨List.mem_of_find?_eq_some h, by simpa using List.find?_some h⟩

theorem State.vehicle?_mem {s : State} {tag : List Byte} {v : Vehicle} (h : s.vehicle? tag = some v) :
    v ∈ s.vehicles ∧ v.tag = tag :=
  ⟨List.mem_of_find?_eq_some h, by simpa using List.find?_some h⟩

theorem State.lot?_mem {s : State} {n : Nat} {l : Lot} (h : s.lot? n = some l) : l ∈ s.lots ∧ l.no = n :=
  ⟨List.mem_of_find?_eq_some h, by simpa using List.find?_some h⟩

section Lots
variable (st : StationNo) (s : State)

theorem actCloseReceivingLot_operation (n : Nat) : Operation s (actCloseReceivingLot st n s).1 := by
  unfold actCloseReceivingLot
  split
  · exact .intake .closeReceivingLots
  · split
    · exact .refl s
    · exact .unlessFails fun _ => .intake (.closeLot n)

theorem actCloseIpLot_operation (n : Nat) : Operation s (actCloseIpLot st n s).1 := by
  unfold actCloseIpLot
  split
  · exact .refl s
  · exact .unlessFails fun _ => .intake (.closeLot n)

theorem actSetLotHold_operation (q : Nat × LotHold) : Operation s (actSetLotHold st q s).1 :=
  .unlessFails fun _ => .intake (.holdLot q.1 (some q.2))

theorem actClearLotHold_operation (n : Nat) : Operation s (actClearLotHold st n s).1 := by
  unfold actClearLotHold
  split
  · exact .refl s
  · split
    · exact .refl s
    · exact .unlessFails fun _ => .intake (.holdLot n none)

theorem actAmendLot_operation (a : Amendment) : Operation s (actAmendLot st a s).1 := by
  unfold actAmendLot
  split
  · exact .refl s
  · exact .unlessFails fun _ => .intake (.amendLot a)

theorem actRetireLot_operation (n : Nat) : Operation s (actRetireLot st n s).1 := by
  unfold actRetireLot
  split
  · exact .refl s
  · next l hl => exact .unlessFails fun hc => .intake (.retireLot n l hl (by simpa using hc))

theorem actSetLotSize_operation (size : Nat) : Operation s (actSetLotSize st size s).1 :=
  .unlessFails fun _ => .intake (.setLotSize size)

end Lots

section Bins
variable (st : StationNo) (s : State)

theorem actSetBinSettings_operation (q : Nat × BinSettings) : Operation s (actSetBinSettings st q s).1 := by
  unfold actSetBinSettings
  split
  · exact .refl s
  · exact .unlessFails fun _ => .intake (.setBinSettings _ _)

theorem actSetBinHold_operation (q : Nat × BinHold) : Operation s (actSetBinHold st q s).1 := by
  unfold actSetBinHold
  split
  · exact .refl s
  · next b _ =>
    refine .unlessFails fun _ => ?_
    split
    · next h => exact .intake (.replaceHold b q.2 h)
    · next h => exact .intake (.imposeHold b q.2 (by simpa using h))

theorem actClearBinHold_operation (n : Nat) : Operation s (actClearBinHold st n s).1 := by
  unfold actClearBinHold
  split
  · exact .refl s
  · split
    · exact .refl s
    · exact .unlessFails fun _ => .intake (.liftHold _)

theorem actSweepClose_operation (n : Nat) : Operation s (actSweepClose st n s).1 := by
  unfold actSweepClose
  split
  · exact .refl s
  · next b _ =>
    refine .unlessFails fun hc => ?_
    simp at hc
    exact .intake (.sweep b hc.2.1 hc.2.2)

end Bins

section Scales
variable (st : StationNo) (s : State)

theorem actScaleSample_operation (q : Nat × Int) : Operation s (actScaleSample st q s).1 := by
  unfold actScaleSample
  split
  · exact .refl s
  · exact .unlessFails fun _ => .intake (.setChannel _ _ _)

theorem actSetCalibration_operation (q : Nat × Calibration) : Operation s (actSetCalibration st q s).1 := by
  unfold actSetCalibration
  split
  · exact .refl s
  · exact .unlessFails fun _ => .intake (.setScale _ _ _)

theorem actSetScaleParameters_operation (q : Nat × Nat × Nat) : Operation s (actSetScaleParameters st q s).1 := by
  unfold actSetScaleParameters
  split
  · exact .refl s
  · exact .unlessFails fun _ => .intake (.setScale _ _ _)

theorem actZeroScale_operation (n : Nat) : Operation s (actZeroScale st n s).1 := by
  unfold actZeroScale
  split
  · exact .refl s
  · exact .unlessFails fun _ => .intake (.setScale _ _ _)

theorem signalExpired_operation (c : ChannelNo) : Operation s (s.signalExpired c) := by
  unfold State.signalExpired
  dsimp only
  split
  · exact .intake (.setChannel c _ true)
  · exact .refl s

end Scales

section Tickets
variable (st : StationNo) (s : State)

theorem actWeighIn_operation (w : WeighIn) : Operation s (actWeighIn st w s).1 := by
  unfold actWeighIn
  split
  · exact .refl s
  · split
    · exact .refl s
    · refine .unlessFails fun hc => ?_
      have h1 := hc (s.hasOpenTicket w.tag, .state) (by simp)
      have h2 := hc (decide (Config.maxTickets ≤ s.tickets.length), .full) (by simp)
      exact .intake (.openTicket _ _ w h1 (by simpa using h2))

/-- What an assignment that has come to the lot check does: nothing, or the assignment (R73). -/
theorem State.assignChecked_cases (t : Ticket) (g : Grade) (b : BinNo) :
    (∃ code, s.assignChecked t g b = (s, .error code)) ∨
      ∃ r, s.bindCheck g (s.estimate t) = r ∧ (∀ code, r ≠ .refused code) ∧
        s.assignChecked t g b = (s.assign t g b r, .ok r.lot) := by
  unfold State.assignChecked
  cases h : s.bindCheck g (s.estimate t) with
  | refused code => exact .inl ⟨code, rfl⟩
  | found n => exact .inr ⟨_, rfl, by simp, rfl⟩
  | created n k => exact .inr ⟨_, rfl, by simp, rfl⟩

/-- What automatic assignment does: nothing, or the assignment to a bin that passes (R75). -/
theorem State.autoAssign_cases (t : Ticket) (g : Grade) :
    (∃ code, s.autoAssign st t g = (s, .error code)) ∨
      ∃ b r, s.DumpChoice st g (s.estimate t) b ∧ s.bindCheck g (s.estimate t) = r ∧ (∀ code, r ≠ .refused code) ∧
        s.autoAssign st t g = (s.assign t g b r, .ok (b, r.lot)) := by
  unfold State.autoAssign
  cases hb : s.chooseBin st g (s.estimate t) with
  | none => exact .inl ⟨_, rfl⟩
  | some b =>
    have hd := (s.chooseBin_eq_some st g _).1 hb
    obtain ⟨code, h⟩ | ⟨r, hr, hn, h⟩ := s.assignChecked_cases t g b
    · exact .inl ⟨code, by simp [h]⟩
    · exact .inr ⟨b, r, hd, hr, hn, by simp [h]⟩

theorem actGradeReport_operation (r : GradeReport) : Operation s (actGradeReport st r s).1 := by
  unfold actGradeReport
  split
  · exact .refl s
  · next t ht =>
    have hm := (State.ticket?_mem ht).1
    split
    · exact .refl s
    · next c _ =>
      refine .unlessFails fun hc => ?_
      simp at hc
      obtain ⟨ha, hd⟩ := hc
      dsimp only
      split
      · generalize hu : s.modTicket t.number (fun u => { u with state := .graded, grade := some (r.toGrade c) }) = u
        obtain ⟨code, h⟩ | ⟨b, x, hb, hx, hn, h⟩ := u.autoAssign_cases st t (r.toGrade c)
        · rw [h, ← hu]; exact .intake (.gradeNoSpace t _ _ hm ha hd)
        · rw [h]; exact .intake (.gradeAndAssign st t _ b x u hm ha hd hu.symm hb.1 hx hn)
      · exact .intake (.gradeTicket t _ hm ha hd)

theorem actAssignDump_operation (q : Nat × Nat) : Operation s (actAssignDump st q s).1 := by
  unfold actAssignDump
  split
  · exact .refl s
  · next t ht =>
    have hm := (State.ticket?_mem ht).1
    split
    · split
      · next g hs hg =>
        obtain ⟨code, h⟩ | ⟨b, x, hb, hx, hn, h⟩ := s.autoAssign_cases st t g
        · rw [h]; exact .refl s
        · rw [h]; exact .intake (.assign st t g b x hm hs hg hb.1 hx hn)
      · exact .refl s
    · split
      · exact .refl s
      · next b _ =>
        split
        · next g hs hg =>
          refine .unlessFails fun hc => ?_
          have hp : s.passes st g (s.estimate t) b = true := by simpa [State.passes] using firstFailure_eq_none.2 hc
          obtain ⟨code, h⟩ | ⟨x, hx, hn, h⟩ := s.assignChecked_cases t g b
          · rw [h]; exact .refl s
          · rw [h]; exact .intake (.assign st t g b x hm hs hg ((s.passes_iff st g _ b).1 hp) hx hn)
        · exact .refl s

theorem actDumpReport_operation (n : Nat) : Operation s (actDumpReport st n s).1 := by
  unfold actDumpReport
  split
  · exact .refl s
  · next t ht =>
    obtain ⟨hm, rfl⟩ := State.ticket?_mem ht
    refine .unlessFails fun hc => ?_
    have ha : t.state = .assigned := by simpa using hc
    dsimp only
    split
    · exact .intake (.dumpAndClose t _ _ hm ha)
    · exact .intake (.dump t hm ha)

theorem actWeighOut_operation (q : Nat × List Byte) : Operation s (actWeighOut st q s).1 := by
  unfold actWeighOut
  split
  · exact .refl s
  · split
    · exact .refl s
    · refine .unlessFails fun _ => ?_
      unfold State.weighOut
      split
      · exact .intake (.storeTare _ _)
      · next t ht =>
        obtain ⟨n, _, hn⟩ := Option.bind_eq_some_iff.1 ht
        have hm := (State.ticket?_mem hn).1
        split
        · next hd => exact .intake (.weighOut _ t _ _ hm hd)
        · next hd => exact .intake (.reject _ t _ hm hd)

theorem actVoidTicket_operation (n : Nat) : Operation s (actVoidTicket st n s).1 := by
  unfold actVoidTicket
  split
  · exact .refl s
  · next t ht => exact .unlessFails fun hc => .intake (.void t _ (State.ticket?_mem ht).1 (by simpa using hc))

theorem actForgetVehicle_operation (tag : List Byte) : Operation s (actForgetVehicle st tag s).1 := by
  unfold actForgetVehicle
  split
  · exact .refl s
  · next v hv =>
    obtain ⟨hm, rfl⟩ := State.vehicle?_mem hv
    exact .unlessFails fun hc => .intake (.forgetVehicle v hm (by simpa using hc))

theorem actSetIntakeSettings_operation (x : IntakeSetting) : Operation s (actSetIntakeSettings st x s).1 :=
  .unlessFails fun _ => .intake (.setIntake x)

theorem ticketExpiry_operation (n : Nat) :
    Operation s (match s.ticket? n with | some t => s.expireTicket t | none => s) := by
  split
  · next t ht => exact .intake (.expire t (State.ticket?_mem ht).1)
  · exact .refl s

end Tickets

section Dryer
variable (st : StationNo) (s : State)

theorem actStartDryer_operation (x : Unit) : Operation s (actStartDryer st x s).1 := by
  have cleared : Operation s (if s.dryer.stopPending then accept [] (s.setDryer { s.dryer with stopPending := false })
      else refuse .state s).1 := by
    split
    · exact .transfer (.setStop false)
    · exact .refl s
  refine .unlessFails fun _ => ?_
  split
  · exact .unlessFails fun hc => .transfer (.warmUp false (by simpa using hc))
  · exact cleared
  · exact cleared
  · exact cleared
  all_goals exact .refl s

theorem actStopDryer_operation (x : Unit) : Operation s (actStopDryer st x s).1 := by
  unfold actStopDryer
  split
  · exact .refl s
  · next h =>
    split
    · exact .refl s
    · next hr =>
      have := TransferOperation.stopDryer (s := s) (.inr ⟨h, by simpa using hr⟩)
      rw [if_neg (by simp [h])] at this
      exact .transfer this
  · next h =>
    have := TransferOperation.stopDryer (s := s) (.inl h)
    rw [if_pos h] at this
    exact .transfer this
  · exact .transfer (.setStop true)
  · exact .transfer (.setStop true)
  · exact .transfer (.setStop true)
  · exact .refl s
  · exact .refl s

theorem actChargeBatch_operation (c : Charge) : Operation s (actChargeBatch st c s).1 := by
  unfold actChargeBatch
  split
  · exact .refl s
  · split
    · refine .unlessFails fun hc => ?_
      dsimp only
      split
      · next i hi => exact .transfer (.charge st c _ _ i hc hi)
      · exact .refl s
    · exact .refl s

theorem actBatchDried_operation (outlet : Nat) : Operation s (actBatchDried st outlet s).1 := by
  unfold actBatchDried
  split
  · next b hs hb => exact .transfer (.batchDried b _ hs hb)
  · exact .refl s

theorem actDischarge_operation (x : Unit) : Operation s (actDischarge st x s).1 := by
  unfold actDischarge
  split
  · next h => exact .transfer (.discharge _ (.inl h))
  · next h =>
    split
    · next hb => exact .transfer (.discharge _ (.inr (.inl ⟨h, hb⟩)))
    · exact .refl s
  · exact .refl s

theorem actSuspendDryer_operation (x : Unit) : Operation s (actSuspendDryer st x s).1 :=
  .unlessFails fun hc => .transfer (.suspendDryer (by simpa using hc))

theorem actResumeDryer_operation (x : Unit) : Operation s (actResumeDryer st x s).1 := by
  unfold actResumeDryer
  split
  · next b hs hb =>
    split
    · exact .refl s
    · split
      · exact .transfer (.warmUp true (by simp [hb]))
      · next hp => exact .transfer (.discharge _ (.inr (.inr ⟨hs, b, hb, hp⟩)))
  · exact .refl s

theorem actDryerFault_operation (x : Unit) : Operation s (actDryerFault st x s).1 := by
  unfold actDryerFault
  split
  · exact .refl s
  · exact .system (.raise _)
  · next h1 h2 => exact .transfer (.faultDryer h1 h2)

theorem actClearDryerFault_operation (x : Unit) : Operation s (actClearDryerFault st x s).1 :=
  .unlessFails fun hc => .transfer (.clearFault (by simpa using hc))

theorem actSetDryerSettings_operation (x : DryerSetting) : Operation s (actSetDryerSettings st x s).1 :=
  .unlessFails fun hc => .transfer (.setDryerSettings x (by
    have := hc (!x.inRange, .format) (by simp)
    simpa using this))

end Dryer

section Legs
variable (st : StationNo) (s : State)

theorem actStageTransfer_operation (r : StageRequest) : Operation s (actStageTransfer st r s).1 := by
  unfold actStageTransfer
  split
  · exact .refl s
  · split
    · exact .refl s
    · refine .unlessFails fun _ => ?_
      split
      · exact .transfer (.setStaging _ _)
      · exact .system (.raise _)

theorem actLaunch_operation (n : Nat) : Operation s (actLaunch st n s).1 := by
  unfold actLaunch
  split
  · exact .refl s
  · split
    · exact .system (.raise _)
    · next x hx => exact .unlessFails fun _ => .transfer (.launchStaged _ x hx)

theorem actWithdrawStaging_operation (n : Nat) : Operation s (actWithdrawStaging st n s).1 := by
  unfold actWithdrawStaging
  split
  · exact .refl s
  · exact .unlessFails fun _ => .transfer (.setStaging _ _)

theorem actFlowReport_operation (q : Nat × Nat) : Operation s (actFlowReport st q s).1 := by
  unfold actFlowReport
  split
  · exact .refl s
  · next l _ =>
    split
    · exact .refl s
    · split
      · exact .refl s
      · next t ht =>
        obtain ⟨ha, hr⟩ := Option.filter_eq_some_iff.1 ht
        exact .transfer (.flowReport l t q.2 ha (by simpa using hr))

theorem actAbortTransfer_operation (q : Nat × Slot) : Operation s (actAbortTransfer st q s).1 := by
  unfold actAbortTransfer
  split
  · exact .refl s
  · split
    · exact .refl s
    · exact .accept (.transfer (.abort _ _))

theorem actClearLegFlags_operation (n : Nat) : Operation s (actClearLegFlags st n s).1 := by
  unfold actClearLegFlags
  split
  · exact .refl s
  · exact .unlessFails fun _ => .system (.lower _ _)

theorem actMarkLegClean_operation (n : Nat) : Operation s (actMarkLegClean st n s).1 := by
  unfold actMarkLegClean
  split
  · exact .refl s
  · exact .unlessFails fun hc => .transfer (.markClean _ (by simpa using hc))

theorem actSetLegSettings_operation (q : Nat × Nat) : Operation s (actSetLegSettings st q s).1 := by
  unfold actSetLegSettings
  split
  · exact .refl s
  · exact .unlessFails fun _ => .transfer (.setCleanout _ _)

theorem actTemperatureReport_operation (q : Nat × Int) : Operation s (actTemperatureReport st q s).1 := by
  unfold actTemperatureReport
  split
  · exact .refl s
  · exact .transfer (.reportTemperature _ _)

theorem actSetSchedule_operation (r : ScheduleRequest) : Operation s (actSetSchedule st r s).1 := by
  unfold actSetSchedule
  split
  · exact .refl s
  · split
    · next n a b l _ _ _ _ =>
      refine .unlessFails fun hc => ?_
      simp at hc
      obtain ⟨_, hf, ha, hb⟩ := hc
      exact .accept (.transfer (.setSchedule n r a b l hf ha hb))
    · exact .refl s

theorem actEndSchedule_operation (q : Nat × Bool) : Operation s (actEndSchedule st q s).1 := by
  unfold actEndSchedule
  split
  · exact .refl s
  · split
    · exact .refl s
    · next e he => exact .transfer (.endSchedule _ e _ he)

theorem actSetRotationSettings_operation (x : RotationSetting) : Operation s (actSetRotationSettings st x s).1 :=
  .unlessFails fun _ => .transfer (.setRotation x)

end Legs

section Berths
variable (st : StationNo) (s : State)

theorem actAcceptBarge_operation (q : Nat × Barge) : Operation s (actAcceptBarge st q s).1 := by
  unfold actAcceptBarge
  split
  · exact .refl s
  · refine .unlessFails fun hc => .berth (.acceptBarge _ _ ?_)
    simp at hc
    exact hc.2

theorem actSetLoadOrder_operation (r : OrderRequest) : Operation s (actSetLoadOrder st r s).1 := by
  unfold actSetLoadOrder
  split
  · exact .refl s
  · split
    · exact .refl s
    · refine .unlessFails fun hc => ?_
      simp at hc
      obtain ⟨hb, hk, _⟩ := hc
      exact .berth (.setOrder _ _ hb hk)

theorem actSetPositionPlan_operation (q : Nat × List Nat) : Operation s (actSetPositionPlan st q s).1 := by
  unfold actSetPositionPlan
  split
  · exact .refl s
  · refine .unlessFails fun hc => ?_
    simp only [List.mem_cons, List.not_mem_nil, or_false, forall_eq_or_imp, forall_eq] at hc
    obtain ⟨_, hb, hk, hd⟩ := hc
    exact .berth (.setPlan _ _ (by simpa [Option.isSome_iff_ne_none] using hb) (by simpa using hk) hd)

theorem actSetBerthEnable_operation (q : Nat × Bool) : Operation s (actSetBerthEnable st q s).1 := by
  unfold actSetBerthEnable
  split
  · exact .refl s
  · exact .berth (.setEnable _ _)

theorem actSetSpoutPosition_operation (c : SpoutCommand) : Operation s (actSetSpoutPosition st c s).1 := by
  unfold actSetSpoutPosition
  split
  · exact .refl s
  · refine .unlessFails fun hc => ?_
    simp [within] at hc
    obtain ⟨⟨⟨h1, _⟩, _⟩, _, hl, hs⟩ := hc
    exact .berth (.commandSpout _ _ _ h1 hl hs)

theorem actSpoutArrived_operation (q : Nat × Nat) : Operation s (actSpoutArrived st q s).1 := by
  unfold actSpoutArrived
  split
  · exact .refl s
  · exact .unlessFails fun hc => .berth (.spoutArrived _ _ (by simpa using hc))

theorem actResumeBerth_operation (n : Nat) : Operation s (actResumeBerth st n s).1 := by
  unfold actResumeBerth
  split
  · exact .refl s
  · refine .unlessFails fun hc => ?_
    simp at hc
    exact .berth (.resumeBerth _ hc.1 hc.2)

theorem actReleaseBarge_operation (n : Nat) : Operation s (actReleaseBarge st n s).1 := by
  unfold actReleaseBarge
  split
  · exact .refl s
  · refine .unlessFails fun hc => ?_
    simp at hc
    exact .berth (.releaseBarge _ hc.1 hc.2)

theorem actStageReading_operation (z : Int) : Operation s (actStageReading st z s).1 := .berth (.readStage z)

theorem actSetRiverSettings_operation (x : RiverSetting) : Operation s (actSetRiverSettings st x s).1 :=
  .unlessFails fun _ => .berth (.setRiver x)

end Berths

section System
variable (st : StationNo) (s : State)

theorem actSetStation_operation (q : Nat × Station) : Operation s (actSetStation st q s).1 := by
  unfold actSetStation
  split
  · exact .refl s
  · next n _ =>
    refine .unlessFails fun hc => ?_
    simp at hc
    simp only [accept]
    split
    · exact .system (.dropStation n _ hc.1)
    · exact .system (.setStation n _ hc.1)

theorem actClearEvents_operation (q : Nat × BitVec 16) : Operation s (actClearEvents st q s).1 := by
  unfold actClearEvents
  split
  · exact .refl s
  · exact .system (.lower _ _)

theorem actSetEventEnables_operation (q : Nat × BitVec 16) : Operation s (actSetEventEnables st q s).1 := by
  unfold actSetEventEnables
  split
  · exact .refl s
  · exact .system (.setEnables _ _)

theorem actCommitSettings_operation (x : Unit) : Operation s (actCommitSettings st x s).1 :=
  .unlessFails fun hc => .system (.beginCommit (State.committing_eq_false.1 (by simpa using hc)))

theorem actSetTime_operation (time : Nat) : Operation s (actSetTime st time s).1 := .system (.setTime time)

theorem actResetPart_operation (x : Unit) : Operation s (actResetPart st x s).1 :=
  .unlessFails fun hc => .system (.resetPart (State.committing_eq_false.1 (by simpa using hc)))

end System

/-! ### Reads are no operation -/

section Reads
variable (st : StationNo) (s : State)

theorem actReadLot_fst (n : Nat) : (actReadLot st n s).1 = s := by unfold actReadLot; split <;> rfl
theorem actFindLots_fst (q : LotFilter × Nat) : (actFindLots st q s).1 = s := by
  unfold actFindLots unlessFails; dsimp only; split <;> rfl
theorem actReadBin_fst (n : Nat) : (actReadBin st n s).1 = s := by unfold actReadBin; split <;> rfl
theorem actReadLayers_fst (q : Nat × Nat) : (actReadLayers st q s).1 = s := by
  unfold actReadLayers
  split
  · rfl
  · unfold unlessFails; dsimp only; split <;> rfl
theorem actReadScale_fst (n : Nat) : (actReadScale st n s).1 = s := by unfold actReadScale; split <;> rfl
theorem actReadVehicle_fst (tag : List Byte) : (actReadVehicle st tag s).1 = s := by unfold actReadVehicle; split <;> rfl
theorem actReadTicket_fst (n : Nat) : (actReadTicket st n s).1 = s := by unfold actReadTicket; split <;> rfl
theorem actListTickets_fst (n : Nat) : (actListTickets st n s).1 = s := by
  unfold actListTickets unlessFails; dsimp only; split <;> rfl
theorem actReadLeg_fst (n : Nat) : (actReadLeg st n s).1 = s := by unfold actReadLeg; split <;> rfl
theorem actReadBerth_fst (n : Nat) : (actReadBerth st n s).1 = s := by unfold actReadBerth; split <;> rfl

end Reads

/-! ### Every command is an operation, with the port aside -/

/-- A command ends in a state whose records an operation gives: nothing else but the port has changed. -/
def Operates (s : State) (r : Result) : Prop := ∃ u t, r = .next t ∧ Operation s u ∧ sameButPort u t

theorem Operates.of_operation {s t : State} (h : Operation s t) : Operates s (.next t) := ⟨t, t, rfl, h, rfl⟩

/-- A request whose block's answer is an operation. -/
theorem Operates.serve {α : Type} {code : Byte} {cs : Classes} {decode : List Byte → Option α}
    {act : StationNo → α → State → State × Answer} {f : Frame} {s : State}
    (h : ∀ st a, Operation s (act st a s).1) : Operates s (.next (serve code cs decode act f s)) := by
  unfold Machine.serve
  split
  · have hr : Operation s (takeRequest cs decode act f s).1 := by
      unfold takeRequest
      split
      · exact .refl s
      · split
        · exact .refl s
        · split
          · exact .refl s
          · exact h _ _
    exact ⟨_, _, rfl, hr, rfl⟩
  · exact .of_operation (.refl s)

/-- A read. -/
theorem Operates.read {α : Type} {code : Byte} {cs : Classes} {decode : List Byte → Option α}
    {act : StationNo → α → State → State × Answer} {f : Frame} {s : State}
    (h : ∀ st a, (act st a s).1 = s) : Operates s (.next (Machine.serve code cs decode act f s)) :=
  .serve fun st a => by rw [h]; exact .refl s

/-- An event, which main power off makes nothing of. -/
theorem Operates.whenPowered {s : State} {effect : State → State} (h : Operation s (effect s)) :
    Operates s (.next (s.whenPowered effect)) := by
  unfold State.whenPowered
  split
  · exact .of_operation h
  · exact .of_operation (.refl s)

/-- Every request with its code: a block's answer, or a read. -/
theorem execRequest_operates {code : Byte} {f : Frame} {s : State} {r : Result} (h : execRequest code f s = some r) :
    Operates s r := by
  unfold execRequest at h
  split at h <;> first | (obtain rfl := Option.some.inj h) | cases h
  · exact .read fun st a => actReadLot_fst st s a
  · exact .read fun st a => actFindLots_fst st s a
  · exact .serve fun st a => actCloseReceivingLot_operation st s a
  · exact .serve fun st a => actCloseIpLot_operation st s a
  · exact .serve fun st a => actSetLotHold_operation st s a
  · exact .serve fun st a => actClearLotHold_operation st s a
  · exact .serve fun st a => actAmendLot_operation st s a
  · exact .serve fun st a => actRetireLot_operation st s a
  · exact .read fun st a => actReadBin_fst st s a
  · exact .read fun st a => actReadLayers_fst st s a
  · exact .serve fun st a => actSetBinSettings_operation st s a
  · exact .serve fun st a => actSetBinHold_operation st s a
  · exact .serve fun st a => actClearBinHold_operation st s a
  · exact .serve fun st a => actSweepClose_operation st s a
  · exact .serve fun st a => actScaleSample_operation st s a
  · exact .serve fun st a => actSetCalibration_operation st s a
  · exact .serve fun st a => actSetScaleParameters_operation st s a
  · exact .serve fun st a => actZeroScale_operation st s a
  · exact .serve fun st a => actWeighIn_operation st s a
  · exact .serve fun st a => actGradeReport_operation st s a
  · exact .serve fun st a => actAssignDump_operation st s a
  · exact .serve fun st a => actDumpReport_operation st s a
  · exact .serve fun st a => actWeighOut_operation st s a
  · exact .serve fun st a => actVoidTicket_operation st s a
  · exact .serve fun st a => actForgetVehicle_operation st s a
  · exact .serve fun st a => actSetIntakeSettings_operation st s a
  · exact .read fun st a => actReadScale_fst st s a
  · exact .read fun st a => actReadVehicle_fst st s a
  · exact .read fun st a => actReadTicket_fst st s a
  · exact .read fun st a => actListTickets_fst st s a
  · exact .read fun _ _ => rfl
  · exact .serve fun st a => actStartDryer_operation st s a
  · exact .serve fun st a => actStopDryer_operation st s a
  · exact .serve fun st a => actChargeBatch_operation st s a
  · exact .serve fun st a => actBatchDried_operation st s a
  · exact .serve fun st a => actDischarge_operation st s a
  · exact .serve fun st a => actSuspendDryer_operation st s a
  · exact .serve fun st a => actResumeDryer_operation st s a
  · exact .serve fun st a => actDryerFault_operation st s a
  · exact .serve fun st a => actClearDryerFault_operation st s a
  · exact .serve fun st a => actSetDryerSettings_operation st s a
  · exact .read fun _ _ => rfl
  · exact .serve fun st a => actStageTransfer_operation st s a
  · exact .serve fun st a => actLaunch_operation st s a
  · exact .serve fun st a => actWithdrawStaging_operation st s a
  · exact .serve fun st a => actFlowReport_operation st s a
  · exact .serve fun st a => actAbortTransfer_operation st s a
  · exact .serve fun st a => actClearLegFlags_operation st s a
  · exact .serve fun st a => actMarkLegClean_operation st s a
  · exact .serve fun st a => actSetLegSettings_operation st s a
  · exact .read fun st a => actReadLeg_fst st s a
  · exact .serve fun st a => actTemperatureReport_operation st s a
  · exact .serve fun st a => actSetSchedule_operation st s a
  · exact .serve fun st a => actEndSchedule_operation st s a
  · exact .serve fun st a => actSetRotationSettings_operation st s a
  · exact .read fun _ _ => rfl
  · exact .serve fun st a => actAcceptBarge_operation st s a
  · exact .serve fun st a => actSetLoadOrder_operation st s a
  · exact .serve fun st a => actSetPositionPlan_operation st s a
  · exact .serve fun st a => actSetBerthEnable_operation st s a
  · exact .serve fun st a => actSetSpoutPosition_operation st s a
  · exact .serve fun st a => actSpoutArrived_operation st s a
  · exact .serve fun st a => actResumeBerth_operation st s a
  · exact .serve fun st a => actReleaseBarge_operation st s a
  · exact .serve fun st a => actStageReading_operation st s a
  · exact .serve fun st a => actSetRiverSettings_operation st s a
  · exact .read fun st a => actReadBerth_fst st s a
  · exact .read fun _ _ => rfl
  · exact .read fun _ _ => rfl
  · exact .serve fun st a => actSetStation_operation st s a
  · exact .read fun _ _ => rfl
  · exact .serve fun st a => actClearEvents_operation st s a
  · exact .serve fun st a => actSetEventEnables_operation st s a
  · exact .serve fun st a => actCommitSettings_operation st s a
  · exact .serve fun st a => actSetTime_operation st s a
  · exact .read fun _ _ => rfl
  · exact .serve fun st a => actResetPart_operation st s a
  · exact .serve fun st a => actSetLotSize_operation st s a

/-- A well-formed frame of any code. -/
theorem takeFrame_operates (code : Byte) (f : Frame) (s : State) : Operates s (takeFrame code f s) := by
  unfold takeFrame
  split
  · next r hr => exact execRequest_operates hr
  · split
    · refine ⟨_, _, rfl, .refl s, ?_⟩
      unfold takeUnknown sameButPort
      split <;> rfl
    · exact .of_operation (.refl s)

/-- Bytes at the receiver (R173). -/
theorem execFrameDiscarded_operates (bytes : List Byte) (s : State) : Operates s (execFrameDiscarded bytes s) := by
  unfold execFrameDiscarded
  split
  · split
    · exact ⟨_, _, rfl, .refl s, rfl⟩
    · exact takeFrame_operates _ _ s
  · exact .of_operation (.refl s)

/-- The end of a response, and with it a warm start when one is pending (R192). -/
theorem endResponse_operates (p : Pins) (s : State) : Operates s (execResponseSent p s) := by
  unfold execResponseSent State.whenPowered State.endResponse
  split
  · split
    · exact .of_operation (.refl s)
    · split
      · exact .of_operation (.system (.warmStart p))
      · exact ⟨_, _, rfl, .refl s, rfl⟩
  · exact .of_operation (.refl s)

/-- A request command is its code's request. -/
theorem exec_eq_execRequest {c : Instr} {k : RequestKind} (s : State) (h : request? c = some k) :
    execRequest k.code k.frame s = some (exec c s) := by
  cases c <;> cases h <;> rfl

/-- Every command is one of the operations, with the port aside. -/
theorem exec_operates (c : Instr) (s : State) : Operates s (exec c s) := by
  cases hk : request? c with
  | some k => exact execRequest_operates (exec_eq_execRequest s hk)
  | none =>
    cases c
    case unknownRequest code f => exact takeFrame_operates code f s
    case frameDiscarded bytes => exact execFrameDiscarded_operates bytes s
    case frameGapTimeout b =>
      show Operates s (.next (s.whenPowered _))
      unfold State.whenPowered
      split
      · exact ⟨s, _, rfl, .refl s, rfl⟩
      · exact .of_operation (.refl s)
    case responseSent p => exact endResponse_operates p s
    case signalExpiry c => exact .whenPowered (signalExpired_operation s c)
    case ticketExpiry n => exact .whenPowered (ticketExpiry_operation s n)
    case warmUpExpiry => exact .whenPowered (.transfer .warmUpExpired)
    case dryingTimerExpiry => exact .whenPowered (.transfer .dryingExpired)
    case cleanoutExpiry l => exact .whenPowered (.transfer (.cleanoutDone l))
    case staleExpiry b => exact .whenPowered (.transfer (.staleExpired b))
    case riverStaleExpiry => exact .whenPowered (.berth .riverExpired)
    case spoutTimerExpiry k => exact .whenPowered (.berth (.spoutExpired k))
    case commitDone => exact .whenPowered (.system .commitEnds)
    case commitFailed => exact .whenPowered (.system .commitFails)
    case estopAsserted => exact .whenPowered (.system .assertEstop)
    case estopReleased => exact .whenPowered (.system .releaseEstop)
    case resetAsserted p =>
      refine .whenPowered ?_
      unfold State.assertReset
      split
      · exact .refl s
      · exact .system (.warmStart p)
    case mainPowerReturn p =>
      show Operates s (.next (s.returnPower p))
      unfold State.returnPower
      split
      · exact .of_operation (.system (.coldReturn p))
      · exact .of_operation (.system (.warmReturn p))
    case backupLostChange v => exact .whenPowered (.system (.setBackupLost v))
    case presentChange k v => exact .whenPowered (.berth (.presentChanged k v))
    case mooredChange k v => exact .whenPowered (.berth (.mooredChanged k v))
    case buttonPress k => exact .whenPowered (.berth (.buttonPressed k))
    case buttonRelease k => exact .whenPowered (.berth (.buttonReleased k))
    case mainPowerLoss => exact .whenPowered (.system .losePower)
    case resetReleased => exact .whenPowered (.system .releaseReset)
    all_goals cases hk

/-- What a step can do: the queue, the clock, or one operation with the port aside. A law that all three keep is kept
by every step. -/
theorem step_keeps {P : State → Prop} {s t : State} (h : step s = .next t)
    (queue : ∀ rest, P s → P { s with pending := rest })
    (tick : P s → P s.tick)
    (port : ∀ u r q, P u → P { u with receiver := r, response := q })
    (operation : ∀ u v, Operation u v → P u → P v) : P s → P t := by
  intro hs
  unfold step at h
  split at h
  · cases h; exact tick hs
  · next c rest _ =>
    obtain ⟨u, v, he, ho, hp⟩ := exec_operates c { s with pending := rest }
    cases he.symm.trans h
    rw [hp]
    exact port _ _ _ (operation _ _ ho (queue rest hs))

end Sys2Proof.Machine
end

section
/-! PROOFS. What the operations over transfers, entries and berths leave alone: no grain moves, and no ticket's
reservation changes. -/

namespace Sys2Proof.Machine

/-! ### Quiet changes -/

/-- A ticket's reservation. -/
def HolderRef.isTicket : HolderRef → Bool
  | .ticket _ => true
  | .batch | .transfer _ => false

/-- The reservations that tickets hold in a bin. -/
def Bin.ticketHolders (x : Bin) : List Holder := x.holders.filter fun h => h.who.isTicket

/-- The same grain, and the same reservations of tickets. -/
structure Bin.QuietChange (x y : Bin) : Prop where
  grain : x.sameGrain y
  tickets : y.ticketHolders = x.ticketHolders

/-- No grain has moved, and the tickets' reservations stand as they stood. -/
structure Quiet (s t : State) : Prop extends NoGrainMoved s t where
  tickets : ∀ b, (t.bin b).ticketHolders = (s.bin b).ticketHolders

theorem Bin.QuietChange.refl (x : Bin) : x.QuietChange x := ⟨⟨rfl, rfl⟩, rfl⟩

theorem Bin.QuietChange.trans {x y z : Bin} (h : x.QuietChange y) (k : y.QuietChange z) : x.QuietChange z :=
  ⟨⟨k.grain.1.trans h.grain.1, k.grain.2.trans h.grain.2⟩, k.tickets.trans h.tickets⟩

theorem Berth.sameCargo.refl (b : Berth) : b.sameCargo b := ⟨rfl, rfl, rfl, rfl, rfl⟩

theorem Berth.sameCargo.trans {a b c : Berth} (h : a.sameCargo b) (k : b.sameCargo c) : a.sameCargo c := by
  obtain ⟨h1, h2, h3, h4, h5⟩ := h
  obtain ⟨k1, k2, k3, k4, k5⟩ := k
  exact ⟨k1.trans h1, k2.trans h2, k3.trans h3, k4.trans h4, k5.trans h5⟩

theorem Quiet.refl (s : State) : Quiet s s :=
  ⟨⟨rfl, fun _ => ⟨rfl, rfl⟩, fun _ => .refl _, rfl⟩, fun _ => rfl⟩

theorem Quiet.bin {s t : State} (h : Quiet s t) (b : BinNo) : (s.bin b).QuietChange (t.bin b) := ⟨h.bins b, h.tickets b⟩

theorem Quiet.trans {s t u : State} (h : Quiet s t) (k : Quiet t u) : Quiet s u where
  frame := k.frame.trans (congrArg (fun x : State => { x with
    bins := u.bins, legs := u.legs, berths := u.berths, schedules := u.schedules, dryer := u.dryer
    events := u.events, nextTransfer := u.nextTransfer }) h.frame)
  bins b := ((h.bin b).trans (k.bin b)).grain
  berths n := (h.berths n).trans (k.berths n)
  portions := k.portions.trans h.portions
  tickets b := ((h.bin b).trans (k.bin b)).tickets

/-- A fold of quiet changes is quiet. -/
theorem Quiet.foldl {α : Type} {f : State → α → State} (h : ∀ s a, Quiet s (f s a)) (l : List α) (s : State) :
    Quiet s (l.foldl f s) := by
  induction l generalizing s with
  | nil => exact .refl s
  | cons a l ih => exact (h s a).trans (ih _)

section Records
variable (s : State)

/-- The bins of a state, when one has been set. -/
theorem State.bin_setBin (b : BinNo) (x : Bin) (c : BinNo) : (s.setBin b x).bin c = if c = b then x else s.bin c := by
  split
  · next h => subst h; simp
  · next h => exact s.bin_setBin_other h x

theorem State.berth_setBerth (k : BerthNo) (x : Berth) (j : BerthNo) :
    (s.setBerth k x).berth j = if j = k then x else s.berth j := by
  split
  · next h => subst h; simp
  · next h => exact s.berth_setBerth_other h x

theorem State.leg_setLeg (l : LegNo) (x : Leg) (m : LegNo) : (s.setLeg l x).leg m = if m = l then x else s.leg m := by
  split
  · next h => subst h; simp
  · next h => exact s.leg_setLeg_other h x

theorem State.entry_setEntry (n : EntryNo) (x : Option Entry) (m : EntryNo) :
    (s.setEntry n x).entry m = if m = n then x else s.entry m := by
  split
  · next h => subst h; simp
  · next h => exact s.entry_setEntry_other h x

/-- A change of a bin that leaves its grain and its tickets' reservations. -/
theorem Quiet.setBin {b : BinNo} {x : Bin} (h : (s.bin b).QuietChange x) : Quiet s (s.setBin b x) where
  frame := rfl
  bins c := by
    rw [s.bin_setBin]; split
    · next e => subst e; exact h.grain
    · exact ⟨rfl, rfl⟩
  berths _ := .refl _
  portions := rfl
  tickets c := by
    rw [s.bin_setBin]; split
    · next e => subst e; exact h.tickets
    · rfl

/-- A change of a berth that leaves its cargo. -/
theorem Quiet.setBerth {k : BerthNo} {x : Berth} (h : (s.berth k).sameCargo x) : Quiet s (s.setBerth k x) where
  frame := rfl
  bins _ := ⟨rfl, rfl⟩
  berths j := by
    rw [s.berth_setBerth]; split
    · next e => subst e; exact h
    · exact .refl _
  portions := rfl
  tickets _ := rfl

theorem Quiet.setLeg (l : LegNo) (x : Leg) : Quiet s (s.setLeg l x) :=
  ⟨⟨rfl, fun _ => ⟨rfl, rfl⟩, fun _ => .refl _, rfl⟩, fun _ => rfl⟩

theorem Quiet.setEntry (n : EntryNo) (x : Option Entry) : Quiet s (s.setEntry n x) :=
  ⟨⟨rfl, fun _ => ⟨rfl, rfl⟩, fun _ => .refl _, rfl⟩, fun _ => rfl⟩

theorem Quiet.raise (f : Flag) : Quiet s (s.raise f) :=
  ⟨⟨rfl, fun _ => ⟨rfl, rfl⟩, fun _ => .refl _, rfl⟩, fun _ => rfl⟩

theorem Quiet.raiseIf (c : Bool) (f : Flag) : Quiet s (s.raiseIf c f) := by
  unfold State.raiseIf; split
  · exact .raise s f
  · exact .refl s

/-- A change of the dryer that keeps its portions. -/
theorem Quiet.setDryer {d : Dryer} (h : (d.batch.map Batch.portions).getD [] = s.portions) :
    Quiet s { s with dryer := d } :=
  ⟨⟨rfl, fun _ => ⟨rfl, rfl⟩, fun _ => .refl _, h⟩, fun _ => rfl⟩

theorem Quiet.setNextTransfer (n : Nat) : Quiet s { s with nextTransfer := n } :=
  ⟨⟨rfl, fun _ => ⟨rfl, rfl⟩, fun _ => .refl _, rfl⟩, fun _ => rfl⟩

end Records

/-! ### Reservations and claims -/

section Holders
variable (s : State) (b : BinNo)

theorem Bin.reevaluate_quiet (x : Bin) : x.QuietChange x.reevaluate := by
  unfold Bin.reevaluate; split
  · exact ⟨⟨rfl, rfl⟩, rfl⟩
  · exact .refl x

theorem reevaluate_quiet : Quiet s (s.reevaluate b) := .setBin s (Bin.reevaluate_quiet _)

theorem Bin.claim_quiet (x : Bin) (c : Option Nat) : x.QuietChange { x with claim := c } := ⟨⟨rfl, rfl⟩, rfl⟩

theorem takeClaim_quiet (id : Nat) : Quiet s (s.takeClaim b id) := by
  unfold State.takeClaim; split
  · exact .refl s
  · exact .setBin s (Bin.claim_quiet _ _)

theorem dropClaim_quiet (id : Nat) : Quiet s (s.dropClaim b id) := by
  unfold State.dropClaim; split
  · exact .setBin s ((Bin.claim_quiet _ _).trans (Bin.reevaluate_quiet _))
  · exact .refl s

/-- A reservation that is no ticket's leaves those of the tickets (R29). -/
theorem reserve_quiet {who : HolderRef} (hw : who.isTicket = false) (i : Identity) (kg n : Nat) :
    Quiet s (s.reserve b who i kg n) := by
  unfold State.reserve; split
  · exact .refl s
  · exact .setBin s ⟨⟨rfl, rfl⟩, by simp [Bin.ticketHolders, Bin.reserveFor, hw]⟩

/-- A release that is no ticket's leaves those of the tickets (R31). -/
theorem release_quiet {who : HolderRef} (hw : who.isTicket = false) : Quiet s (s.release b who) := by
  have hq : (s.bin b).QuietChange { s.bin b with holders := (s.bin b).holders.filter fun h => h.who != who } := by
    refine ⟨⟨rfl, rfl⟩, ?_⟩
    simp only [Bin.ticketHolders, List.filter_filter]
    refine List.filter_congr fun h _ => ?_
    by_cases e : h.who = who <;> simp [e, hw]
  exact .setBin s (hq.trans (Bin.reevaluate_quiet _))

/-- A hand-over between the batch and a transfer leaves the tickets' reservations (R31). -/
theorem handOver_quiet {old new : HolderRef} (ho : old.isTicket = false) (hn : new.isTicket = false) :
    Quiet s (s.handOver b old new) := by
  refine .setBin s ⟨⟨rfl, rfl⟩, ?_⟩
  simp only [Bin.ticketHolders]
  induction (s.bin b).holders with
  | nil => rfl
  | cons h hs ih =>
    by_cases e : h.who = old
    · simp [e, ho, hn, ih]
    · simp [e, List.filter_cons, ih]

/-- A change of a holder that is no ticket's leaves those of the tickets. -/
theorem Bin.modHolder_quiet (x : Bin) {who : HolderRef} (hw : who.isTicket = false) {f : Holder → Holder}
    (hf : ∀ h, (f h).who = h.who) : x.QuietChange (x.modHolder who f) := by
  refine ⟨⟨rfl, rfl⟩, ?_⟩
  simp only [Bin.ticketHolders, Bin.modHolder]
  induction x.holders with
  | nil => rfl
  | cons h hs ih =>
    by_cases e : h.who = who
    · simp [modFirst, e, hf, hw]
    · simp [modFirst, e, List.filter_cons, ih]

end Holders

/-! ### Berths -/

section Berths
variable (s : State) (k : BerthNo)

theorem Berth.settleReady_sameCargo (b : Berth) : b.sameCargo b.settleReady := by
  unfold Berth.settleReady; split <;> exact ⟨rfl, rfl, rfl, rfl, rfl⟩

theorem settleReady_quiet : Quiet s (s.settleReady k) := .setBerth s (Berth.settleReady_sameCargo _)

theorem setBerthState_quiet (x : BerthState) : Quiet s (s.setBerth k { s.berth k with state := x }) :=
  .setBerth s ⟨rfl, rfl, rfl, rfl, rfl⟩

theorem haltBerth_quiet (cause : HaltCause) : Quiet s (s.haltBerth k cause) := setBerthState_quiet s k _

theorem completionTest_quiet : Quiet s (s.completionTest k) := by
  unfold State.completionTest; dsimp only; split
  · exact (setBerthState_quiet s k _).trans (.raise _ _)
  · exact .setBerth s (.trans ⟨rfl, rfl, rfl, rfl, rfl⟩ (Berth.settleReady_sameCargo _))

theorem berthEnd_quiet (reason : EndReason) : Quiet s (s.berthEnd k reason) := by
  unfold State.berthEnd; dsimp only; split
  · exact .refl s
  · exact .refl s
  · split
    · exact haltBerth_quiet s k _
    · exact haltBerth_quiet s k _
    · exact completionTest_quiet s k
  · split
    · exact .refl s
    · exact completionTest_quiet s k

theorem dropBerthClaim_quiet (id : Nat) : Quiet s (s.dropBerthClaim k id) := by
  unfold State.dropBerthClaim; split
  · exact .setBerth s ⟨rfl, rfl, rfl, rfl, rfl⟩
  · exact .refl s

theorem setLimit_quiet (limit : Nat) (past : Bool) :
    Quiet s (s.setBerth k { s.berth k with loadLimit := limit, overLimit := past }) :=
  .setBerth s ⟨rfl, rfl, rfl, rfl, rfl⟩

theorem recomputeLimit_quiet : Quiet s (s.recomputeLimit k) := by
  unfold State.recomputeLimit; dsimp only; split
  · exact .refl s
  · next g _ =>
    split
    · split
      · exact .setBerth s ⟨rfl, rfl, rfl, rfl, rfl⟩
      · have hq := (setLimit_quiet s k (loadLimitOf s.settings.river s.river g) true).trans (.raise _ (flagOverdraft k))
        split
        · exact hq.trans (haltBerth_quiet _ k _)
        · exact hq.trans (settleReady_quiet _ k)
    · exact .setBerth s (.trans ⟨rfl, rfl, rfl, rfl, rfl⟩ (Berth.settleReady_sameCargo _))

end Berths

/-! ### Schedule entries -/

section Entries
variable (s : State)

theorem endEntry_quiet (n : EntryNo) (reason : EntryEnd) : Quiet s (s.endEntry n reason) := by
  unfold State.endEntry; split
  · exact .refl s
  · exact (Quiet.setEntry s _ _).trans (.raise _ _)

theorem autoTurn_quiet (b : BinNo) : Quiet s (s.autoTurn b) := by
  unfold State.autoTurn; dsimp only; split
  · exact .refl s
  · split
    · exact .refl s
    · exact .setEntry s _ _

theorem setTemp_quiet (b : BinNo) (x : TempFields) : Quiet s (s.setBin b { s.bin b with temp := x }) :=
  .setBin s ⟨⟨rfl, rfl⟩, rfl⟩

theorem evaluateHot_quiet (b : BinNo) : Quiet s (s.evaluateHot b) := by
  unfold State.evaluateHot; dsimp only; split
  · split
    · exact ((setTemp_quiet s b _).trans (.raise _ _)).trans (autoTurn_quiet _ b)
    · exact setTemp_quiet s b _
  · exact .refl s

theorem passComplete_quiet (n : EntryNo) (e : Entry) (t : Transfer) : Quiet s (s.passComplete n e t) := by
  unfold State.passComplete
  extract_lets s1 x turned old s2 y old' s3
  have h1 : Quiet s s1 := .setEntry s _ _
  have h2 : Quiet s s2 := h1.trans (setTemp_quiet s1 _ _)
  have h3 : Quiet s s3 := by
    unfold s3; split
    · exact (h2.trans (setTemp_quiet s2 _ _)).trans (evaluateHot_quiet _ _)
    · exact h2
  split
  · split
    · exact h3.trans (endEntry_quiet _ _ _)
    · split
      · exact h3.trans (.setEntry _ _ _)
      · exact h3
  · exact h3

theorem passEnd_quiet (n : EntryNo) (reason : EndReason) (t : Transfer) : Quiet s (s.passEnd n reason t) := by
  unfold State.passEnd; split
  · exact .refl s
  · split
    · exact .refl s
    · split
      · exact passComplete_quiet s _ _ _
      · exact .setEntry s _ _
      · dsimp only; split
        · exact (Quiet.setEntry s _ _).trans (endEntry_quiet _ _ _)
        · exact .setEntry s _ _

end Entries

/-! ### Launches -/

section Launches
variable (s : State)

theorem enterActive_quiet (l : LegNo) (t : Transfer) : Quiet s (s.enterActive l t) := by
  unfold State.enterActive
  extract_lets g time s1
  have h1 : Quiet s s1 := by unfold s1; split <;> exact .setLeg s _ _
  split
  · exact h1.trans (setBerthState_quiet _ _ _)
  · exact h1

theorem preempt_quiet (l : LegNo) : Quiet s (s.preempt l) := by
  unfold State.preempt; dsimp only; split
  · exact .refl s
  · split
    · refine (Quiet.setLeg s l _).trans (.setBerth _ (.trans ?_ (Berth.settleReady_sameCargo _)))
      exact ⟨rfl, rfl, rfl, rfl, rfl⟩
    · exact .setLeg s l _

theorem holdFor_quiet (t : Transfer) (n : Nat) : Quiet s (s.holdFor t n) := by
  unfold State.holdFor
  extract_lets s1
  have h1 : Quiet s s1 := by
    unfold s1; split
    · exact takeClaim_quiet s _ _
    · exact .refl s
  split
  · exact h1.trans (.setBerth _ ⟨rfl, rfl, rfl, rfl, rfl⟩)
  · split
    · exact h1.trans (handOver_quiet _ _ rfl rfl)
    · exact h1.trans (reserve_quiet _ _ rfl _ _ _)

theorem commitLaunch_quiet (r : LaunchRequest) (g : Grant) : Quiet s (s.commitLaunch r g) := by
  unfold State.commitLaunch
  extract_lets t s1 s2
  have h1 : Quiet s s1 := (Quiet.setNextTransfer s _).trans (holdFor_quiet _ _ _)
  have h2 : Quiet s s2 := by
    unfold s2; split
    · exact h1.trans (preempt_quiet _ _)
    · exact h1
  split
  · exact h2.trans (enterActive_quiet _ _ _)
  · exact h2.trans (.setLeg _ _ _)

/-- What a launch does: nothing, or the commitment of what its checks grant. -/
theorem State.launch_cases (r : LaunchRequest) :
    (∃ code limit, s.launchChecks r = .error (code, limit) ∧ s.launch r = (s, .refused code limit)) ∨
      ∃ g, s.launchChecks r = .ok g ∧ s.launch r = (s.commitLaunch r g, .placed s.nextId g.slot) := by
  unfold State.launch
  cases h : s.launchChecks r with
  | error e => exact .inl ⟨e.1, e.2, rfl, rfl⟩
  | ok g => exact .inr ⟨g, rfl, rfl⟩

theorem launch_quiet (r : LaunchRequest) : Quiet s (s.launch r).1 := by
  obtain ⟨code, limit, _, h⟩ | ⟨g, _, h⟩ := s.launch_cases r <;> rw [h]
  · exact .refl s
  · exact commitLaunch_quiet s r g

theorem tryDischarge_quiet : Quiet s s.tryDischarge.1 := by
  unfold State.tryDischarge; split
  · exact .refl s
  · next b hb =>
    dsimp only
    split
    · next s1 id slot h =>
      have hq : Quiet s s1 := by
        have := launch_quiet s { origin := .dryer, leg := s.settings.dryer.dischargeLeg, source := .dryer
                                 dest := .bin b.dest, kg := (b.portions.map Portion.kg).sum, attr := .ordinary }
        rwa [h] at this
      exact hq.trans (.setDryer s1 rfl)
    · next s1 code limit h =>
      have hq : Quiet s s1 := by
        have := launch_quiet s { origin := .dryer, leg := s.settings.dryer.dischargeLeg, source := .dryer
                                 dest := .bin b.dest, kg := (b.portions.map Portion.kg).sum, attr := .ordinary }
        rwa [h] at this
      exact hq.trans (.raiseIf _ _ _)

theorem launchPass_quiet (n : EntryNo) (e : Entry) : Quiet s (s.launchPass n e) := by
  unfold State.launchPass
  extract_lets kg r
  have hq := launch_quiet s r
  split
  · next h => rw [h] at hq; exact hq.trans (.setEntry _ _ _)
  · next h =>
    rw [h] at hq
    split
    · exact hq
    · exact hq
    all_goals exact hq.trans (endEntry_quiet _ _ _)

theorem examine_quiet : Quiet s s.examine := by
  refine Quiet.foldl (fun s n => ?_) _ s
  unfold State.examineEntry; split
  · exact .refl s
  · split
    · exact launchPass_quiet s _ _
    · exact .refl s

end Launches

/-! ### Ends -/

section Ends
variable (s : State)

theorem dischargeEnd_quiet : Quiet s s.dischargeEnd := by
  unfold State.dischargeEnd; dsimp only; split
  · next h => exact .setDryer s (by simp [State.portions, h])
  · next b h =>
    split
    · next hp =>
      refine ((release_quiet s b.dest rfl).trans (.setDryer _ ?_)).trans (.raise _ _)
      have : s.portions = [] := by simp [State.portions, h, hp]
      rw [(release_quiet s b.dest rfl).portions, this]
      split_ifs <;> rfl
    · exact .setDryer s (by simp [State.portions, h])

theorem endReservation_quiet (t : Transfer) (reason : EndReason) : Quiet s (s.endReservation t reason) := by
  unfold State.endReservation; split
  · exact .refl s
  · split
    · exact handOver_quiet s _ rfl rfl
    · exact release_quiet s _ rfl

theorem tellEnd_quiet (t : Transfer) (reason : EndReason) : Quiet s (s.tellEnd t reason) := by
  unfold State.tellEnd
  extract_lets s1
  have h1 : Quiet s s1 := by
    unfold s1; split
    · exact dischargeEnd_quiet s
    · exact passEnd_quiet s _ _ _
    · exact .refl s
  split
  · exact h1.trans (berthEnd_quiet _ _ _)
  · exact h1

theorem endSlot_quiet (l : LegNo) (k : Slot) (reason : EndReason) : Quiet s (s.endSlot l k reason) := by
  unfold State.endSlot; split
  · exact .refl s
  · next t _ =>
    extract_lets old s1 s2 s3 s4 s5
    have h1 : Quiet s s1 := .setLeg s _ _
    have h2 : Quiet s s2 := by
      unfold s2; split
      · exact h1.trans (dropClaim_quiet _ _ _)
      · exact h1
    have h3 : Quiet s s3 := by
      unfold s3; split
      · exact h2.trans (dropBerthClaim_quiet _ _ _)
      · exact h2
    have h4 : Quiet s s4 := h3.trans (endReservation_quiet _ _ _)
    have h5 : Quiet s s5 := h4.trans (.foldl (fun u b => reevaluate_quiet u b) _ _)
    exact (h5.trans (.raiseIf _ _ _)).trans (tellEnd_quiet _ _ _)

theorem fillActive_quiet (l : LegNo) (n : Nat) : Quiet s (s.fillActive l n) := by
  induction n generalizing s with
  | zero => unfold State.fillActive; exact .refl s
  | succ n ih =>
    have advance (t : Transfer) (g : Leg) : Quiet s (State.fillActive.advance l n t g s) := by
      unfold State.fillActive.advance; split
      · exact (Quiet.setLeg s _ _).trans (enterActive_quiet _ _ _)
      · exact ((Quiet.setLeg s _ _).trans (endSlot_quiet _ _ _ _)).trans (ih _)
    unfold State.fillActive; dsimp only; split
    · exact .refl s
    · split
      · exact advance _ _
      · exact advance _ _
      · exact .refl s

theorem settleLeg_quiet (l : LegNo) : Quiet s (s.settleLeg l) :=
  (fillActive_quiet s l 2).trans (.raiseIf _ _ _)

theorem endTransfers_quiet (vs : List Victim) : Quiet s (s.endTransfers vs) := by
  unfold State.endTransfers; split
  · exact .refl s
  · extract_lets s1 legs s2 s3
    have h1 : Quiet s s1 := .foldl (fun t (v : Victim) => endSlot_quiet t v.leg v.slot v.reason) _ s
    have h2 : Quiet s s2 := h1.trans (.foldl (fun t l => settleLeg_quiet t l) _ _)
    have h3 : Quiet s s3 := by
      unfold s3; split
      · exact h2.trans (tryDischarge_quiet _)
      · exact h2
    exact h3.trans (examine_quiet _)

theorem haltLoading_quiet (k : BerthNo) (cause : HaltCause) (reason : EndReason) :
    Quiet s (s.haltLoading k cause reason) := (haltBerth_quiet s k cause).trans (endTransfers_quiet _ _)

theorem recomputeLimits_quiet : Quiet s s.recomputeLimits :=
  (Quiet.foldl (fun t k => recomputeLimit_quiet t k) _ s).trans (endTransfers_quiet _ _)

theorem resetTransfers_quiet : Quiet s s.resetTransfers :=
  .foldl (fun t (v : Victim) => endSlot_quiet t v.leg v.slot v.reason) _ s

theorem conditionChanged_quiet (k : BerthNo) (lost : Bool) (cause : HaltCause) :
    Quiet s (s.conditionChanged k lost cause) := by
  unfold State.conditionChanged; split
  · exact haltLoading_quiet s k _ _
  · exact settleReady_quiet s k

theorem holdEntries_quiet (b : BinNo) : Quiet s (s.holdEntries b) := by
  refine Quiet.foldl (fun s n => ?_) _ s
  split
  · split
    · exact endEntry_quiet s _ _
    · exact .refl s
  · exact .refl s

theorem launchStaged_quiet (l : LegNo) (x : Staging) : Quiet s (s.launchStaged l x).1 := by
  have hq := launch_quiet s (x.request l)
  unfold State.launchStaged; split
  · next h => rw [h] at hq; exact hq.trans (.setLeg _ _ _)
  · next h => rw [h] at hq; exact hq.trans (.raiseIf _ _ _)

theorem cleanoutDone_quiet (l : LegNo) : Quiet s (s.cleanoutDone l) := by
  unfold State.cleanoutDone; dsimp only; split
  · split
    · exact .setLeg s _ _
    · exact .refl s
  · exact .refl s

theorem stopLegs_quiet : Quiet s s.stopLegs :=
  .foldl (fun t l => (Quiet.setLeg t l _).trans (.raiseIf _ _ _)) _ s

theorem dropStagings_quiet (n : StationNo) : Quiet s (s.dropStagings n) := by
  refine Quiet.foldl (fun t l => ?_) _ s
  split
  · exact .setLeg t l _
  · exact .refl t

end Ends

end Sys2Proof.Machine
end

section
/-! PROOFS. The lot table, the ticket table and the vehicle registry stay in order over every step (R1, R4, R68 to
R71). -/

namespace Sys2Proof.Machine

/-! ### Numbers found free -/

/-- The numbers that a search for a free number tries: n, n + 1, up to the top, and then from 1 (R1, R70). -/
theorem wrapNext_iterate {top n i : Nat} (hi : i ≤ top) :
    (wrapNext top)^[i] n = if i ≤ top - n then n + i else i - (top - n) := by
  induction i with
  | zero => simp
  | succ i ih =>
    rw [Function.iterate_succ_apply', ih (by omega), wrapNext]
    split_ifs <;> omega

/-- Fewer numbers than the search tries are in use, so it finds a free one (R1, R70, R104). -/
theorem firstFree_not_mem {used : List Nat} {top fuel : Nat} (n : Nat) (hu : used.length < fuel) (ht : fuel ≤ top) :
    firstFree used top fuel n ∉ used := by
  refine (firstFree_spec used top fuel n).resolve_right fun h => ?_
  have hnd : ((List.range fuel).map fun i => (wrapNext top)^[i] n).Nodup := by
    refine List.Nodup.map_on (fun i hi j hj e => ?_) List.nodup_range
    rw [List.mem_range] at hi hj
    rw [wrapNext_iterate (by omega), wrapNext_iterate (by omega)] at e
    split_ifs at e <;> omega
  have hsub : ((List.range fuel).map fun i => (wrapNext top)^[i] n) ⊆ used := by
    intro x hx
    obtain ⟨i, hi, rfl⟩ := List.mem_map.1 hx
    exact h i (List.mem_range.1 hi)
  have := (List.subperm_of_subset hnd hsub).length_le
  simp at this
  omega

/-! ### States with the same tables -/

/-- The lots have the same numbers, and tickets and vehicles are the same. -/
structure SameTickets (s t : State) : Prop where
  lots : t.lots.map Lot.no = s.lots.map Lot.no
  tickets : t.tickets = s.tickets
  vehicles : t.vehicles = s.vehicles

/-- The lots and tickets have the same numbers, and the registry the same tags and open tickets. -/
structure SameTables (s t : State) : Prop where
  lots : t.lots.map Lot.no = s.lots.map Lot.no
  tickets : t.tickets.map (fun k => (k.number, k.tag)) = s.tickets.map fun k => (k.number, k.tag)
  vehicles : t.vehicles.map (fun v => (v.tag, v.openTicket)) = s.vehicles.map fun v => (v.tag, v.openTicket)

theorem SameTickets.refl (s : State) : SameTickets s s := ⟨by rfl, by rfl, by rfl⟩

theorem SameTickets.trans {s t u : State} (h : SameTickets s t) (k : SameTickets t u) : SameTickets s u :=
  ⟨k.lots.trans h.lots, k.tickets.trans h.tickets, k.vehicles.trans h.vehicles⟩

theorem SameTickets.sameTables {s t : State} (h : SameTickets s t) : SameTables s t :=
  ⟨h.lots, by rw [h.tickets], by rw [h.vehicles]⟩

theorem SameTables.trans {s t u : State} (h : SameTables s t) (k : SameTables t u) : SameTables s u :=
  ⟨k.lots.trans h.lots, k.tickets.trans h.tickets, k.vehicles.trans h.vehicles⟩

theorem SameTables.refl (s : State) : SameTables s s := (SameTickets.refl s).sameTables

theorem SameTickets.foldl {α : Type} {f : State → α → State} (h : ∀ s a, SameTickets s (f s a)) (l : List α)
    (s : State) : SameTickets s (l.foldl f s) := by
  induction l generalizing s with
  | nil => exact .refl s
  | cons a l ih => exact (h s a).trans (ih _)

theorem SameTables.foldl {α : Type} {f : State → α → State} (h : ∀ s a, SameTables s (f s a)) (l : List α)
    (s : State) : SameTables s (l.foldl f s) := by
  induction l generalizing s with
  | nil => exact .refl s
  | cons a l ih => exact (h s a).trans (ih _)

theorem Quiet.sameTickets {s t : State} (h : Quiet s t) : SameTickets s t := by
  have hf := h.frame
  exact ⟨by rw [hf], by rw [hf], by rw [hf]⟩

theorem Quiet.sameTables {s t : State} (h : Quiet s t) : SameTables s t := h.sameTickets.sameTables

/-! ### The numbers of lots -/

theorem Lot.sizeCheck_no (size : Nat) (l : Lot) : (l.sizeCheck size).no = l.no := by unfold Lot.sizeCheck; split <;> rfl

theorem Lot.credit_no (net m k e size : Nat) (l : Lot) : (l.credit net m k e size).no = l.no := by
  unfold Lot.credit; rw [Lot.sizeCheck_no]; rfl

section Same
variable (s : State)

theorem setBin_sameTickets (b : BinNo) (x : Bin) : SameTickets s (s.setBin b x) := ⟨by rfl, by rfl, by rfl⟩

theorem setBerth_sameTickets (k : BerthNo) (x : Berth) : SameTickets s (s.setBerth k x) := ⟨by rfl, by rfl, by rfl⟩

theorem release_sameTickets (b : BinNo) (who : HolderRef) : SameTickets s (s.release b who) := ⟨by rfl, by rfl, by rfl⟩

theorem raiseIf_sameTickets (p : Bool) (f : Flag) : SameTickets s (s.raiseIf p f) := (Quiet.raiseIf s p f).sameTickets

theorem noteOverfull_sameTickets (v : Bool) (b : BinNo) : SameTickets s (s.noteOverfull v b) :=
  raiseIf_sameTickets s _ _

/-- A change of every lot that keeps the numbers. -/
theorem mapLots_sameTickets {g : Lot → Lot} (hg : ∀ l, (g l).no = l.no) : SameTickets s { s with lots := s.lots.map g } :=
  ⟨by simp [hg], rfl, rfl⟩

theorem modLot_sameTickets (n : Nat) (g : Lot → Lot) (hg : ∀ l, (g l).no = l.no) : SameTickets s (s.modLot n g) :=
  ⟨State.modLot_numbers s n g hg, rfl, rfl⟩

theorem checkSizes_sameTickets (x : Settings) : SameTickets s { s with settings := x }.checkSizes :=
  ⟨by simp [State.checkSizes, Lot.sizeCheck_no], rfl, rfl⟩

theorem modTicket_sameTables (n : Nat) (g : Ticket → Ticket) (hn : ∀ k, (g k).number = k.number)
    (ht : ∀ k, (g k).tag = k.tag) : SameTables s (s.modTicket n g) := by
  refine ⟨rfl, ?_, rfl⟩
  simp only [State.modTicket, List.map_map]
  refine List.map_congr_left fun k _ => ?_
  by_cases h : k.number = n <;> simp [h, hn, ht]

theorem modVehicle_sameTables (tag : List Byte) (g : Vehicle → Vehicle) (ht : ∀ v, (g v).tag = v.tag)
    (ho : ∀ v, (g v).openTicket = v.openTicket) : SameTables s (s.modVehicle tag g) := by
  refine ⟨rfl, rfl, ?_⟩
  simp only [State.modVehicle, List.map_map]
  refine List.map_congr_left fun v _ => ?_
  by_cases h : v.tag = tag <;> simp [h, ht, ho]

end Same

section Grain
variable (s : State)

theorem deposit_sameTickets {b : BinNo} {who : HolderRef} {p : Portion} {fromTop : Bool} {t : State}
    (h : s.deposit b who p fromTop = some t) : SameTickets s t := by
  have fresh (x : Bin) (v : Bool) (hx : State.deposit.newLayer b who p s x v = some t) : SameTickets s t := by
    unfold State.deposit.newLayer at hx
    split at hx
    · split at hx
      · cases hx
      · cases hx
        refine .trans ?_ (noteOverfull_sameTickets _ _ _)
        exact (setBin_sameTickets s b _).trans (modLot_sameTickets _ p.lot Lot.addLayer fun _ => by rfl)
    · cases hx
  unfold State.deposit at h
  dsimp only at h
  split at h
  · split at h
    · cases h; exact (setBin_sameTickets s b _).trans (noteOverfull_sameTickets _ _ _)
    · exact fresh _ _ h
  · exact fresh _ _ h

theorem draw_sameTickets (b : BinNo) (q : Nat) : SameTickets s (s.draw b q).2 := by
  unfold State.draw
  dsimp only
  refine .trans (.foldl (fun t n => ?_) _ s) (setBin_sameTickets _ _ _)
  exact modLot_sameTickets t n Lot.dropLayer fun _ => by rfl

theorem setDryer_sameTickets (d : Dryer) : SameTickets s { s with dryer := d } := ⟨by rfl, by rfl, by rfl⟩

theorem drawPortion_sameTickets (x : Nat) : SameTickets s (s.drawPortion x) := by
  unfold State.drawPortion; split
  · exact .refl s
  · split
    · exact .refl s
    · split
      · exact (setDryer_sameTickets s _).trans (modLot_sameTickets _ _ Lot.dropPortion fun _ => by rfl)
      · exact setDryer_sameTickets s _

theorem takePiece_sameTickets (t : Transfer) (x : Nat) : SameTickets s (s.takePiece t x) := by
  unfold State.takePiece; split
  · exact drawPortion_sameTickets s x
  · dsimp only; split
    · exact (draw_sameTickets s _ _).trans (setBin_sameTickets _ _ _)
    · exact draw_sameTickets s _ _

theorem loadPiece_sameTickets (k : BerthNo) (p : Portion) : SameTickets s (s.loadPiece k p) := by
  unfold State.loadPiece
  extract_lets b fresh old b1 s1
  refine .trans (.trans (setBerth_sameTickets s k b1) ?_) (raiseIf_sameTickets _ _ _)
  exact modLot_sameTickets _ _ _ fun l => by split <;> rfl

theorem movePiece_sameTickets {t : Transfer} {p : Portion} {x : Nat} {u : State} (h : s.movePiece t p x = some u) :
    SameTickets s u := by
  unfold State.movePiece at h
  dsimp only at h
  split at h
  · split at h
    · cases h
    · cases h; exact (takePiece_sameTickets s t x).trans (loadPiece_sameTickets _ _ _)
  · obtain ⟨v, hv, rfl⟩ := Option.map_eq_some_iff.1 h
    exact ((takePiece_sameTickets s t x).trans (deposit_sameTickets _ hv)).trans (setBin_sameTickets _ _ _)

theorem movePieces_sameTickets (t : Transfer) (rounds movable : Nat) :
    SameTickets s (s.movePieces t rounds movable).2 := by
  induction rounds generalizing s movable with
  | zero => unfold State.movePieces; exact .refl s
  | succ n ih =>
    unfold State.movePieces
    split
    · exact .refl s
    · split
      · exact .refl s
      · dsimp only; split
        · exact .refl s
        · next u hu => exact (movePiece_sameTickets s hu).trans (ih u _)

theorem moveReport_sameTickets (l : LegNo) (t : Transfer) (kg : Nat) : SameTickets s (s.moveReport l t kg).2 :=
  ((movePieces_sameTickets s t _ _).trans (Quiet.setLeg _ l _).sameTickets).trans (raiseIf_sameTickets _ _ _)

theorem overdraftCheck_quiet (k : BerthNo) (live : Bool) : Quiet s (s.overdraftCheck k live) := by
  unfold State.overdraftCheck; dsimp only; split
  · have hq : Quiet s ((s.setBerth k { s.berth k with overLimit := true }).raiseIf (!(s.berth k).overLimit)
        (flagOverdraft k)) := (setLimit_quiet s k (s.berth k).loadLimit true).trans (.raiseIf _ _ _)
    split
    · exact hq.trans (haltBerth_quiet _ k _)
    · exact hq
  · exact .refl s

/-- The transfer as a report of `kg` kilograms counts it, of which it moved some (R119, R120). -/
def Transfer.counted (t : Transfer) (kg moved : Nat) : Transfer :=
  { t with
    delivered := t.delivered + moved
    overrun := t.overrun + (kg - moved)
    originalRemaining := t.originalRemaining.map (· - moved) }

/-- What follows the moving of a report: the berth's check, and the end that the report brings about (R121, R158). -/
def State.closeReport (l : LegNo) (t : Transfer) (reason : Option EndReason) (s : State) : State :=
  let s1 := match t.berth? with
    | some k => s.overdraftCheck k (reason == some .overdraft)
    | none => s
  match reason with
  | some e => s1.endTransfers [{ leg := l, slot := .active, reason := e }]
  | none => s1

theorem moveReport_active (l : LegNo) (t : Transfer) (kg : Nat) :
    ((s.moveReport l t kg).2.leg l).active = some (t.counted kg (s.moveReport l t kg).1) := by
  have hr (u : State) (p : Bool) (f : Flag) : (u.raiseIf p f).leg l = u.leg l := by
    unfold State.leg; rw [State.raiseIf_legs]
  unfold State.moveReport
  dsimp only
  rw [hr, State.leg_setLeg_same]
  rfl

/-- A flow report in full: what it moves, the end it brings about, and its answer (R118 to R121, R158). -/
theorem flowReport_eq (l : LegNo) (t : Transfer) (kg : Nat) :
    let u := (s.moveReport l t kg).2
    let moved := (s.moveReport l t kg).1
    let t1 := t.counted kg moved
    s.flowReport l t kg = (u.closeReport l t1 (u.reportEnd t1),
      ⟨.ok, short t1.id ++ mass moved ++ mass (kg - moved) ++ mass t1.delivered ++ mass t1.overrun ++
        mass t1.target ++ optional 1 (fun e : EndReason => small e.code) (u.reportEnd t1)⟩) := by
  unfold State.flowReport
  dsimp only
  rw [moveReport_active]
  rfl

theorem closeReport_quiet (l : LegNo) (t : Transfer) (reason : Option EndReason) : Quiet s (s.closeReport l t reason) := by
  unfold State.closeReport
  extract_lets s1
  have h1 : Quiet s s1 := by
    unfold s1; split
    · exact overdraftCheck_quiet s _ _
    · exact .refl s
  split
  · exact h1.trans (endTransfers_quiet _ _)
  · exact h1

theorem flowReport_sameTickets (l : LegNo) (t : Transfer) (kg : Nat) : SameTickets s (s.flowReport l t kg).1 := by
  rw [flowReport_eq]
  exact (moveReport_sameTickets s l t kg).trans (closeReport_quiet _ _ _ _).sameTickets

end Grain

/-! ### The laws, table by table -/

theorem TableLaw.congr {s t : State} (hs : TableLaw s) (h : SameTables s t) : TableLaw t := by
  have ht := congrArg (List.map Prod.fst) h.tickets
  simp only [List.map_map] at ht
  exact ⟨by rw [h.lots]; exact hs.1, by
    have := hs.2
    rw [show (Ticket.number : Ticket → Nat) = Prod.fst ∘ fun k : Ticket => (k.number, k.tag) from rfl] at this ⊢
    rwa [ht]⟩

theorem RegistryLaw.congr {s t : State} (hs : RegistryLaw s) (h : SameTables s t) : RegistryLaw t := by
  have hv := congrArg (List.map Prod.fst) h.vehicles
  simp only [List.map_map] at hv
  have htl : t.tickets.length = s.tickets.length := by simpa using congrArg List.length h.tickets
  have hvl : t.vehicles.length = s.vehicles.length := by simpa using congrArg List.length h.vehicles
  refine ⟨?_, by rw [htl, hvl]; exact hs.room, fun v hvm n hn => ?_⟩
  · have := hs.tags
    rw [show (Vehicle.tag : Vehicle → List Byte) = Prod.fst ∘ fun v : Vehicle => (v.tag, v.openTicket) from rfl] at this ⊢
    rwa [hv]
  · have hm : (v.tag, v.openTicket) ∈ s.vehicles.map fun v => (v.tag, v.openTicket) := by
      rw [← h.vehicles]; exact List.mem_map.2 ⟨v, hvm, rfl⟩
    obtain ⟨w, hw, e⟩ := List.mem_map.1 hm
    obtain ⟨e1, e2⟩ := Prod.mk.inj e
    obtain ⟨k, hk, hkn, hkt⟩ := hs.linked w hw n (e2.trans hn)
    have hkm : (k.number, k.tag) ∈ t.tickets.map fun k => (k.number, k.tag) := by
      rw [h.tickets]; exact List.mem_map.2 ⟨k, hk, rfl⟩
    obtain ⟨k', hk', e'⟩ := List.mem_map.1 hkm
    obtain ⟨e1', e2'⟩ := Prod.mk.inj e'
    exact ⟨k', hk', e1'.trans hkn, (e2'.trans hkt).trans e1⟩

/-- A property of the tables that a step may be asked to keep: the table law by itself, or with the registry law. -/
def Tables (registry : Prop) (s : State) : Prop := TableLaw s ∧ (registry → RegistryLaw s)

variable {registry : Prop} {s t : State}

theorem Tables.congr (hs : Tables registry s) (h : SameTables s t) : Tables registry t :=
  ⟨hs.1.congr h, fun r => (hs.2 r).congr h⟩

theorem Tables.quiet (hs : Tables registry s) (h : Quiet s t) : Tables registry t := hs.congr h.sameTables

/-- Fewer lots are in order too (R20). -/
theorem Tables.filterLots (p : Lot → Bool) (hs : Tables registry s) :
    Tables registry { s with lots := s.lots.filter p } :=
  ⟨⟨hs.1.1.sublist (List.filter_sublist.map _), hs.1.2⟩, fun r => ⟨(hs.2 r).tags, (hs.2 r).room, (hs.2 r).linked⟩⟩

/-- Fewer vehicles are a registry too (R69). -/
theorem Tables.filterVehicles (p : Vehicle → Bool) (hs : Tables registry s) :
    Tables registry { s with vehicles := s.vehicles.filter p } := by
  refine ⟨hs.1, fun r => ⟨?_, ⟨?_, (hs.2 r).room.2⟩, fun v hv n hn => ?_⟩⟩
  · exact (hs.2 r).tags.sublist (List.filter_sublist.map _)
  · exact (List.length_filter_le _ _).trans (hs.2 r).room.1
  · exact (hs.2 r).linked v (List.mem_filter.1 hv).1 n hn

/-! ### Lots that are created -/

/-- The numbers of a table into which a record has been put. -/
theorem mem_insertLot {l m : Lot} {ls : List Lot} : m ∈ insertLot l ls ↔ m = l ∨ m ∈ ls := by
  induction ls with
  | nil => simp [insertLot]
  | cons x xs ih =>
    unfold insertLot
    split
    · simp
    · simp only [List.mem_cons, ih]; tauto

theorem insertLot_sorted {l : Lot} {ls : List Lot} (h : (ls.map Lot.no).Pairwise (· < ·)) (hl : l.no ∉ ls.map Lot.no) :
    ((insertLot l ls).map Lot.no).Pairwise (· < ·) := by
  induction ls with
  | nil => simp [insertLot]
  | cons x xs ih =>
    simp only [List.map_cons, List.pairwise_cons, List.mem_cons, not_or] at h hl
    unfold insertLot
    split
    · next hx =>
      simp only [List.map_cons, List.pairwise_cons, List.mem_cons]
      refine ⟨?_, h⟩
      rintro n (rfl | hn)
      · exact hx
      · exact hx.trans (h.1 n hn)
    · next hx =>
      simp only [List.map_cons, List.pairwise_cons]
      refine ⟨fun n hn => ?_, ih h.2 hl.2⟩
      obtain ⟨m, hm, rfl⟩ := List.mem_map.1 hn
      rcases mem_insertLot.1 hm with rfl | hm
      · exact lt_of_le_of_ne (not_lt.1 hx) (Ne.symm hl.1)
      · exact h.1 _ (List.mem_map.2 ⟨m, hm, rfl⟩)

theorem State.lot?_eq_none {n : Nat} : s.lot? n = none ↔ n ∉ s.lots.map Lot.no := by
  simp [State.lot?]

/-- The number of a lot that a binding creates is not in use (R1, R4). -/
theorem State.bindCheck_created {g : Grade} {kg n : Nat} {k : LotKind} (h : s.bindCheck g kg = .created n k) :
    s.lot? n = none := by
  unfold State.bindCheck at h
  split at h
  · split at h
    · split_ifs at h
    · split_ifs at h with hl
      cases h
      have hlen : (s.lots.map Lot.no).length < 513 := by
        rw [List.length_map]; unfold Config.maxLots at hl; omega
      exact State.lot?_eq_none.2 (firstFree_not_mem _ hlen (by decide))
  · split at h
    · split_ifs at h
    · next hn => split_ifs at h; cases h; exact hn

theorem bindTo_tables {g : Grade} {kg : Nat} {r : BindResult} (c : GrainClass) (hr : s.bindCheck g kg = r)
    (hs : Tables registry s) : Tables registry (s.bindTo r c kg) := by
  unfold State.bindTo
  extract_lets s1
  have h1 : Tables registry s1 := by
    unfold s1
    split
    · exact ⟨⟨insertLot_sorted hs.1.1 (State.lot?_eq_none.1 (State.bindCheck_created hr)), hs.1.2⟩,
        fun k => ⟨(hs.2 k).tags, (hs.2 k).room, (hs.2 k).linked⟩⟩
    · exact hs
  exact h1.congr (modLot_sameTickets _ _ _ fun l => by exact Lot.sizeCheck_no _ _).sameTables

theorem assign_tables {t : Ticket} {g : Grade} {b : BinNo} {r : BindResult} (hr : s.bindCheck g (s.estimate t) = r)
    (hs : Tables registry s) : Tables registry (s.assign t g b r) := by
  refine (bindTo_tables g.cls hr hs).congr
    (SameTables.trans ?_ (modTicket_sameTables _ _ _ (fun _ => by rfl) fun _ => by rfl))
  unfold State.reserve
  split
  · exact .refl _
  · exact (setBin_sameTickets _ _ _).sameTables

/-! ### Tickets that leave -/

/-- The record of a number in a table with no number twice. -/
theorem TableLaw.ticket_unique (h : TableLaw s) {t u : Ticket} (ht : t ∈ s.tickets) (hu : u ∈ s.tickets)
    (e : t.number = u.number) : t = u :=
  List.inj_on_of_nodup_map (h.2.imp ne_of_lt) ht hu e

theorem TableLaw.lot_unique (h : TableLaw s) {l m : Lot} (hl : l ∈ s.lots) (hm : m ∈ s.lots) (e : l.no = m.no) : l = m :=
  List.inj_on_of_nodup_map (h.1.imp ne_of_lt) hl hm e

/-- A ticket leaves, and its vehicle has no open ticket then (R78, R80). -/
theorem removeTicket_tables {t : Ticket} (ht : t ∈ s.tickets) (hs : Tables registry s) :
    Tables registry (s.removeTicket t) := by
  refine ⟨⟨hs.1.1, hs.1.2.sublist (List.filter_sublist.map _)⟩, fun r => ?_⟩
  have hr := hs.2 r
  have hsame : (s.removeTicket t).vehicles.map Vehicle.tag = s.vehicles.map Vehicle.tag := by
    simp only [State.removeTicket, State.modVehicle, List.map_map]
    refine List.map_congr_left fun v _ => ?_
    by_cases h : v.tag = t.tag <;> simp [h]
  refine ⟨by rw [hsame]; exact hr.tags, ⟨?_, ?_⟩, fun v hv n hn => ?_⟩
  · simpa [State.removeTicket, State.modVehicle] using hr.room.1
  · exact (List.length_filter_le _ _).trans hr.room.2
  · obtain ⟨w, hw, rfl⟩ := List.mem_map.1 hv
    split at hn
    · cases hn
    · next hne =>
      obtain ⟨k, hk, hkn, hkt⟩ := hr.linked w hw n hn
      refine ⟨k, List.mem_filter.2 ⟨hk, ?_⟩, hkn, by rw [if_neg hne]; exact hkt⟩
      rw [bne_iff_ne]
      intro e
      exact hne (by rw [← hkt, hs.1.ticket_unique hk ht e])

/-- The ticket's close is its leaving, after changes to the bins and its lot (R78). -/
theorem closeTicket_removes (s : State) (t : Ticket) (tare : Nat) :
    ∃ u, s.closeTicket t tare = u.removeTicket t ∧ SameTickets s u := by
  unfold State.closeTicket
  split
  · exact ⟨s, rfl, .refl s⟩
  · next a _ =>
    extract_lets net grain who s1 s2
    have h1 : SameTickets s s1 := by
      unfold s1
      split
      · exact .refl s
      · split
        · next u hu => exact (deposit_sameTickets s hu).trans (raiseIf_sameTickets _ _ _)
        · exact .refl s
    exact ⟨_, rfl, (h1.trans (modLot_sameTickets _ _ _ fun l => Lot.credit_no _ _ _ _ _ l)).trans
      (release_sameTickets _ _ _)⟩

/-- The void of a ticket is its leaving, after changes to its bin and its lot (R80). -/
theorem voidTicket_removes (s : State) (t : Ticket) :
    ∃ u, s.voidTicket t = u.removeTicket t ∧ SameTickets s u := by
  unfold State.voidTicket
  extract_lets s1
  refine ⟨s1, rfl, ?_⟩
  unfold s1
  split
  · exact .refl s
  · exact (release_sameTickets s _ _).trans (modLot_sameTickets _ _ _ fun _ => by rfl)

/-- A ticket leaves after changes that keep the tables. -/
theorem Tables.remove {u : State} {t : Ticket} (h : SameTickets s u) (ht : t ∈ s.tickets) (hs : Tables registry s) :
    Tables registry (u.removeTicket t) :=
  removeTicket_tables (by rw [h.tickets]; exact ht) (hs.congr h.sameTables)

theorem closeTicket_tables {t : Ticket} (tare : Nat) (ht : t ∈ s.tickets) (hs : Tables registry s) :
    Tables registry (s.closeTicket t tare) := by
  obtain ⟨u, e, h⟩ := closeTicket_removes s t tare
  rw [e]; exact hs.remove h ht

theorem voidTicket_tables {t : Ticket} (ht : t ∈ s.tickets) (hs : Tables registry s) :
    Tables registry (s.voidTicket t) := by
  obtain ⟨u, e, h⟩ := voidTicket_removes s t
  rw [e]; exact hs.remove h ht

/-- An expiry is a close or a void, with its record and its flag (R79). -/
theorem expireTicket_removes (s : State) (t : Ticket) :
    ∃ u v, SameTickets s u ∧ u.removeTicket t = v ∧ SameTickets v (s.expireTicket t) := by
  unfold State.expireTicket
  by_cases hd : t.state = .dumped
  · obtain ⟨u, e, h⟩ := closeTicket_removes s t (s.tareNow t.tag).1
    refine ⟨u, _, h, e.symm, .trans ?_ (Quiet.raise _ _).sameTickets⟩
    rw [if_pos hd]; exact ⟨rfl, rfl, rfl⟩
  · obtain ⟨u, e, h⟩ := voidTicket_removes s t
    refine ⟨u, _, h, e.symm, .trans ?_ (Quiet.raise _ _).sameTickets⟩
    rw [if_neg hd]; exact ⟨rfl, rfl, rfl⟩

theorem expireTicket_tables {t : Ticket} (ht : t ∈ s.tickets) (hs : Tables registry s) :
    Tables registry (s.expireTicket t) := by
  obtain ⟨u, v, h, rfl, k⟩ := expireTicket_removes s t
  exact (hs.remove h ht).congr k.sameTables

/-- The tickets that an expiry leaves (R79). -/
theorem expireTicket_tickets (s : State) (t : Ticket) :
    (s.expireTicket t).tickets = s.tickets.filter fun u => u.number != t.number := by
  obtain ⟨u, v, h, rfl, k⟩ := expireTicket_removes s t
  rw [k.tickets, State.removeTicket, State.modVehicle_tickets, h.tickets]

/-- Expiries one after another, of tickets with different numbers: each is still open when its turn comes (R79). -/
theorem foldl_expire_induction {P : State → Prop} (step : ∀ s t, t ∈ s.tickets → P s → P (s.expireTicket t))
    {ts : List Ticket} (hd : ts.Pairwise fun t u => t.number ≠ u.number) (hm : ∀ t ∈ ts, t ∈ s.tickets) (hs : P s) :
    P (ts.foldl (fun u t => u.expireTicket t) s) := by
  induction ts generalizing s with
  | nil => exact hs
  | cons t ts ih =>
    rw [List.pairwise_cons] at hd
    refine ih hd.2 (fun u hu => ?_) (step s t (hm t List.mem_cons_self) hs)
    rw [expireTicket_tickets, List.mem_filter, bne_iff_ne]
    exact ⟨hm u (List.mem_cons_of_mem _ hu), (hd.1 u hu).symm⟩

/-- The overdue tickets expire, each while it is still open (R79). -/
theorem expireOverdue_induction {P : State → Prop} (step : ∀ s t, t ∈ s.tickets → P s → P (s.expireTicket t))
    (ht : TableLaw s) (hs : P s) : P s.expireOverdue := by
  have hd : s.tickets.Pairwise fun t u => t.number ≠ u.number := (List.pairwise_map.1 ht.2).imp ne_of_lt
  exact foldl_expire_induction step (hd.sublist List.filter_sublist) (fun t h => (List.mem_filter.1 h).1) hs

theorem expireOverdue_tables (hs : Tables registry s) : Tables registry s.expireOverdue :=
  expireOverdue_induction (fun _ _ ht h => expireTicket_tables ht h) hs.1 hs

/-! ### Tickets that are opened -/

theorem mem_insertTicket {t u : Ticket} {ts : List Ticket} : u ∈ insertTicket t ts ↔ u = t ∨ u ∈ ts := by
  induction ts with
  | nil => simp [insertTicket]
  | cons x xs ih =>
    unfold insertTicket
    split
    · simp
    · simp only [List.mem_cons, ih]; tauto

theorem insertTicket_length (t : Ticket) (ts : List Ticket) : (insertTicket t ts).length = ts.length + 1 := by
  induction ts with
  | nil => rfl
  | cons x xs ih => unfold insertTicket; split <;> simp [ih]

theorem insertTicket_sorted {t : Ticket} {ts : List Ticket} (h : (ts.map Ticket.number).Pairwise (· < ·))
    (ht : t.number ∉ ts.map Ticket.number) : ((insertTicket t ts).map Ticket.number).Pairwise (· < ·) := by
  induction ts with
  | nil => simp [insertTicket]
  | cons x xs ih =>
    simp only [List.map_cons, List.pairwise_cons, List.mem_cons, not_or] at h ht
    unfold insertTicket
    split
    · next hx =>
      simp only [List.map_cons, List.pairwise_cons, List.mem_cons]
      refine ⟨?_, h⟩
      rintro n (rfl | hn)
      · exact hx
      · exact hx.trans (h.1 n hn)
    · next hx =>
      simp only [List.map_cons, List.pairwise_cons]
      refine ⟨fun n hn => ?_, ih h.2 ht.2⟩
      obtain ⟨m, hm, rfl⟩ := List.mem_map.1 hn
      rcases mem_insertTicket.1 hm with rfl | hm
      · exact lt_of_le_of_ne (not_lt.1 hx) (Ne.symm ht.1)
      · exact h.1 _ (List.mem_map.2 ⟨m, hm, rfl⟩)

/-- A weigh-in takes a number that no open ticket has (R70). -/
theorem nextTicketNo_not_mem (h : s.tickets.length < Config.maxTickets) :
    s.nextTicketNo ∉ s.tickets.map Ticket.number := by
  refine firstFree_not_mem _ ?_ (by decide)
  rw [List.length_map]; unfold Config.maxTickets at h; omega

/-- The entry that a full registry retires is one of its own, and there is one unless all have open tickets (R68). -/
theorem retiree_spec (vs : List Vehicle) :
    (∀ v, retiree vs = some v → v ∈ vs) ∧ (retiree vs = none → ∀ v ∈ vs, v.openTicket.isSome = true) := by
  induction vs using List.reverseRecOn with
  | nil => simp [retiree]
  | append_singleton vs w ih =>
    have hstep : retiree (vs ++ [w]) = if w.openTicket.isSome then retiree vs else
        match retiree vs with
        | none => some w
        | some x => if w.lastSeen < x.lastSeen then some w else some x := by
      simp only [retiree, List.foldl_append, List.foldl_cons, List.foldl_nil]
      cases vs.foldl _ none <;> rfl
    obtain ⟨h1, h2⟩ := ih
    rw [hstep]
    by_cases hw : w.openTicket.isSome = true
    · rw [if_pos hw]
      refine ⟨fun v hv => List.mem_append_left _ (h1 v hv), fun hn v hv => ?_⟩
      rcases List.mem_append.1 hv with hv | hv
      · exact h2 hn v hv
      · rw [List.mem_singleton.1 hv]; exact hw
    · rw [if_neg hw]
      cases hx : retiree vs with
      | none => simp
      | some x =>
        have hm := h1 x hx
        dsimp only
        split_ifs <;> simp [hm]

/-- As many entries have an open ticket as there are open tickets, at most (R68, R71). -/
theorem RegistryLaw.open_le (h : RegistryLaw s) :
    (s.vehicles.filter fun v => v.openTicket.isSome).length ≤ s.tickets.length := by
  have hnd : ((s.vehicles.filter fun v => v.openTicket.isSome).map Vehicle.tag).Nodup :=
    h.tags.sublist (List.filter_sublist.map _)
  have hsub : (s.vehicles.filter fun v => v.openTicket.isSome).map Vehicle.tag ⊆ s.tickets.map Ticket.tag := by
    intro tag htag
    obtain ⟨v, hv, rfl⟩ := List.mem_map.1 htag
    obtain ⟨hv, ho⟩ := List.mem_filter.1 hv
    obtain ⟨n, hn⟩ := Option.isSome_iff_exists.1 ho
    obtain ⟨k, hk, _, e⟩ := h.linked v hv n hn
    exact List.mem_map.2 ⟨k, hk, e⟩
  simpa using (List.subperm_of_subset hnd hsub).length_le

/-- A full registry has an entry to retire (R68). -/
theorem RegistryLaw.retiree_isSome (h : RegistryLaw s) (hf : Config.maxVehicles ≤ s.vehicles.length) :
    ∃ w, retiree s.vehicles = some w ∧ w ∈ s.vehicles := by
  cases hr : retiree s.vehicles with
  | some w => exact ⟨w, rfl, (retiree_spec _).1 w hr⟩
  | none =>
    have hall := (retiree_spec _).2 hr
    have hl := h.open_le
    rw [List.filter_eq_self.2 hall] at hl
    have := h.room.2
    unfold Config.maxVehicles at hf
    unfold Config.maxTickets at this
    omega

/-- The vehicles that a registration leaves beside the one registered. -/
structure Registered (s : State) (tag : List Byte) (vs : List Vehicle) : Prop where
  tags : (vs.map Vehicle.tag).Nodup
  room : vs.length ≤ Config.maxVehicles
  others : ∀ v ∈ vs, v.tag ≠ tag → v ∈ s.vehicles

theorem register_registered (h : RegistryLaw s) (tag : List Byte) (c : Fin 4) :
    Registered s tag (s.register tag c).vehicles := by
  unfold State.register
  split
  · have hsame := (modVehicle_sameTables s tag (fun v => { v with cls := c, lastSeen := s.terminalTime })
      (fun _ => by rfl) fun _ => by rfl)
    refine ⟨(h.congr hsame).tags, (h.congr hsame).room.1, fun v hv hne => ?_⟩
    obtain ⟨w, hw, rfl⟩ := List.mem_map.1 hv
    split at hne
    · next e => exact absurd e hne
    · next e => rw [if_neg e]; exact hw
  · next hn =>
    dsimp only
    have hnew : ∀ v ∈ s.vehicles, v.tag ≠ tag := by
      simpa [State.vehicle?] using hn
    suffices hk : ∀ kept : List Vehicle, kept.Sublist s.vehicles → kept.length < Config.maxVehicles →
        ∀ w : Vehicle, w.tag = tag → Registered s tag (kept ++ [w]) by
      split
      · next hl => exact hk _ (List.Sublist.refl _) hl _ rfl
      · next hl =>
        obtain ⟨w, hw, hm⟩ := h.retiree_isSome (not_lt.1 hl)
        rw [hw]
        refine hk _ List.filter_sublist ?_ _ rfl
        have hroom := h.room.1
        have : (s.vehicles.filter fun v => v.tag != w.tag).length < s.vehicles.length :=
          List.length_filter_lt_length_iff_exists.2 ⟨w, hm, by simp⟩
        omega
    intro kept hsub hlen w hw
    refine ⟨?_, by simpa using hlen, fun v hv hne => ?_⟩
    · rw [List.map_append, List.nodup_append]
      refine ⟨h.tags.sublist (hsub.map _), by simp, ?_⟩
      simp only [List.map_cons, List.map_nil, List.mem_singleton, forall_eq, hw]
      rintro a ha rfl
      obtain ⟨v, hv, e⟩ := List.mem_map.1 ha
      exact hnew v (hsub.subset hv) e
    · rcases List.mem_append.1 hv with hv | hv
      · exact hsub.subset hv
      · rw [List.mem_singleton.1 hv] at hne; exact absurd hw hne

/-- A registration touches neither the lots nor the tickets. -/
theorem register_frame (s : State) (tag : List Byte) (c : Fin 4) :
    (s.register tag c).lots = s.lots ∧ (s.register tag c).tickets = s.tickets := by
  unfold State.register; split <;> exact ⟨rfl, rfl⟩

theorem openTicket_tables {c : ChannelNo} {cls : Fin 4} {w : WeighIn} (hl : s.tickets.length < Config.maxTickets)
    (hs : Tables registry s) : Tables registry (s.openTicket c cls w) := by
  obtain ⟨el, et⟩ := register_frame s w.tag cls
  have hlots : (s.openTicket c cls w).lots = s.lots := el
  have htick : (s.openTicket c cls w).tickets = insertTicket (s.newTicket c w) s.tickets := by
    rw [← et]; rfl
  refine ⟨⟨by rw [hlots]; exact hs.1.1, by
    rw [htick]; exact insertTicket_sorted hs.1.2 (nextTicketNo_not_mem hl)⟩, fun r => ?_⟩
  have hr := register_registered (hs.2 r) w.tag cls
  have hveh : (s.openTicket c cls w).vehicles = (s.register w.tag cls).vehicles.map fun v =>
      if v.tag = w.tag then { v with openTicket := some s.nextTicketNo } else v := rfl
  refine ⟨?_, ⟨?_, ?_⟩, fun v hv n hn => ?_⟩
  · rw [hveh, List.map_map, List.map_congr_left (g := Vehicle.tag)]
    · exact hr.tags
    · intro v _
      by_cases e : v.tag = w.tag <;> simp [e]
  · rw [hveh, List.length_map]; exact hr.room
  · rw [htick, insertTicket_length]; exact hl
  · rw [hveh] at hv
    rw [htick]
    obtain ⟨x, hx, rfl⟩ := List.mem_map.1 hv
    by_cases e : x.tag = w.tag
    · rw [if_pos e] at hn ⊢
      cases hn
      exact ⟨_, mem_insertTicket.2 (.inl rfl), rfl, e.symm⟩
    · rw [if_neg e] at hn ⊢
      obtain ⟨k, hk, h1, h2⟩ := (hs.2 r).linked x (hr.others x hx e) n hn
      exact ⟨k, mem_insertTicket.2 (.inr hk), h1, h2⟩

/-! ### The operations -/

theorem returnTicket_sameTables (s : State) (t : Ticket) : SameTables s (s.returnTicket t) := by
  unfold State.returnTicket
  split
  · exact .refl s
  · next a _ =>
    dsimp only
    have h1 := ((release_sameTickets s a.dest (.ticket t.number)).trans
      (modLot_sameTickets _ a.lot (Lot.unbind a.estimate) fun _ => by rfl)).sameTables
    exact (h1.trans (modTicket_sameTables _ _ _ (fun _ => by rfl) fun _ => by rfl)).trans (Quiet.raise _ _).sameTables

theorem imposeHold_sameTables (s : State) (b : BinNo) (h : BinHold) : SameTables s (s.imposeHold b h) := by
  unfold State.imposeHold
  extract_lets old s1 s2
  have h1 : SameTables s s1 := (setBin_sameTickets s b _).sameTables.trans (holdEntries_quiet _ b).sameTables
  exact (h1.trans (.foldl returnTicket_sameTables _ _)).trans (endTransfers_quiet _ _).sameTables

theorem storeTare_sameTables (s : State) (tag : List Byte) (kg : Nat) : SameTables s (s.storeTare tag kg) :=
  modVehicle_sameTables s _ _ (fun _ => by rfl) fun _ => by rfl

theorem seen_sameTables (s : State) (tag : List Byte) : SameTables s (s.seen tag) :=
  modVehicle_sameTables s _ _ (fun _ => by rfl) fun _ => by rfl

theorem IntakeOperation.tables {t : State} (h : IntakeOperation s t) (hs : Tables registry s) : Tables registry t := by
  cases h with
  | closeReceivingLots =>
    exact hs.congr (mapLots_sameTickets s fun l => by split <;> rfl).sameTables
  | closeLot n => exact hs.congr (modLot_sameTickets s n _ fun _ => by rfl).sameTables
  | holdLot n h => exact hs.congr (modLot_sameTickets s n _ fun _ => by rfl).sameTables
  | amendLot a => exact hs.congr (modLot_sameTickets s _ _ fun _ => by rfl).sameTables
  | retireLot n l _ _ => exact hs.filterLots _
  | setLotSize size => exact hs.congr (checkSizes_sameTickets s _).sameTables
  | setBinSettings b x =>
    exact (hs.congr (t := s.setBinSet b x) ⟨rfl, rfl, rfl⟩).congr (noteOverfull_sameTickets _ _ _).sameTables
  | replaceHold b h _ => exact hs.congr (setBin_sameTickets s _ _).sameTables
  | imposeHold b h _ => exact hs.congr (imposeHold_sameTables s b h)
  | liftHold b =>
    refine hs.congr ?_
    unfold State.liftHold
    dsimp only
    split
    · exact ((setBin_sameTickets s b _).trans (tryDischarge_quiet _).sameTickets).sameTables
    · exact (setBin_sameTickets s b _).sameTables
  | sweep b _ _ =>
    refine hs.congr (SameTickets.sameTables ?_)
    unfold State.sweep
    exact (SameTickets.foldl (fun u (l : Layer) => modLot_sameTickets u _ (Lot.writeOff l.kg) fun _ => rfl) _ s).trans
      (setBin_sameTickets _ _ _)
  | setChannel c x p =>
    exact (hs.congr (t := s.setChannel c x) ⟨rfl, rfl, rfl⟩).congr (raiseIf_sameTickets _ _ _).sameTables
  | setScale c y x => exact hs.congr ⟨by rfl, by rfl, by rfl⟩
  | openTicket c cls w _ hl => exact openTicket_tables hl hs
  | gradeTicket t g _ _ _ => exact hs.congr (modTicket_sameTables s _ _ (fun _ => by rfl) fun _ => by rfl)
  | gradeNoSpace t g p _ _ _ =>
    exact hs.congr ((modTicket_sameTables s _ _ (fun _ => by rfl) fun _ => by rfl).trans (raiseIf_sameTickets _ _ _).sameTables)
  | gradeAndAssign st t g b r u _ _ _ hu _ hr _ =>
    subst hu
    exact assign_tables hr (hs.congr (modTicket_sameTables s _ _ (fun _ => by rfl) fun _ => by rfl))
  | assign st t g b r _ _ _ _ hr _ => exact assign_tables hr hs
  | dump t _ _ => exact hs.congr (modTicket_sameTables s _ _ (fun _ => by rfl) fun _ => by rfl)
  | dumpAndClose t tare r ht _ =>
    have h1 := modTicket_sameTables s t.number (fun u => { u with state := .dumped }) (fun _ => by rfl) fun _ => by rfl
    obtain ⟨u, e, h⟩ := closeTicket_removes (s.modTicket t.number fun u => { u with state := .dumped }) t tare
    have hd : { t with state := .dumped } ∈ u.tickets := by
      rw [h.tickets]
      exact List.mem_map.2 ⟨t, ht, by simp⟩
    have h2 := removeTicket_tables hd ((hs.congr h1).congr h.sameTables)
    rw [e]
    exact Tables.congr (s := u.removeTicket t) h2 ⟨rfl, rfl, rfl⟩
  | storeTare tag kg => exact hs.congr ((storeTare_sameTables s tag kg).trans (seen_sameTables _ tag))
  | weighOut tag t kg r ht _ =>
    have h1 : Tables registry { s.closeTicket t kg with lastClosed := some r } :=
      (closeTicket_tables kg ht hs).congr ⟨rfl, rfl, rfl⟩
    exact (h1.congr (storeTare_sameTables _ tag kg)).congr (seen_sameTables _ tag)
  | reject tag t r ht _ =>
    have h1 : Tables registry { s.voidTicket t with lastClosed := some r } :=
      (voidTicket_tables ht hs).congr ⟨rfl, rfl, rfl⟩
    exact h1.congr (seen_sameTables _ tag)
  | void t r ht _ => exact (voidTicket_tables ht hs).congr ⟨by rfl, by rfl, by rfl⟩
  | forgetVehicle v _ _ => exact hs.filterVehicles _
  | expire t ht => exact expireTicket_tables ht hs
  | setIntake x =>
    unfold State.setIntake
    extract_lets old s1
    have h1 : Tables registry s1 := hs.congr ⟨by rfl, by rfl, by rfl⟩
    split
    · exact expireOverdue_tables h1
    · exact h1

/-! ### The dryer's operations -/

theorem setDryer_tables {d : Dryer} (hs : Tables registry s) : Tables registry (s.setDryer d) :=
  hs.congr (setDryer_sameTickets s d).sameTables

theorem endSchedule_quiet (s : State) (n : EntryNo) (e : Entry) (abort : Bool) : Quiet s (s.endSchedule n e abort) := by
  unfold State.endSchedule
  extract_lets s1
  have h1 : Quiet s s1 := by
    unfold s1; split
    · exact .refl s
    · exact endEntry_quiet s n _
  split
  · exact h1.trans (endTransfers_quiet _ _)
  · exact h1

theorem charge_sameTickets (s : State) (c : Charge) (tank dest : BinNo) (i : Identity) :
    SameTickets s (s.charge c tank dest i) := by
  unfold State.charge
  extract_lets plan need r s1 s2
  have h1 : SameTickets s s1 :=
    (draw_sameTickets s tank _).trans (.foldl (fun t p => modLot_sameTickets t _ Lot.addPortion fun _ => by rfl) _ _)
  exact (h1.trans (reserve_quiet s1 dest rfl i need _).sameTickets).trans (setDryer_sameTickets _ _)

theorem postShrink_sameTickets (s : State) (n : Nat) (x : Shrink) : SameTickets s (s.postShrink n x) :=
  modLot_sameTickets s n _ fun l => by split <;> rfl

theorem dryBatch_sameTickets (s : State) (b : Batch) (reported : Nat) : SameTickets s (s.dryBatch b reported) := by
  unfold State.dryBatch
  extract_lets set outlet dried s1 s2
  have h1 : SameTickets s s1 := (raiseIf_sameTickets s _ _).trans (raiseIf_sameTickets _ _ _)
  have h2 : SameTickets s s2 := h1.trans (.foldl (fun t r => postShrink_sameTickets t _ _) _ _)
  exact (h2.trans (setDryer_sameTickets _ _)).trans (Quiet.raise _ _).sameTickets

theorem warmUpExpired_sameTickets (s : State) : SameTickets s s.warmUpExpired := by
  unfold State.warmUpExpired; split
  · split
    · exact setDryer_sameTickets s _
    · exact (setDryer_sameTickets s _).trans (Quiet.raise _ _).sameTickets
  · exact .refl s

theorem dryingExpired_sameTickets (s : State) : SameTickets s s.dryingExpired := by
  unfold State.dryingExpired; split
  · split
    · exact .refl s
    · exact (setDryer_sameTickets s _).trans (Quiet.raise _ _).sameTickets
  · exact .refl s

theorem reportTemperature_sameTickets (s : State) (b : BinNo) (z : Int) : SameTickets s (s.reportTemperature b z) := by
  have h1 : SameTickets s (s.takeReading b z) := (setBin_sameTickets s b _).trans (evaluateHot_quiet _ b).sameTickets
  have h2 : SameTickets s ((s.takeReading b z).freshen b) := h1.trans (setBin_sameTickets _ b _)
  unfold State.reportTemperature
  dsimp only
  split
  · exact h2.trans (examine_quiet _).sameTickets
  · exact h2

theorem staleExpired_sameTickets (s : State) (b : BinNo) : SameTickets s (s.staleExpired b) := by
  unfold State.staleExpired; dsimp only; split
  · exact ((setBin_sameTickets s b _).trans (Quiet.raise _ _).sameTickets).trans (examine_quiet _).sameTickets
  · exact .refl s

theorem TransferOperation.sameTickets {t : State} (h : TransferOperation s t) : SameTickets s t := by
  cases h with
  | warmUp r _ => exact setDryer_sameTickets s _
  | setStop v => exact setDryer_sameTickets s _
  | stopDryer _ => exact setDryer_sameTickets s _
  | charge st c tank dest i _ _ => exact charge_sameTickets s c tank dest i
  | batchDried b reported _ _ => exact (dryBatch_sameTickets s b reported).trans (tryDischarge_quiet _).sameTickets
  | discharge stop _ => exact (setDryer_sameTickets s _).trans (tryDischarge_quiet _).sameTickets
  | suspendDryer _ => exact setDryer_sameTickets s _
  | faultDryer _ _ =>
    exact ((setDryer_sameTickets s _).trans (Quiet.raise _ _).sameTickets).trans (endTransfers_quiet _ _).sameTickets
  | clearFault _ => exact setDryer_sameTickets s _
  | setDryerSettings x _ => exact ⟨rfl, rfl, rfl⟩
  | warmUpExpired => exact warmUpExpired_sameTickets s
  | dryingExpired => exact dryingExpired_sameTickets s
  | setStaging l x => exact (Quiet.setLeg s l _).sameTickets
  | launchStaged l x _ => exact (launchStaged_quiet s l x).sameTickets
  | flowReport l t kg _ _ => exact flowReport_sameTickets s l t kg
  | abort l k => exact (endTransfers_quiet s _).sameTickets
  | markClean l _ => exact (Quiet.setLeg s l _).sameTickets
  | setCleanout l time => exact ⟨rfl, rfl, rfl⟩
  | cleanoutDone l => exact (cleanoutDone_quiet s l).sameTickets
  | reportTemperature b z => exact reportTemperature_sameTickets s b z
  | setSchedule n r a b l _ _ _ => exact ((Quiet.setEntry s n _).trans (examine_quiet _)).sameTickets
  | endSchedule n e abort _ => exact (endSchedule_quiet s n e abort).sameTickets
  | setRotation x => exact ⟨rfl, rfl, rfl⟩
  | staleExpired b => exact staleExpired_sameTickets s b

/-! ### The berths' operations -/

theorem orderChanged_quiet (s : State) (k : BerthNo) : Quiet s (s.orderChanged k) := by
  unfold State.orderChanged; dsimp only; split
  · split
    · exact .refl s
    · exact .setBerth s (.trans ⟨rfl, rfl, rfl, rfl, rfl⟩ (Berth.settleReady_sameCargo _))
  · exact settleReady_quiet s k

theorem releaseBarge_sameTickets (s : State) (k : BerthNo) : SameTickets s (s.releaseBarge k) := by
  unfold State.releaseBarge
  exact (SameTickets.foldl (fun t (e : Manifested) => modLot_sameTickets t e.lot Lot.dropManifest fun _ => rfl) _ s).trans
    (setBerth_sameTickets _ _ _)

/-- A change of a berth's line, with its flag and what it brings about (R147). -/
theorem lineChanged_sameTickets (s : State) (k : BerthNo) (x : Berth) (f : Flag) (lost : Bool) (cause : HaltCause) :
    SameTickets s (((s.setBerth k x).raise f).conditionChanged k lost cause) :=
  ((setBerth_sameTickets s k x).trans (Quiet.raise _ f).sameTickets).trans (conditionChanged_quiet _ k _ _).sameTickets

theorem BerthOperation.sameTickets {t : State} (h : BerthOperation s t) : SameTickets s t := by
  cases h with
  | acceptBarge k g _ => exact (setBerth_sameTickets s k _).trans (recomputeLimit_quiet _ k).sameTickets
  | setOrder k o _ _ => exact (setBerth_sameTickets s k _).trans (orderChanged_quiet _ k).sameTickets
  | setPlan k qs _ _ _ => exact (setBerth_sameTickets s k _).trans (orderChanged_quiet _ k).sameTickets
  | setEnable k on => exact (setBerth_sameTickets s k _).trans (conditionChanged_quiet _ k _ _).sameTickets
  | commandSpout k n select _ _ _ => exact (setBerth_sameTickets s k _).trans (settleReady_quiet _ k).sameTickets
  | spoutArrived k n _ =>
    exact ((setBerth_sameTickets s k _).trans (raiseIf_sameTickets _ _ _)).trans (settleReady_quiet _ k).sameTickets
  | spoutExpired k =>
    unfold State.spoutExpired; dsimp only; split
    · exact ((setBerth_sameTickets s k _).trans (Quiet.raise _ _).sameTickets).trans (settleReady_quiet _ k).sameTickets
    · exact .refl s
  | resumeBerth k _ _ => exact (completionTest_quiet s k).sameTickets
  | releaseBarge k _ _ => exact releaseBarge_sameTickets s k
  | readStage z => exact SameTickets.trans (by exact ⟨rfl, rfl, rfl⟩) (recomputeLimits_quiet _).sameTickets
  | riverExpired =>
    unfold State.riverExpired; split
    · exact SameTickets.trans (by exact ⟨rfl, rfl, rfl⟩) (recomputeLimits_quiet _).sameTickets
    · exact .refl s
  | setRiver x =>
    unfold State.setRiver; dsimp only; split
    · exact ⟨rfl, rfl, rfl⟩
    · exact SameTickets.trans (by exact ⟨rfl, rfl, rfl⟩) (recomputeLimits_quiet _).sameTickets
  | presentChanged k v =>
    unfold State.presentChanged; split
    · exact .refl s
    · exact lineChanged_sameTickets s k _ _ _ _
  | mooredChanged k v =>
    unfold State.mooredChanged; split
    · exact .refl s
    · exact lineChanged_sameTickets s k _ _ _ _
  | buttonPressed k =>
    unfold State.buttonPressed; split
    · exact .refl s
    · exact (setBerth_sameTickets s k _).trans (Quiet.raise _ _).sameTickets
  | buttonReleased k => exact setBerth_sameTickets s k _

/-! ### Starts -/

theorem setBank_sameTickets (s : State) (b : Fin 2) (x : Bank) : SameTickets s (s.setBank b x) := by
  unfold State.setBank; split <;> exact ⟨rfl, rfl, rfl⟩

theorem abandonCommit_sameTickets (s : State) : SameTickets s s.abandonCommit := by
  unfold State.abandonCommit; split
  · exact .refl s
  · dsimp only; split
    · exact SameTickets.trans (by exact ⟨rfl, rfl, rfl⟩) (setBank_sameTickets _ _ _)
    · exact ⟨rfl, rfl, rfl⟩

theorem loadSettings_sameTickets (s : State) : SameTickets s s.loadSettings := by
  unfold State.loadSettings; split <;> exact ⟨rfl, rfl, rfl⟩

theorem readLines_sameTickets (s : State) (p : Pins) : SameTickets s (s.readLines p) := ⟨rfl, rfl, rfl⟩

theorem warmRecords_sameTables (s : State) (p : Pins) : SameTables s (s.warmRecords p) := by
  unfold State.warmRecords
  extract_lets s1 sized s2
  have h1 : SameTables s s1 := (resetTransfers_quiet s).sameTables.trans (setDryer_sameTickets _ _).sameTables
  have h2 : SameTables s1 s2 := by
    refine ⟨?_, ?_, rfl⟩
    · exact (checkSizes_sameTickets s1 s1.settings).lots
    · simp [s2, State.carryTicket]
  have h3 : SameTables s2 (s2.readLines p) := (readLines_sameTickets s2 p).sameTables
  exact ((h1.trans h2).trans h3).trans (Quiet.foldl (fun t k => recomputeLimit_quiet t k) _ _).sameTables

theorem completeWarm_tables (stale : List BinNo) (berths : List BerthNo) (hs : Tables registry s) :
    Tables registry (s.completeWarm stale berths) := by
  unfold State.completeWarm
  have h1 : SameTickets s.expireOverdue (stale.foldl (fun t b => t.staleNow b) s.expireOverdue) :=
    .foldl (fun t b => (setBin_sameTickets t b _).trans (Quiet.raise _ _).sameTickets) _ _
  refine (((expireOverdue_tables hs).congr h1.sameTables).quiet (.foldl (fun t k => ?_) _ _)).quiet (examine_quiet _)
  exact .raise t _

theorem warmStart_tables (p : Pins) (hs : Tables registry s) : Tables registry (s.warmStart p) := by
  unfold State.warmStart
  extract_lets s2 s3 s5
  have h2 : Tables registry s2 :=
    hs.congr ((abandonCommit_sameTickets s).trans (loadSettings_sameTickets _)).sameTables
  have h3 : Tables registry s3 :=
    (h2.congr (warmRecords_sameTables s2 p)).congr (t := (s2.warmRecords p).beginRun .warm) ⟨rfl, rfl, rfl⟩
  have h5 : Tables registry s5 := by
    have h4 : Tables registry (s3.clearAllFlags.raise flagStartWarm) := h3.congr ⟨rfl, rfl, rfl⟩
    exact h4.quiet (.raiseIf _ _ _)
  exact completeWarm_tables _ _ h5

/-- A cold start empties the tables. -/
theorem coldStart_tables (s : State) (p : Pins) : Tables registry (s.coldStart p) := by
  have h : ∀ t : State, t.lots = [] → t.tickets = [] → t.vehicles = [] → Tables registry t := by
    intro t hl ht hv
    refine ⟨⟨by simp [hl], by simp [ht]⟩, fun _ => ⟨by simp [hv], by simp [hv, ht], by simp [hv]⟩⟩
  unfold State.coldStart
  extract_lets s2 cold s3
  have h3 : Tables registry ((s3.readLines p).clearAllFlags.enableAll.raise flagStartCold) := h _ rfl rfl rfl
  exact h3.quiet (.raiseIf _ _ _)

theorem losePower_sameTickets (s : State) : SameTickets s s.losePower :=
  (abandonCommit_sameTickets s).trans (by exact ⟨rfl, rfl, rfl⟩)

theorem SystemOperation.tables {t : State} (h : SystemOperation s t) (hs : Tables registry s) : Tables registry t := by
  cases h with
  | unchanged => exact hs
  | raise f => exact hs.quiet (.raise s f)
  | lower g m => exact hs.congr ⟨rfl, rfl, rfl⟩
  | setEnables g m => exact hs.congr ⟨rfl, rfl, rfl⟩
  | setStation n x _ => exact hs.congr ⟨rfl, rfl, rfl⟩
  | dropStation n x _ =>
    have h1 : Tables registry (s.setStation n x) := hs.congr ⟨rfl, rfl, rfl⟩
    exact h1.quiet (dropStagings_quiet _ n)
  | beginCommit _ => exact hs.congr ⟨rfl, rfl, rfl⟩
  | commitEnds =>
    refine hs.congr ?_
    unfold State.commitEnds; split
    · exact .refl s
    · exact (setBank_sameTickets s _ _).sameTables.trans ⟨rfl, rfl, rfl⟩
  | commitFails =>
    refine hs.congr ?_
    unfold State.commitFails; split
    · exact .refl s
    · exact (setBank_sameTickets s _ _).sameTables.trans ⟨rfl, rfl, rfl⟩
  | setTime time => exact hs.congr ⟨rfl, rfl, rfl⟩
  | resetPart _ => exact hs.congr ⟨rfl, rfl, rfl⟩
  | assertEstop =>
    refine hs.congr (SameTickets.sameTables ?_)
    unfold State.assertEstop; split
    · exact .refl s
    · exact SameTickets.trans (t := { s with estop := true, dryer := s.dryer.stopped }) ⟨rfl, rfl, rfl⟩
        ((stopLegs_quiet _).trans (endTransfers_quiet _ _)).sameTickets
  | releaseEstop => exact hs.congr ⟨rfl, rfl, rfl⟩
  | releaseReset => exact hs.congr ⟨rfl, rfl, rfl⟩
  | setBackupLost level => exact hs.congr ⟨rfl, rfl, rfl⟩
  | losePower => exact hs.congr (losePower_sameTickets s).sameTables
  | warmStart p => exact warmStart_tables p hs
  | warmReturn p => exact warmStart_tables p (hs.congr (losePower_sameTickets s).sameTables)
  | coldReturn p => exact coldStart_tables _ p

theorem Operation.tables {t : State} (h : Operation s t) (hs : Tables registry s) : Tables registry t := by
  cases h with
  | intake h => exact h.tables hs
  | transfer h => exact hs.congr h.sameTickets.sameTables
  | berth h => exact hs.congr h.sameTickets.sameTables
  | system h => exact h.tables hs

/-- A second that passes leaves the tables (R191). -/
theorem tick_sameTickets (s : State) : SameTickets s s.tick := by
  unfold State.tick; split <;> exact ⟨rfl, rfl, rfl⟩

theorem step_tables {t : State} (h : step s = .next t) : Tables registry s → Tables registry t :=
  step_keeps h (fun _ hs => hs.congr ⟨rfl, rfl, rfl⟩) (fun hs => hs.congr (tick_sameTickets s).sameTables)
    (fun _ _ _ hs => hs.congr ⟨rfl, rfl, rfl⟩) fun _ _ ho hs => ho.tables hs

/-- Settles O9: every operation keeps both tables in order, by itself and with the registry law. -/
theorem everyStepKeepsTheTablesInOrder : Obligations.EveryStepKeepsTheTablesInOrder := by
  intro s t hs h
  have ht : TableLaw t := (step_tables (registry := False) h ⟨hs, False.elim⟩).1
  exact ⟨ht, fun hr => (step_tables (registry := True) h ⟨hs, fun _ => hr⟩).2 trivial⟩

end Sys2Proof.Machine
end

section
/-! PROOFS. The rules of the lot table and of the event flags, and the requests that need no more: Accept Barge, Release
Barge, and the settings and time. -/

namespace Sys2Proof.Machine

/-! ### What a lot's number finds -/

section LotTable
variable (s : State)

/-- A number finds the same lot in states with the same lot table. -/
theorem State.lot?_congr {s t : State} (h : t.lots = s.lots) (n : Nat) : t.lot? n = s.lot? n := by
  unfold State.lot?; rw [h]

theorem Quiet.lot? {s t : State} (h : Quiet s t) (n : Nat) : t.lot? n = s.lot? n :=
  State.lot?_congr (by rw [h.frame]) n

/-- What every number finds after a change of one lot. -/
theorem State.lot?_modLot (n : Nat) (g : Lot → Lot) (hg : ∀ l, (g l).no = l.no) (m : Nat) :
    (s.modLot n g).lot? m = (s.lot? m).map fun l => if m = n then g l else l := by
  by_cases h : m = n
  · subst h; simp [State.lot?_modLot_same s m g hg]
  · simp [State.lot?_modLot_other s g hg h, h]

/-- What every number finds after a change of every lot. -/
theorem State.lot?_mapLots {t : State} (g : Lot → Lot) (hg : ∀ l, (g l).no = l.no) (h : t.lots = s.lots.map g) (m : Nat) :
    t.lot? m = (s.lot? m).map g := by
  unfold State.lot?
  rw [h, List.find?_map]
  congr 1
  exact congrArg (List.find? · s.lots) (funext fun l => by simp [hg])

/-- What every number finds after changes of lots one after another: the changes of its own, in their order. -/
theorem State.lot?_foldl_modLot {α : Type} (xs : List α) (key : α → Nat) (g : α → Lot → Lot)
    (hg : ∀ a l, (g a l).no = l.no) (n : Nat) :
    (xs.foldl (fun t a => t.modLot (key a) (g a)) s).lot? n =
      (s.lot? n).map fun l => (xs.filter fun a => key a == n).foldl (fun m a => g a m) l := by
  induction xs generalizing s with
  | nil => simp
  | cons a xs ih =>
    rw [List.foldl_cons, ih, State.lot?_modLot s _ _ (hg a), Option.map_map]
    congr 1
    funext l
    by_cases h : key a = n
    · simp [h]
    · simp [h, Ne.symm h]

end LotTable

/-- Counted figures of a lot, one for each change of a list. -/
theorem foldl_dropManifest {α : Type} (xs : List α) (l : Lot) :
    xs.foldl (fun m _ => Lot.dropManifest m) l = { l with manifestRefs := l.manifestRefs - xs.length } := by
  induction xs generalizing l with
  | nil => rfl
  | cons a xs ih => rw [List.foldl_cons, ih]; simp [Lot.dropManifest, Nat.sub_sub, Nat.add_comm]

theorem foldl_dropLayer {α : Type} (xs : List α) (l : Lot) :
    xs.foldl (fun m _ => Lot.dropLayer m) l = { l with layerCount := l.layerCount - xs.length } := by
  induction xs generalizing l with
  | nil => rfl
  | cons a xs ih => rw [List.foldl_cons, ih]; simp [Lot.dropLayer, Nat.sub_sub, Nat.add_comm]

theorem foldl_addPortion {α : Type} (xs : List α) (l : Lot) :
    xs.foldl (fun m _ => Lot.addPortion m) l = { l with portionCount := l.portionCount + xs.length } := by
  induction xs generalizing l with
  | nil => rfl
  | cons a xs ih => rw [List.foldl_cons, ih]; simp [Lot.addPortion, Nat.add_right_comm, ← Nat.add_assoc]

/-! ### Event flags -/

section Flags
variable (s : State)

/-- A flag after another has been raised (R182). -/
theorem State.flag_raise (f g : Flag) : (s.raise f).flag g = (decide (g = f) || s.flag g) := by
  obtain ⟨fg, fb⟩ := f
  obtain ⟨gg, gb⟩ := g
  unfold State.flag State.raise
  by_cases h : gg = fg
  · subst h
    by_cases hb : gb = fb
    · subst hb; simp [Flag.mask]
    · have hv : gb.val ≠ fb.val := fun e => hb (Fin.ext e)
      have hw : (gb : Nat) = fb → False := hv
      simp [Flag.mask, hb]
      exact fun e => (hw e).elim
  · have hn : ¬ (Flag.mk gg gb = Flag.mk fg fb) := fun e => h (congrArg Flag.group e)
    simp [State.group_setGroup_other s h, hn]

theorem State.flag_raiseIf (c : Bool) (f g : Flag) :
    (s.raiseIf c f).flag g = (c && decide (g = f) || s.flag g) := by
  unfold State.raiseIf
  cases c
  · simp
  · simp [State.flag_raise]

/-- A flag is the same in states with the same event groups. -/
theorem State.flag_congr {s t : State} (h : t.events = s.events) (f : Flag) : t.flag f = s.flag f := by
  unfold State.flag State.group; rw [h]

end Flags

/-! ### Accept Barge and Release Barge -/

/-- The load limit as R58 and R59 say it. -/
theorem loadLimitOf_eq (set : RiverSettings) (r : River) (g : Barge) :
    loadLimitOf set r g =
      let stage := if r.stale = true then r.stage - set.staleMargin else r.stage
      let allowed : Int := min g.maxDraft (set.channelDepth + stage - set.clearance)
      if r.known = true ∧ (g.lightDraft : Int) < allowed then (allowed - g.lightDraft).toNat * g.tpc else 0 := by
  unfold loadLimitOf stageUsed
  cases r.known <;> simp

/-- Of two changes of one berth the later stands. -/
theorem State.setBerth_setBerth (s : State) (k : BerthNo) (x y : Berth) :
    (s.setBerth k x).setBerth k y = s.setBerth k y := by
  unfold State.setBerth; simp

/-- An empty barge at a berth, with its load limit (R149). -/
theorem acceptBarge_eq (s : State) (k : BerthNo) (g : Barge) :
    s.acceptBarge k g = s.setBerth k { (s.berth k).cleared .assigned (some g) with
      loadLimit := loadLimitOf s.settings.river s.river g } := by
  unfold State.acceptBarge State.recomputeLimit
  rw [State.berth_setBerth_same]
  simp [Berth.cleared, Cargo.zero, Berth.settleReady, Berth.readyConditions, State.setBerth_setBerth]

theorem releaseBarge_lot? (s : State) (k : BerthNo) (n : Nat) :
    (s.releaseBarge k).lot? n = (s.lot? n).map fun l =>
      { l with manifestRefs := l.manifestRefs - ((s.berth k).manifest.filter fun e => e.lot == n).length } := by
  unfold State.releaseBarge
  rw [State.lot?_congr (State.setBerth_lots _ _ _),
    State.lot?_foldl_modLot s _ Manifested.lot (fun _ => Lot.dropManifest) fun _ _ => rfl]
  simp only [foldl_dropManifest]

/-- Changes of lots leave everything else. -/
theorem foldl_modLot_frame {α : Type} (xs : List α) (key : α → Nat) (g : α → Lot → Lot) (s : State) :
    xs.foldl (fun t a => t.modLot (key a) (g a)) s =
      { s with lots := (xs.foldl (fun t a => t.modLot (key a) (g a)) s).lots } := by
  induction xs generalizing s with
  | nil => rfl
  | cons a xs ih => rw [List.foldl_cons, ih]; rfl

/-- Settles O51. -/
theorem bargesAreAcceptedAndReleased : Obligations.BargesAreAcceptedAndReleased := by
  unfold Obligations.BargesAreAcceptedAndReleased
  refine ⟨?accept, ?release⟩
  case accept =>
    intro s f k g h hd hname h1 h2 h3 h4 h5 h6 h7 river stage allowed limit
    have hr : g.inRange = true := by
      simp [Barge.inRange, within, h1, h2, h3, h4, h5, h6, h7]; exact hname
    have hl : loadLimitOf s.settings.river s.river g = limit := loadLimitOf_eq _ _ _
    refine (answered_of_heard (act := actAcceptBarge) h hd).trans ?_
    unfold actAcceptBarge
    rw [index_val]
    by_cases hv : (s.berth k).state = .vacant
    · simp [unlessFails, firstFailure, hr, hv, accept, acceptBarge_eq, hl, Berth.cleared, Cargo.zero]
    · simp [unlessFails, firstFailure, hr, hv, refuse]
  case release =>
    intro s f k h hd b
    have hx : exec (.releaseBarge f) s = answered 0x87#8 f (actReleaseBarge f.station k.val s).1
      (actReleaseBarge f.station k.val s).2 := answered_of_heard h hd
    rw [hx]
    unfold actReleaseBarge
    rw [index_val]
    refine ⟨fun hv => ?_, fun hv hc => ?_, fun hv hc => ?_⟩
    · simp [unlessFails, firstFailure, refuse, show (s.berth k).state = .vacant from hv]
    · have : (s.berth k).claim.isSome = true := Option.isSome_iff_ne_none.2 hc
      simp [unlessFails, firstFailure, refuse, show (s.berth k).state ≠ .vacant from hv, this]
    · have hv' : ((s.berth k).state == .vacant) = false := by simpa using hv
      have hc' : (s.berth k).claim.isSome = false := by rw [show (s.berth k).claim = none from hc]; rfl
      refine ⟨s.releaseBarge k, by simp [unlessFails, firstFailure, hv', hc', accept, encodeFinalCargo, b], ?_, ?_, ?_,
        releaseBarge_lot? s k⟩
      · unfold State.releaseBarge
        dsimp only
        rw [foldl_modLot_frame]
        rfl
      · unfold State.releaseBarge; simp [Berth.cleared, Cargo.zero, b]
      · intro j hj
        unfold State.releaseBarge
        dsimp only
        rw [State.berth_setBerth_other _ hj, foldl_modLot_frame]
        rfl

/-! ### The settings and time -/

theorem State.bank_setBank (s : State) (b c : Fin 2) (x : Bank) :
    (s.setBank b x).bank c = if c = b then x else s.bank c := by
  unfold State.bank State.setBank
  fin_cases b <;> fin_cases c <;> rfl

/-- A bank that has been set is all that has changed. -/
theorem State.setBank_frame (s : State) (b : Fin 2) (x : Bank) :
    s.setBank b x = { s with bank0 := (s.setBank b x).bank0, bank1 := (s.setBank b x).bank1 } := by
  unfold State.setBank; split <;> rfl

theorem Bank.written_good (g : Nat) (x : Settings) : (Bank.written g x).good = true := by
  simp [Bank.good, Bank.written]

/-- A bank whose write did not come to its end is bad: no word is its own complement. -/
theorem Bank.spoilt_bad (g : Nat) (x : Settings) : (Bank.spoilt g x).good = false := by
  simp [Bank.good, Bank.spoilt]

/-- The generation of the next commit (R189). -/
theorem wrapNext_generation (n : Nat) : wrapNext Config.maxGeneration n = if n < 4294967295 then n + 1 else 1 := rfl

theorem commitEnds_writing {s : State} {b : Fin 2} {g : Nat} {x : Settings} (h : s.commit = .writing b g x) :
    s.commitEnds = ({ s.setBank b (Bank.written g x) with
      currentBank := some b, commit := .idle, commitResult := some .done }).raise flagCommitDone := by
  unfold State.commitEnds; rw [h]

theorem commitFails_writing {s : State} {b : Fin 2} {g : Nat} {x : Settings} (h : s.commit = .writing b g x) :
    s.commitFails = ({ s.setBank b (Bank.spoilt g x) with
      commit := .idle, commitResult := some .failed }).raise flagCommitFailed := by
  unfold State.commitFails; rw [h]

/-- An event while main power is on. -/
theorem State.whenPowered_on {s : State} (h : s.powered = true) (effect : State → State) :
    s.whenPowered effect = effect s := by
  unfold State.whenPowered; rw [if_pos h]

/-- Settles O57. -/
theorem settingsAreCommittedAndTimeIsSet : Obligations.SettingsAreCommittedAndTimeIsSet := by
  unfold Obligations.SettingsAreCommittedAndTimeIsSet
  refine ⟨fun s f h => ⟨?size, fun hp => ⟨fun hc => ?busy, fun hc => ?idle⟩, fun time hd => answered_of_act h hd rfl⟩,
    fun s hon => ⟨fun hc => ?none, fun b g x hc => ⟨?done, ?failed⟩⟩⟩
  case size =>
    intro size hd h1 h2 hc
    refine answered_of_act h hd ?_
    have hw : within 20000 5000000 size = true := by simp [within, h1, h2]
    simp [actSetLotSize, unlessFails, firstFailure, hw, State.committing_eq_false.2 hc, accept, State.checkSizes,
      State.wouldClose, Lot.isOpenReceiving, Lot.sizeCheck]
  case busy =>
    have hb : s.committing = true := by simpa using mt State.committing_eq_false.1 hc
    exact ⟨answered_of_act h (decodeNothing_nil hp) (by simp [actCommitSettings, unlessFails, firstFailure, hb, refuse]),
      answered_of_act h (decodeNothing_nil hp) (by simp [actResetPart, unlessFails, firstFailure, hb, refuse])⟩
  case idle =>
    have hb := State.committing_eq_false.2 hc
    refine ⟨answered_of_act h (decodeNothing_nil hp) ?_,
      answered_of_act h (decodeNothing_nil hp) (by simp [actResetPart, unlessFails, firstFailure, hb, accept])⟩
    simp [actCommitSettings, unlessFails, firstFailure, hb, accept, State.otherBank, wrapNext_generation]
  case none =>
    have hd : s.commitEnds = s := by unfold State.commitEnds; rw [hc]
    have hf : s.commitFails = s := by unfold State.commitFails; rw [hc]
    exact ⟨congrArg Host.Outcome.next ((State.whenPowered_on hon _).trans hd),
      congrArg Host.Outcome.next ((State.whenPowered_on hon _).trans hf)⟩
  case done =>
    refine ⟨s.commitEnds, congrArg Host.Outcome.next (State.whenPowered_on hon _), ?_⟩
    rw [commitEnds_writing hc]
    have hb (c : Fin 2) : (({ s.setBank b (Bank.written g x) with
        currentBank := some b, commit := .idle, commitResult := some .done }).raise flagCommitDone).bank c =
        if c = b then Bank.written g x else s.bank c := s.bank_setBank b c _
    refine ⟨?_, by rw [hb, if_pos rfl]; rfl, by rw [hb, if_pos rfl]; rfl,
      by rw [hb, if_pos rfl]; exact Bank.written_good g x, fun c hne => by rw [hb, if_neg hne], State.flag_raise_same _ _⟩
    rw [State.setBank_frame]
    rfl
  case failed =>
    refine ⟨s.commitFails, congrArg Host.Outcome.next (State.whenPowered_on hon _), ?_⟩
    rw [commitFails_writing hc]
    have hb (c : Fin 2) : (({ s.setBank b (Bank.spoilt g x) with
        commit := .idle, commitResult := some .failed }).raise flagCommitFailed).bank c =
        if c = b then Bank.spoilt g x else s.bank c := s.bank_setBank b c _
    refine ⟨?_, by rw [hb, if_pos rfl]; exact Bank.spoilt_bad g x, fun c hne => by rw [hb, if_neg hne],
      State.flag_raise_same _ _⟩
    rw [State.setBank_frame]
    rfl

end Sys2Proof.Machine
end

section
/-! PROOFS. The ticket's operations: the deposit and the release of its reservation, the close, the void, the expiry,
Forget Vehicle, and the assignment (R31, R33, R69, R73 to R80). -/

namespace Sys2Proof.Machine

/-! ### The deposit -/

section Deposit
variable (s : State)

/-- A piece of grain as a layer of its own. -/
def Portion.layer (p : Portion) : Layer :=
  { lot := p.lot, kg := p.kg, moisture := p.moisture, testWeight := p.testWeight }

/-- The bin after a deposit that merges into its top layer. -/
def Bin.merge (x : Bin) (rest : List Layer) (top : Layer) (p : Portion) : Bin :=
  { x with layers := rest ++ [{ top with kg := top.kg + p.kg }] }

/-- The bin after a deposit that makes a layer, with one of the holder's slots used. -/
def Bin.stack (x : Bin) (who : HolderRef) (p : Portion) : Bin :=
  { x.modHolder who fun h => { h with slots := h.slots - 1 } with layers := x.layers ++ [p.layer] }

theorem Layer.merges_iff {top : Layer} {p : Portion} :
    top.merges p = true ↔ top.lot = p.lot ∧ top.moisture = p.moisture ∧ top.testWeight = p.testWeight := by
  simp [Layer.merges, and_assoc]

theorem deposit_newLayer_eq (b : BinNo) (who : HolderRef) (p : Portion) (x : Bin) (full : Bool) (u : State) :
    State.deposit.newLayer b who p s x full = some u ↔
      ∃ h, x.held who = some h ∧ h.slots ≠ 0 ∧
        u = ((s.setBin b (x.stack who p)).modLot p.lot Lot.addLayer).noteOverfull full b := by
  unfold State.deposit.newLayer
  cases x.held who with
  | none => simp
  | some h =>
    by_cases hs : h.slots = 0
    · simp [hs]
    · simp only [hs, if_false, Option.some.injEq, exists_eq_left', ne_eq, not_false_eq_true, true_and]
      exact eq_comm

/-- What a deposit does: the grain joins the top layer, which takes it, or makes a layer in a slot of the holder
(R33). -/
theorem deposit_cases {b : BinNo} {who : HolderRef} {p : Portion} {fromTop : Bool} {u : State}
    (h : s.deposit b who p fromTop = some u) :
    (∃ rest top, (s.bin b).layers = rest ++ [top] ∧ top.merges p = true ∧ fromTop = false ∧
      u = (s.setBin b ((s.bin b).merge rest top p)).noteOverfull (s.overfull b) b) ∨
    ∃ h, (s.bin b).held who = some h ∧ h.slots ≠ 0 ∧
      u = ((s.setBin b ((s.bin b).stack who p)).modLot p.lot Lot.addLayer).noteOverfull (s.overfull b) b := by
  unfold State.deposit at h
  dsimp only at h
  split at h
  · next top ht =>
    split at h
    · next hm =>
      obtain ⟨hm, hf⟩ := Bool.and_eq_true_iff.1 hm
      have hl : (s.bin b).layers = (s.bin b).layers.dropLast ++ [top] :=
        (List.dropLast_append_getLast? top (by rw [ht]; rfl)).symm
      exact .inl ⟨_, top, hl, hm, by simpa using hf, (Option.some.inj h).symm⟩
    · exact .inr ((deposit_newLayer_eq s b who p _ _ u).1 h)
  · exact .inr ((deposit_newLayer_eq s b who p _ _ u).1 h)

/-- A deposit for a holder with a slot is made (R33). -/
theorem deposit_isSome {b : BinNo} {who : HolderRef} {h : Holder} (hw : (s.bin b).held who = some h) (hs : 1 ≤ h.slots)
    (p : Portion) (fromTop : Bool) : ∃ u, s.deposit b who p fromTop = some u := by
  have hn : ∃ u, State.deposit.newLayer b who p s (s.bin b) (s.overfull b) = some u :=
    ⟨_, (deposit_newLayer_eq s b who p _ _ _).2 ⟨h, hw, by omega, rfl⟩⟩
  unfold State.deposit
  dsimp only
  split
  · split
    · exact ⟨_, rfl⟩
    · exact hn
  · exact hn

/-- What a deposit leaves: the grain in the bin, in the layers of its lot, and nothing else but the bin's OVERFULL. -/
structure Deposited (s u : State) (b : BinNo) (p : Portion) : Prop where
  frame : u = { s with lots := u.lots, bins := u.bins, events := u.events }
  contents : (u.bin b).contents = (s.bin b).contents + p.kg
  moisture : ((u.bin b).layers.map fun x => x.kg * x.moisture).sum =
    ((s.bin b).layers.map fun x => x.kg * x.moisture).sum + p.kg * p.moisture
  longer : (s.bin b).layers.length ≤ (u.bin b).layers.length
  holders : (u.bin b).holders.map Holder.who = (s.bin b).holders.map Holder.who
  others : ∀ c, c ≠ b → u.bin c = s.bin c
  lots : ∀ n, u.lot? n = (s.lot? n).map fun l =>
    if n = p.lot then { l with layerCount := l.layerCount + ((u.bin b).layers.length - (s.bin b).layers.length) } else l

theorem modFirst_who (who : HolderRef) (f : Holder → Holder) (hf : ∀ h, (f h).who = h.who) (hs : List Holder) :
    (modFirst who f hs).map Holder.who = hs.map Holder.who := by
  induction hs with
  | nil => rfl
  | cons h rest ih =>
    unfold modFirst
    split
    · simp [hf]
    · simp [ih]

theorem raiseIf_frame (c : Bool) (f : Flag) : s.raiseIf c f = { s with events := (s.raiseIf c f).events } := by
  unfold State.raiseIf; split <;> rfl

theorem Deposited.raiseIf {u : State} {b : BinNo} {p : Portion} (h : Deposited s u b p) (c : Bool) (f : Flag) :
    Deposited s (u.raiseIf c f) b p := by
  generalize he : u.raiseIf c f = w
  have hw : w = { u with events := w.events } := by rw [← he]; exact raiseIf_frame u c f
  have hl (n : Nat) : w.lot? n = u.lot? n := State.lot?_congr (by rw [hw]) n
  have hb (d : BinNo) : w.bin d = u.bin d := by rw [hw]; rfl
  refine ⟨?_, by rw [hb]; exact h.contents, by rw [hb]; exact h.moisture, by rw [hb]; exact h.longer,
    by rw [hb]; exact h.holders, fun d hd => by rw [hb]; exact h.others d hd, fun n => by rw [hl, hb]; exact h.lots n⟩
  calc w = { u with events := w.events } := hw
    _ = { s with lots := u.lots, bins := u.bins, events := w.events } :=
      congrArg (fun x : State => { x with events := w.events }) h.frame
    _ = { s with lots := w.lots, bins := w.bins, events := w.events } := by rw [hw]

/-- A deposit that is made leaves the grain where it was put (R33). -/
theorem deposited {b : BinNo} {who : HolderRef} {p : Portion} {fromTop : Bool} {u : State}
    (h : s.deposit b who p fromTop = some u) : Deposited s u b p := by
  rcases deposit_cases s h with ⟨rest, top, hl, hm, -, rfl⟩ | ⟨h, -, -, rfl⟩
  · obtain ⟨-, hm, -⟩ := Layer.merges_iff.1 hm
    refine Deposited.raiseIf s (u := s.setBin b ((s.bin b).merge rest top p)) ⟨rfl, ?_, ?_, ?_, ?_, ?_, ?_⟩ _ _
    · simp [Bin.merge, Bin.contents, hl, Nat.add_assoc]
    · simp [Bin.merge, hl, Nat.add_mul, Nat.add_assoc, hm]
    · simp [Bin.merge, hl]
    · simp [Bin.merge]
    · exact fun c hc => s.bin_setBin_other hc _
    · intro n
      rw [State.bin_setBin_same, show (s.setBin b ((s.bin b).merge rest top p)).lot? n = s.lot? n from rfl, hl]
      simp [Bin.merge]
  · refine Deposited.raiseIf s (u := (s.setBin b ((s.bin b).stack who p)).modLot p.lot Lot.addLayer)
      ⟨rfl, ?_, ?_, ?_, ?_, ?_, ?_⟩ _ _
    all_goals simp only [show ∀ c, ((s.setBin b ((s.bin b).stack who p)).modLot p.lot Lot.addLayer).bin c =
      (s.setBin b ((s.bin b).stack who p)).bin c from fun _ => rfl, State.bin_setBin_same]
    · simp [Bin.stack, Bin.contents, Portion.layer]
    · simp [Bin.stack, Portion.layer]
    · simp [Bin.stack]
    · exact modFirst_who _ _ (fun _ => by rfl) _
    · exact fun c hc => s.bin_setBin_other hc _
    · intro n
      rw [State.lot?_modLot _ _ _ fun _ => by rfl]
      simp [Bin.stack, Lot.addLayer]
      rfl

end Deposit

/-! ### Leaving the ticket table -/

section Leave
variable (s : State)

theorem Bin.reevaluate_layers (x : Bin) : x.reevaluate.layers = x.layers := by unfold Bin.reevaluate; split <;> rfl

theorem Bin.reevaluate_holders (x : Bin) : x.reevaluate.holders = x.holders := by unfold Bin.reevaluate; split <;> rfl

/-- A bin whose class has been re-evaluated (R27). -/
theorem Bin.reevaluate_eq (x : Bin) : x.reevaluate =
    { x with identity := if x.layers = [] ∧ x.holders = [] ∧ x.claim = none then none else x.identity } := by
  unfold Bin.reevaluate; split <;> rfl

/-- Every bin after a release (R31). -/
theorem bin_release (b : BinNo) (who : HolderRef) (c : BinNo) :
    (s.release b who).bin c = if c = b then
      { s.bin b with holders := (s.bin b).holders.filter fun h => h.who != who }.reevaluate else s.bin c :=
  s.bin_setBin b _ c

/-- Takes a ticket out of the table. -/
theorem removeTicket_eq (t : Ticket) : s.removeTicket t = { s with
    tickets := s.tickets.filter fun x => x.number != t.number
    vehicles := s.vehicles.map fun v => if v.tag = t.tag then { v with openTicket := none } else v } := rfl

/-- The void of a ticket with an assignment. -/
theorem voidTicket_assigned {t : Ticket} {a : Assignment} (h : t.assignment = some a) :
    s.voidTicket t = ((s.release a.dest (.ticket t.number)).modLot a.lot (Lot.unbind a.estimate)).removeTicket t := by
  unfold State.voidTicket; rw [h]

/-- The void of a ticket without an assignment. -/
theorem voidTicket_unassigned {t : Ticket} (h : t.assignment = none) : s.voidTicket t = s.removeTicket t := by
  unfold State.voidTicket; rw [h]

end Leave

/-- Settles O36. -/
theorem ticketsAreVoidedAndVehiclesForgotten : Obligations.TicketsAreVoidedAndVehiclesForgotten := by
  unfold Obligations.TicketsAreVoidedAndVehiclesForgotten
  refine ⟨?void, ?assigned, ?unassigned, ?forget, ?expiry⟩
  case void =>
    intro s f n t h hd ht r
    constructor
    · intro hs
      exact answered_of_act h hd (by simp [actVoidTicket, ht, hs, unlessFails, firstFailure, refuse])
    · intro hs
      exact answered_of_act h hd (by simp [actVoidTicket, ht, hs, unlessFails, firstFailure, accept, r])
  case assigned =>
    intro s t a ha
    refine ⟨_, rfl, ?_, ?_, ?_, ?_, ?_, ?_, fun _ _ => by simp [Ticket.voided, ha]⟩
    all_goals rw [voidTicket_assigned s ha]
    · rfl
    · exact State.lot?_modLot_same _ _ _ fun _ => by rfl
    · exact (congrArg Bin.holders ((bin_release s a.dest _ a.dest).trans (if_pos rfl))).trans (Bin.reevaluate_holders _)
    · intro b
      refine (congrArg Bin.layers (bin_release s a.dest _ b)).trans ?_
      split
      · next e => rw [Bin.reevaluate_layers, e]
      · rfl
    · exact fun b hb => (bin_release s a.dest _ b).trans (if_neg hb)
    · exact fun k hk => State.lot?_modLot_other _ _ (fun _ => by rfl) hk
  case unassigned =>
    intro s t ha
    exact ⟨voidTicket_unassigned s ha, fun _ _ => by simp [Ticket.voided, ha]⟩
  case forget =>
    intro s f tag v h hd hv
    refine (answered_of_heard (act := actForgetVehicle) h hd).trans ?_
    unfold actForgetVehicle
    rw [hv]
    cases ho : v.openTicket <;> simp [unlessFails, firstFailure, ho, refuse, accept]
  case expiry =>
    intro s n hp
    refine ⟨fun hn => congrArg Host.Outcome.next ((State.whenPowered_on hp _).trans (by rw [hn])), fun t ht =>
      congrArg Host.Outcome.next ((State.whenPowered_on hp _).trans ?_)⟩
    rw [ht]
    show s.expireTicket t = _
    unfold State.expireTicket
    split <;> rfl

/-! ### The close of a ticket -/

section Close
variable (s : State)

/-- The size check decides the state alone (R12). -/
theorem Lot.sizeCheck_eq (size : Nat) (l : Lot) : l.sizeCheck size = { l with
    state := if l.kind = .receiving ∧ size ≤ l.received + l.pendingEstimate then .closed else l.state } := by
  unfold Lot.sizeCheck
  split_ifs with h1 h2 h2
  · rfl
  · exact absurd ⟨h1.1, h1.2.2⟩ h2
  · have hc : l.state = .closed := LotState.ne_opened.1 fun e => h1 ⟨h2.1, e, h2.2⟩
    rw [← hc]
  · rfl

/-- The close of a ticket whose net is above 0 and whose deposit is made (R78). -/
theorem closeTicket_deposits {t : Ticket} {a : Assignment} {tare : Nat} {v : State} (ha : t.assignment = some a)
    (hn : t.net tare ≠ 0)
    (hv : s.deposit a.dest (.ticket t.number) (t.grain a.lot (t.net tare)) false = some v) :
    s.closeTicket t tare =
      (((v.raiseIf (s.bin a.dest).hold.isSome flagHeldDeposit).modLot a.lot
        (Lot.credit (t.net tare) (t.grain a.lot (t.net tare)).moisture t.number a.estimate
          (v.raiseIf (s.bin a.dest).hold.isSome flagHeldDeposit).settings.lotSize)).release a.dest
        (.ticket t.number)).removeTicket t := by
  unfold State.closeTicket
  rw [ha]
  dsimp only
  rw [if_neg hn, hv]

/-- The close of a ticket whose net is not above 0 (R78). -/
theorem closeTicket_empty {t : Ticket} {a : Assignment} {tare : Nat} (ha : t.assignment = some a) (hn : t.net tare = 0) :
    s.closeTicket t tare =
      ((s.modLot a.lot (Lot.credit 0 (t.grain a.lot 0).moisture t.number a.estimate s.settings.lotSize)).release a.dest
        (.ticket t.number)).removeTicket t := by
  unfold State.closeTicket
  rw [ha]
  dsimp only
  rw [if_pos hn, hn]

/-- The lot's credit and the ticket's leaving, after a change of lots, bins and flags alone. -/
theorem settle_frame {w : State} (hw : w = { s with lots := w.lots, bins := w.bins, events := w.events }) (n : Nat)
    (g : Lot → Lot) (b : BinNo) (who : HolderRef) (t : Ticket) :
    let u := ((w.modLot n g).release b who).removeTicket t
    u = { s with lots := u.lots, bins := u.bins, tickets := s.tickets.filter fun x => x.number != t.number
                 vehicles := s.vehicles.map fun v => if v.tag = t.tag then { v with openTicket := none } else v
                 events := w.events } := by
  rw [hw]; rfl

theorem bin_settle (w : State) (n : Nat) (g : Lot → Lot) (b : BinNo) (who : HolderRef) (t : Ticket) (c : BinNo) :
    (((w.modLot n g).release b who).removeTicket t).bin c = if c = b then
      { w.bin b with holders := (w.bin b).holders.filter fun h => h.who != who }.reevaluate else w.bin c :=
  bin_release (w.modLot n g) b who c

theorem lot?_settle (w : State) (n : Nat) (g : Lot → Lot) (hg : ∀ l, (g l).no = l.no) (b : BinNo) (who : HolderRef)
    (t : Ticket) (m : Nat) :
    (((w.modLot n g).release b who).removeTicket t).lot? m = (w.lot? m).map fun l => if m = n then g l else l :=
  w.lot?_modLot n g hg m

end Close

/-- Settles O35. -/
theorem closingATicketDepositsItsNet : Obligations.ClosingATicketDepositsItsNet := by
  unfold Obligations.ClosingATicketDepositsItsNet
  constructor
  · intro s t a g l h tare ha hg hl hh hs hlt net u
    have hn : t.net tare ≠ 0 := by unfold Ticket.net; omega
    obtain ⟨v, hv⟩ := deposit_isSome s hh hs (t.grain a.lot net) false
    have hw := (deposited s hv).raiseIf s (s.bin a.dest).hold.isSome flagHeldDeposit
    have hu : u = _ := closeTicket_deposits s ha hn hv
    have hflag : (s.bin a.dest).hold.isSome = true →
        (v.raiseIf (s.bin a.dest).hold.isSome flagHeldDeposit).flag flagHeldDeposit = true := by
      intro e; rw [State.flag_raiseIf, e]; simp
    generalize v.raiseIf (s.bin a.dest).hold.isSome flagHeldDeposit = w at hw hu hflag
    have hno (l : Lot) := Lot.credit_no (t.net tare) (t.grain a.lot (t.net tare)).moisture t.number a.estimate
      w.settings.lotSize l
    have hbin (c : BinNo) : u.bin c = _ := (congrArg (State.bin · c) hu).trans (bin_settle w _ _ _ _ _ c)
    have hlot (n : Nat) : u.lot? n = _ := (congrArg (State.lot? · n) hu).trans (lot?_settle w _ _ hno _ _ _ n)
    have hlayers : (u.bin a.dest).layers = (w.bin a.dest).layers := by
      rw [hbin, if_pos rfl, Bin.reevaluate_layers]
    refine ⟨?_, ?_, ?_, ?_, ?_, ?_, ?_, ?_, ?_⟩
    · have := settle_frame s hw.frame a.lot (Lot.credit (t.net tare) (t.grain a.lot (t.net tare)).moisture t.number
        a.estimate w.settings.lotSize) a.dest (.ticket t.number) t
      rw [hu]; exact this
    · unfold Bin.contents at *; rw [hlayers]; exact hw.contents
    · rw [hlayers, hw.moisture]
      simp [Ticket.grain, hg]
    · rw [hbin, if_pos rfl, Bin.reevaluate_holders, ← hw.holders, List.filter_map]
      rfl
    · exact fun c hc => by rw [hbin, if_neg hc]; exact hw.others c hc
    · intro k hk
      rw [hlot, hw.lots]
      simp [Ticket.grain, hk]
    · rw [hlot, hw.lots, hl, hlayers]
      refine ⟨_, rfl, ?_⟩
      have := hw.longer
      simp [Lot.credit, Lot.unbind, Lot.sizeCheck_eq, Ticket.grain, hg, net, Ticket.net]
      omega
    · intro e
      rw [hu]
      exact hflag e
    · intro source outcome now
      simp [Ticket.settled, hn, ha, net]
      rfl
  · intro s t a l tare ha hl hle u left
    have hn : t.net tare = 0 := by unfold Ticket.net; omega
    have hu : u = _ := closeTicket_empty s ha hn
    have hno (l : Lot) := Lot.credit_no 0 (t.grain a.lot 0).moisture t.number a.estimate s.settings.lotSize l
    have hbin (c : BinNo) : u.bin c = _ := (congrArg (State.bin · c) hu).trans (bin_settle s _ _ _ _ _ c)
    have hlot (n : Nat) : u.lot? n = _ := (congrArg (State.lot? · n) hu).trans (lot?_settle s _ _ hno _ _ _ n)
    refine ⟨?_, ?_, ?_, ?_, ?_, ?_⟩
    · rw [hu]; rfl
    · rw [hbin, if_pos rfl, Bin.reevaluate_eq]
    · exact fun c hc => by rw [hbin, if_neg hc]
    · intro k hk
      rw [hlot]; simp [hk]
    · rw [hlot, hl]
      simp [Lot.credit, Lot.unbind, Lot.sizeCheck_eq]
    · intro source outcome now
      simp [Ticket.settled, hn, ha]

/-! ### The assignment -/

section Assign
variable (s : State)

/-- What a number finds after a lot of a new number has been put in. -/
theorem find?_insertLot {l : Lot} {ls : List Lot} (h : ls.find? (fun m => m.no == l.no) = none) (n : Nat) :
    (insertLot l ls).find? (fun m => m.no == n) = if n = l.no then some l else ls.find? fun m => m.no == n := by
  induction ls with
  | nil =>
    by_cases hn : n = l.no
    · simp [insertLot, hn]
    · simp [insertLot, hn, Ne.symm hn]
  | cons m rest ih =>
    have hm : m.no ≠ l.no := by intro e; simp [e] at h
    have hr : rest.find? (fun m => m.no == l.no) = none := by simpa [hm] using h
    unfold insertLot
    split
    · by_cases hn : n = l.no
      · simp [hn]
      · simp [hn, Ne.symm hn]
    · rw [List.find?_cons, ih hr, List.find?_cons]
      by_cases hn : n = l.no
      · have hb : (m.no == n) = false := by simpa [hn] using hm
        rw [hb, if_pos hn]
      · by_cases he : m.no = n <;> simp [he, hn]

/-- The lot a binding is made to, as it stands or as it is created. -/
def BindResult.base (s : State) (c : GrainClass) : BindResult → Option Lot
  | .created n kind => some (newLot n kind c)
  | r => s.lot? r.lot

/-- A lot after a binding (R3, R4, R12). -/
def Lot.bind (estimate size : Nat) (l : Lot) : Lot :=
  { l with pendingTickets := l.pendingTickets + 1, pendingEstimate := l.pendingEstimate + estimate }.sizeCheck size

theorem Lot.bind_no (kg size : Nat) (l : Lot) : (l.bind kg size).no = l.no := Lot.sizeCheck_no _ _

/-- What every number finds after a binding that the lot check has allowed (R1, R3, R4). -/
theorem lot?_bindTo {g : Grade} {kg : Nat} {r : BindResult} (c : GrainClass) (h : s.bindCheck g kg = r) (n : Nat) :
    (s.bindTo r c kg).lot? n =
      if n = r.lot then (r.base s c).map (Lot.bind kg s.settings.lotSize) else s.lot? n := by
  have key (t : State) : (t.modLot r.lot (Lot.bind kg s.settings.lotSize)).lot? n =
      if n = r.lot then (t.lot? n).map (Lot.bind kg s.settings.lotSize) else t.lot? n := by
    rw [State.lot?_modLot _ _ _ (Lot.bind_no _ _)]
    split <;> simp
  cases r with
  | created m kind =>
    refine (key { s with
      lots := insertLot (newLot m kind c) s.lots
      lastLot := if kind = LotKind.receiving then m else s.lastLot }).trans ?_
    have hf := find?_insertLot (l := newLot m kind c) (State.bindCheck_created h) n
    unfold State.lot?
    rw [hf]
    by_cases hn : n = m <;> simp [hn, BindResult.lot, BindResult.base, newLot]
  | found m =>
    refine (key s).trans ?_
    by_cases hn : n = m <;> simp [hn, BindResult.lot, BindResult.base]
  | refused code =>
    refine (key s).trans ?_
    by_cases hn : n = 0 <;> simp [hn, BindResult.lot, BindResult.base]

/-- A binding changes the lot table and the last lot number alone. -/
theorem bindTo_frame (r : BindResult) (c : GrainClass) (kg : Nat) :
    s.bindTo r c kg = { s with
      lots := (s.bindTo r c kg).lots
      lastLot := match r with | .created n .receiving => n | _ => s.lastLot } := by
  cases r with
  | created n kind => cases kind <;> rfl
  | _ => rfl

/-- A reservation that passes its checks joins the bin's holders (R29). -/
theorem reserve_granted {b : BinNo} {who : HolderRef} {i : Identity} {kg slots : Nat} (hold : (s.bin b).hold = none)
    (agrees : (s.bin b).agrees i = true) (owner : (s.bin b).fillOwner.permits who = true) (space : kg ≤ s.freeSpace b)
    (slot : slots ≤ s.freeSlots b) :
    s.reserve b who i kg slots = s.setBin b ((s.bin b).reserveFor who i kg slots) := by
  have hc : firstFailure (s.reserveChecks b who i kg slots) = none := by
    simp [State.reserveChecks, firstFailure, hold, agrees, owner, space, slot]
  unfold State.reserve
  rw [hc]

/-- A ticket's dump may be reserved at a bin that takes it (R29, R73). -/
theorem State.TakesDump.reserve {s : State} {st : StationNo} {g : Grade} {kg : Nat} {b : BinNo}
    (h : s.TakesDump st g kg b) (n : Nat) {u : State} (hu : u.bins = s.bins) (hs : u.settings = s.settings) :
    u.reserve b (.ticket n) g.identity kg 1 = u.setBin b { s.bin b with
      identity := some g.identity
      holders := (s.bin b).holders ++ [{ who := .ticket n, kg := kg, slots := 1 }] } := by
  have hb : u.bin b = s.bin b := by unfold State.bin; rw [hu]
  have hi : (s.bin b).identity = none ∨ (s.bin b).identity = some g.identity := by
    cases e : (s.bin b).identity with
    | none => exact .inl rfl
    | some i => exact .inr (by rw [h.identity i e]; rfl)
  rw [reserve_granted u (by rw [hb]; exact h.hold) ?_ (by rw [hb]; exact FillOwner.permits_ticket.2 h.owner) ?_ ?_, hb]
  · rcases hi with e | e <;> simp [Bin.reserveFor, e]
  · rw [hb]; rcases hi with e | e <;> simp [Bin.agrees, e]
  · have := h.space
    unfold State.freeSpace State.binSet at this ⊢
    rwa [hb, hs]
  · have := h.slot
    unfold State.freeSlots at this ⊢
    rwa [hb]

/-- An assignment to a bin that takes the dump (R74). -/
theorem assign_eq {st : StationNo} {t : Ticket} {g : Grade} {b : BinNo} (r : BindResult)
    (h : s.TakesDump st g (s.estimate t) b) :
    s.assign t g b r = ((s.bindTo r g.cls (s.estimate t)).setBin b { s.bin b with
      identity := some g.identity
      holders := (s.bin b).holders ++ [{ who := .ticket t.number, kg := s.estimate t, slots := 1 }] }).modTicket t.number
        fun u => { u with state := .assigned, assignment := some { dest := b, lot := r.lot, estimate := s.estimate t } } := by
  unfold State.assign
  dsimp only
  rw [h.reserve t.number (u := s.bindTo r g.cls (s.estimate t)) (by rw [bindTo_frame]) (by rw [bindTo_frame])]

/-- An assignment whose lot check passes is made (R73). -/
theorem assignChecked_made {t : Ticket} {g : Grade} (b : BinNo) {r : BindResult} (h : s.bindCheck g (s.estimate t) = r)
    (hr : ∀ c, r ≠ .refused c) : s.assignChecked t g b = (s.assign t g b r, .ok r.lot) := by
  unfold State.assignChecked
  rw [h]
  cases r with
  | refused c => exact absurd rfl (hr c)
  | _ => rfl

/-- The answer of Assign Dump at a bin that passes (R73). -/
def dumpAnswer (b : BinNo) (kg : Nat) : State × Except Status Nat → State × Answer
  | (s1, .ok lot) => accept (encodeAssignment b lot kg) s1
  | (s1, .error code) => refuse code s1

/-- Assign Dump to a named bin that takes the dump (R73). -/
theorem actAssignDump_named {st : StationNo} {n : Nat} {t : Ticket} {g : Grade} {b : BinNo} (ht : s.ticket? n = some t)
    (hs : t.state = .graded) (hg : t.grade = some g) (h : s.TakesDump st g (s.estimate t) b) :
    actAssignDump st (n, b.val) s = dumpAnswer b (s.estimate t) (s.assignChecked t g b) := by
  have hp : firstFailure (s.binChecks st g (s.estimate t) b) = none :=
    Option.isNone_iff_eq_none.1 ((State.passes_iff s st g _ b).2 h)
  have hb : b.val ≠ autoBin := by have := b.isLt; unfold autoBin; omega
  unfold actAssignDump
  simp only [ht, if_neg hb, index_val, hs, hg, unlessFails, hp]
  rfl

/-- Assign Dump with the bin left to AUTO (R75). -/
theorem actAssignDump_auto {st : StationNo} {n : Nat} {t : Ticket} {g : Grade} (ht : s.ticket? n = some t)
    (hs : t.state = .graded) (hg : t.grade = some g) :
    actAssignDump st (n, 0xFF) s =
      match s.chooseBin st g (s.estimate t) with
      | none => refuse .noSpace s
      | some b => dumpAnswer b (s.estimate t) (s.assignChecked t g b) := by
  unfold actAssignDump State.autoAssign
  simp only [ht, hs, hg, autoBin, if_true]
  cases s.chooseBin st g (s.estimate t) with
  | none => rfl
  | some b =>
    dsimp only
    generalize s.assignChecked t g b = x
    obtain ⟨u, r⟩ := x
    cases r <;> rfl

end Assign

/-- Settles O33. -/
theorem assignDumpBindsAndReserves : Obligations.AssignDumpBindsAndReserves := by
  unfold Obligations.AssignDumpBindsAndReserves
  intro s f n t g h ht hs hg kg
  obtain ⟨-, hnum⟩ := State.ticket?_mem ht
  refine ⟨?named, fun hd => ⟨fun hnone => ?full, fun b named hb hst htag hn => ?auto⟩, fun ⟨b, hb⟩ => ?chosen⟩
  case named =>
    intro b m bound hd hk hh hr ho hi hsp hsl hbc hm
    have hb : s.TakesDump f.station g kg b := ⟨hk, hh, hr, ho, hi, hsp, hsl⟩
    have hne (c) : bound ≠ .refused c := by rcases hm with e | e | e <;> simp [e]
    have hlot : bound.lot = m := by rcases hm with e | e | e <;> simp [e, BindResult.lot]
    refine ⟨s.assign t g b bound, ?_, ?_, ?_, ?_, ?_, ?_⟩
    · refine answered_of_act h hd ?_
      rw [actAssignDump_named s ht hs hg hb, assignChecked_made s b hbc hne, hlot]
      rfl
    all_goals rw [assign_eq s bound hb]
    · rw [bindTo_frame, hlot, hnum]
      rcases hm with rfl | rfl | rfl <;> simp [State.setBin, State.modTicket, kg]
    · rw [hnum]; exact State.bin_setBin_same _ _ _
    · intro c hc
      refine (State.bin_setBin_other _ hc _).trans ?_
      unfold State.bin; rw [bindTo_frame]
    · intro k hk'
      refine (lot?_bindTo s g.cls hbc k).trans (if_neg ?_)
      rw [hlot]; exact hk'
    · refine (lot?_bindTo s g.cls hbc m).trans ?_
      rw [if_pos hlot.symm]
      have he : Lot.bind (s.estimate t) s.settings.lotSize = fun l : Lot => { l with
          pendingTickets := l.pendingTickets + 1, pendingEstimate := l.pendingEstimate + kg
          state := if l.kind = .receiving ∧ s.settings.lotSize ≤ l.received + (l.pendingEstimate + kg) then .closed
            else l.state } := by
        funext l; exact Lot.sizeCheck_eq _ _
      rw [he]
      rcases hm with rfl | rfl | rfl <;> rfl
  case full =>
    refine answered_of_act h hd ?_
    rw [actAssignDump_auto s ht hs hg, (State.chooseBin_eq_none s f.station g kg).2 hnone]
    rfl
  case auto =>
    have hname : Heard s named (supervisorOr [.grader, .scale]) := by
      obtain ⟨h1, h2, h3⟩ := h
      exact ⟨h1, by rw [hst]; exact h2, by rw [hst]; exact h3⟩
    refine (answered_of_heard (act := actAssignDump) h hd).trans
      (Eq.trans ?_ (answered_of_heard (act := actAssignDump) hname hn).symm)
    rw [actAssignDump_auto s ht hs hg, (State.chooseBin_eq_some s f.station g kg).2 hb, hst,
      actAssignDump_named s ht hs hg hb.1]
    unfold answered respond
    rw [hst, htag]
  case chosen =>
    cases hc : s.chooseBin f.station g kg with
    | none => exact absurd hb ((State.chooseBin_eq_none s f.station g kg).1 hc b)
    | some c => exact ⟨c, (State.chooseBin_eq_some s f.station g kg).1 hc⟩

end Sys2Proof.Machine
end

section
/-! PROOFS. The dryer: the charge of a batch and the shrink of its portions (R88, R89, R91). -/

namespace Sys2Proof.Machine

/-! ### Batch Dried -/

section Dried
variable (s : State)

/-- A lot after the losses of one of its portions (R8, R91). -/
def Lot.postShrink (x : Shrink) (l : Lot) : Lot :=
  if x.dry = 0 then (l.lose x.water x.handling).dropPortion else l.lose x.water x.handling

theorem Lot.postShrink_no (x : Shrink) (l : Lot) : (l.postShrink x).no = l.no := by unfold Lot.postShrink; split <;> rfl

/-- A lot after the losses of several portions, each with its shrink. -/
theorem foldl_postShrink (shrunk : Portion → Shrink) (ps : List Portion) (l : Lot) :
    ps.foldl (fun m p => m.postShrink (shrunk p)) l = { l with
      waterLoss := l.waterLoss + (ps.map fun p => (shrunk p).water).sum
      handlingLoss := l.handlingLoss + (ps.map fun p => (shrunk p).handling).sum
      standing := l.standing - (ps.map fun p => (shrunk p).water + (shrunk p).handling).sum
      portionCount := l.portionCount - (ps.filter fun p => (shrunk p).dry == 0).length } := by
  induction ps generalizing l with
  | nil => rfl
  | cons p ps ih =>
    rw [List.foldl_cons, ih]
    by_cases h : (shrunk p).dry = 0
    · simp [Lot.postShrink, h, Lot.lose, Lot.dropPortion, Nat.add_assoc, Nat.sub_sub, Nat.add_comm 1]
    · simp [Lot.postShrink, h, Lot.lose, Nat.add_assoc, Nat.sub_sub]

/-- The state while the losses of the portions are posted (R91). -/
theorem foldl_state_postShrink (outlet handling : Nat) (ps : List Portion) (t : State) :
    (ps.map (driedPortion outlet handling)).foldl (fun t r => t.postShrink r.1.lot r.2) t =
      ps.foldl (fun t p => t.modLot p.lot (Lot.postShrink (shrink p.kg p.moisture outlet handling))) t := by
  rw [List.foldl_map]; rfl

/-- The flags of a dried batch, raised before its losses are posted (R91). -/
def State.driedFlags (s : State) (b : Batch) (reported : Nat) : State :=
  (s.raiseIf (decide (b.target + s.settings.dryer.tolerance < reported)) flagUnderdried).raiseIf
    (decide (reported < s.settings.dryer.floor)) flagMoistClamp

theorem driedFlags_frame (b : Batch) (reported : Nat) :
    s.driedFlags b reported = { s with events := (s.driedFlags b reported).events } := by
  unfold State.driedFlags
  rw [raiseIf_frame, raiseIf_frame]

/-- The batch after it has been dried (R91). -/
def Batch.driedTo (b : Batch) (outlet handling : Nat) : Batch :=
  { b with
    phase := .dried, outlet := some outlet
    portions := (b.portions.map fun p => { p with
      kg := (shrink p.kg p.moisture outlet handling).dry
      moisture := (shrink p.kg p.moisture outlet handling).moisture }).filter fun p => p.kg != 0 }

/-- A batch dried: its flags, its losses, and the batch that waits for its leg (R91). -/
theorem dryBatch_eq (b : Batch) (reported : Nat) :
    let outlet := floorOutlet s.settings.dryer.floor reported
    let u := b.portions.foldl
      (fun t p => t.modLot p.lot (Lot.postShrink (shrink p.kg p.moisture outlet s.settings.dryer.handling)))
      (s.driedFlags b reported)
    s.dryBatch b reported = (u.setDryer { s.dryer with
      state := .dischargeWait, autoDischarge := true, drying := none
      batch := some (b.driedTo outlet s.settings.dryer.handling) }).raise flagBatchDried := by
  intro outlet u
  have hd : u.dryer = s.dryer := by unfold u; rw [foldl_modLot_frame, driedFlags_frame]
  unfold State.dryBatch
  dsimp only
  rw [foldl_state_postShrink, List.map_map, ← hd]
  rfl

end Dried

/-- Settles O40. -/
theorem batchDriedShrinksEveryPortion : Obligations.BatchDriedShrinksEveryPortion := by
  unfold Obligations.BatchDriedShrinksEveryPortion
  intro s f reading b h hd hs hb set reported outlet shrunk u o
  have hu : u = _ := dryBatch_eq s b reported
  have hevents : (b.portions.foldl
      (fun t p => t.modLot p.lot (Lot.postShrink (shrink p.kg p.moisture outlet set.handling)))
      (s.driedFlags b reported)).events = (s.driedFlags b reported).events := by rw [foldl_modLot_frame]
  have hflag (g : Flag) : u.flag g = (decide (g = flagBatchDried) || (s.driedFlags b reported).flag g) := by
    rw [hu, State.flag_raise]
    exact congrArg _ (State.flag_congr hevents g)
  refine ⟨?answer, ?frame, ?lots, ?_, ?_, ?_⟩
  case answer =>
    refine answered_of_act h hd ?_
    unfold actBatchDried
    rw [hs, hb]
    simp only [driedAnswer, List.map_map, listOf, List.flatMap_map, List.length_map]
    rfl
  case frame =>
    rw [hu, foldl_modLot_frame, driedFlags_frame]
    rfl
  case lots =>
    intro n
    have hf := State.lot?_foldl_modLot (s.driedFlags b reported) b.portions Portion.lot
      (fun p => Lot.postShrink (shrunk p)) (fun _ _ => Lot.postShrink_no _ _) n
    rw [hu]
    refine hf.trans ?_
    rw [State.lot?_congr (s := s) (by rw [driedFlags_frame])]
    congr 1
    funext l
    exact foldl_postShrink shrunk _ l
  · simp [hflag]
  · intro hr
    rw [hflag, State.driedFlags, State.flag_raiseIf, State.flag_raiseIf]
    simp [hr, set]
  · intro hr
    rw [hflag, State.driedFlags, State.flag_raiseIf]
    simp [hr, set]

/-! ### Charge Batch -/

section Charge
variable (s : State)

/-- The pieces a plan without a berth's limits would take are those a draw of its quantity takes (R34, R36). -/
theorem planWalk_pieces (held : Nat → Bool) (ls : List Layer) (request : Nat) (layers boundary : Option Nat)
    (h : ∀ l ∈ ls, 1 ≤ l.kg) :
    (drawLayers ls (planWalk held ls request layers boundary none).granted).1 =
      (planWalk held ls request layers boundary none).pieces := by
  induction ls generalizing request layers boundary with
  | nil => rfl
  | cons l ls ih =>
    have hl := h l List.mem_cons_self
    have nothing (c : PlanCause) : (drawLayers (l :: ls) (Plan.mk [] c).granted).1 = [] := by
      simp [drawLayers, Plan.granted]
    unfold planWalk
    by_cases hr : request = 0
    · simp only [hr, if_true]; exact nothing _
    by_cases hb : boundary = some 0
    · simp only [hr, hb, if_true, if_false]; exact nothing _
    by_cases hh : held l.lot = true
    · simp only [hr, hb, hh, if_true, if_false]; exact nothing _
    by_cases hc : layers = some 0
    · simp only [hr, hb, hh, hc, if_true, if_false]; exact nothing _
    simp only [hr, hb, hh, hc, if_false, Bool.false_eq_true]
    split
    · next ha =>
      have hpos : available l request boundary ≠ 0 := by
        unfold available
        cases boundary with
        | none => dsimp only; omega
        | some k =>
          have : k ≠ 0 := fun e => hb (by rw [e])
          dsimp only; omega
      have hgr (c : PlanCause) : (Plan.mk [l.piece (available l request boundary)] c).granted =
          available l request boundary := by simp [Plan.granted, Layer.piece]
      rw [hgr]
      simp [drawLayers, hpos, not_le.2 ha, Layer.piece]
    · next ha =>
      have hle : available l request boundary ≤ l.kg := by
        unfold available
        cases boundary <;> dsimp only <;> omega
      have he : available l request boundary = l.kg := le_antisymm hle (not_lt.1 ha)
      rw [he]
      set p := planWalk held ls (request - l.kg) (layers.map (· - 1)) (boundary.map (· - l.kg)) none with hp
      have hg : (p.above (l.piece l.kg)).granted = l.kg + p.granted := by simp [Plan.granted, Plan.above, Layer.piece]
      have hi : (drawLayers ls p.granted).1 = p.pieces :=
        ih _ _ _ fun m hm => h m (List.mem_cons_of_mem _ hm)
      rw [hg, drawLayers, if_neg (by omega), if_pos (by omega), Nat.add_sub_cancel_left]
      dsimp only
      rw [hi]
      rfl

/-- The pieces of a plan on a bin are those a draw of its quantity takes (R34, R36). -/
theorem planBin_pieces {b : BinNo} (h : ∀ l ∈ (s.bin b).layers, 1 ≤ l.kg) (request : Nat) (layers boundary : Option Nat) :
    (drawLayers (s.bin b).layers (s.planBin b request layers boundary none).granted).1 =
      (s.planBin b request layers boundary none).pieces := by
  unfold State.planBin
  split
  · cases (s.bin b).layers <;> simp [drawLayers, Plan.granted]
  · exact planWalk_pieces _ _ _ _ _ h

/-- Layers that leave their lots' counts change lots alone. -/
theorem dropLayers_frame (ns : List Nat) (s : State) :
    ns.foldl (fun t n => t.modLot n Lot.dropLayer) s =
      { s with lots := (ns.foldl (fun t n => t.modLot n Lot.dropLayer) s).lots } :=
  foldl_modLot_frame ns (fun n => n) (fun _ => Lot.dropLayer) s

/-- A draw changes lots and its bin alone (R36). -/
theorem draw_frame (b : BinNo) (q : Nat) :
    (s.draw b q).2 = { s with lots := (s.draw b q).2.lots, bins := (s.draw b q).2.bins } := by
  unfold State.draw
  dsimp only
  rw [dropLayers_frame]
  rfl

/-- Every bin after a draw (R36). -/
theorem bin_draw (b : BinNo) (q : Nat) (c : BinNo) :
    (s.draw b q).2.bin c =
      if c = b then { s.bin b with layers := (drawLayers (s.bin b).layers q).2 }.reevaluate else s.bin c := by
  unfold State.draw
  dsimp only
  rw [State.bin_setBin]
  split
  · rfl
  · rw [dropLayers_frame]; rfl

/-- What every number finds after a draw: each layer it empties leaves its lot's count (R10, R36). -/
theorem lot?_draw (b : BinNo) (q : Nat) (n : Nat) :
    (s.draw b q).2.lot? n = (s.lot? n).map fun l => { l with
      layerCount := l.layerCount - (((s.bin b).layers.take
        ((s.bin b).layers.length - (drawLayers (s.bin b).layers q).2.length)).filter fun x => x.lot == n).length } := by
  unfold State.draw
  dsimp only
  rw [State.lot?_congr (State.setBin_lots _ _ _),
    State.lot?_foldl_modLot s _ (fun n => n) (fun _ => Lot.dropLayer) fun _ _ => rfl]
  simp only [foldl_dropLayer, emptiedLots, List.filter_map, List.length_map]
  rfl

/-- A charge whose destination takes the reservation (R89). -/
theorem charge_eq {c : Charge} {tank dest : BinNo} {i : Identity} (hne : dest ≠ tank)
    (hold : (s.bin dest).hold = none) (free : (s.bin dest).holders = [])
    (hi : (s.bin dest).identity = none ∨ (s.bin dest).identity = some i)
    (hp : ∀ l ∈ (s.bin tank).layers, 1 ≤ l.kg)
    (space : dryEstimate s.settings.dryer c.target (s.chargePlan tank c.kg).pieces ≤ s.freeSpace dest)
    (slots : (s.chargePlan tank c.kg).touched ≤ s.freeSlots dest) :
    let plan := s.chargePlan tank c.kg
    let need := dryEstimate s.settings.dryer c.target plan.pieces
    let drawn := plan.pieces.foldl (fun t p => t.modLot p.lot Lot.addPortion) (s.draw tank plan.granted).2
    s.charge c tank dest i = (drawn.setBin dest { s.bin dest with
        identity := some i, holders := [{ who := .batch, kg := need, slots := plan.touched }] }).setDryer { s.dryer with
      state := .drying
      drying := some { remaining := s.settings.dryer.maxDrying, expired := false }
      batch := some
        { tank := tank, dest := dest, identity := i, target := c.target, phase := .wet, wetTotal := plan.granted,
          dryEstimate := need, outlet := none, portions := plan.pieces } } := by
  intro plan need drawn
  have hpieces : (s.draw tank plan.granted).1 = plan.pieces := planBin_pieces s hp _ _ _
  have hf : drawn = { s with lots := drawn.lots, bins := (s.draw tank plan.granted).2.bins } := by
    unfold drawn; rw [foldl_modLot_frame, draw_frame]
  have hb : drawn.bin dest = s.bin dest := by
    rw [hf]; exact (bin_draw s tank plan.granted dest).trans (if_neg hne)
  have hr : drawn.reserve dest .batch i need plan.touched = drawn.setBin dest { s.bin dest with
      identity := some i, holders := [{ who := .batch, kg := need, slots := plan.touched }] } := by
    rw [reserve_granted drawn (by rw [hb]; exact hold) ?_ ?_ ?_ ?_, hb]
    · rcases hi with e | e <;> simp [Bin.reserveFor, e, free]
    · rw [hb]; rcases hi with e | e <;> simp [Bin.agrees, e]
    · rw [hb]; simp [Bin.fillOwner, free, FillOwner.permits]
    · unfold State.freeSpace State.binSet at *
      rw [hb, hf]; exact space
    · unfold State.freeSlots at *
      rw [hb]; exact slots
  have hd : drawn.dryer = s.dryer := by rw [hf]
  unfold State.charge
  dsimp only
  rw [hpieces, show plan.pieces.length = plan.touched from rfl]
  rw [hr, State.setBin_dryer, hd]

end Charge

/-- Settles O39. -/
theorem chargeDrawsThePlanAndReserves : Obligations.ChargeDrawsThePlanAndReserves := by
  unfold Obligations.ChargeDrawsThePlanAndReserves
  intro s f c tank dest i hlaw h hd hct hcd hk1 hk2 ht1 ht2 hready htank hdest hholdt hholdd hres hclaim hfree hit hid
    plan need hgr hsp hsl
  have hne : dest ≠ tank := by rintro rfl; rw [htank] at hdest; cases hdest
  have hpos := (hlaw.1 tank).2
  have hcharge := charge_eq s hne hholdd hfree hid hpos hsp hsl
  have hchecks : firstFailure (s.chargeChecks f.station c tank dest) = none := by
    have hpieces : plan.pieces ≠ [] := by
      intro e
      have : plan.granted = 0 := by unfold Plan.granted; rw [e]; rfl
      omega
    have hbar (b : BinNo) (hb : b = tank ∨ b = dest) : s.barredFrom f.station b = false := by
      unfold State.barredFrom State.supervisor
      cases hr : (s.binSet b).restricted with
      | false => rfl
      | true =>
        have hs : (s.station f.station).cls = .supervisor := by
          rcases hb with rfl | rfl
          · exact hres (.inl hr)
          · exact hres (.inr hr)
        simp [hs]
    have hc : (s.bin dest).wrongClass (some i) = false ∧ (s.bin dest).wrongIp (some i) = false := by
      rcases hid with e | e <;> simp [Bin.wrongClass, Bin.wrongIp, e]
    have hmin : ¬ (s.chargePlan tank c.kg).granted < Config.minCharge := not_lt.2 hgr
    simp [State.chargeChecks, firstFailure, hready, htank, hdest, hholdt, hholdd, hbar, hclaim, hit, hc.1, hc.2, hsp,
      hsl, hmin, Bin.fillOwner, hfree, show (s.chargePlan tank c.kg).pieces ≠ [] from hpieces, plan, need]
  set drawn := plan.pieces.foldl (fun t p => t.modLot p.lot Lot.addPortion) (s.draw tank plan.granted).2 with hdrawn
  have hf : drawn = { s with lots := drawn.lots, bins := (s.draw tank plan.granted).2.bins } := by
    rw [hdrawn, foldl_modLot_frame, draw_frame]
  have hbin (b : BinNo) : (s.charge c tank dest i).bin b = if b = dest then { s.bin dest with
      identity := some i, holders := [{ who := .batch, kg := need, slots := plan.touched }] }
      else (s.draw tank plan.granted).2.bin b := by
    rw [hcharge]
    refine (State.bin_setBin drawn dest _ b).trans ?_
    congr 1
    rw [hf]; rfl
  have htankBin : (s.charge c tank dest i).bin tank =
      { s.bin tank with layers := (drawLayers (s.bin tank).layers plan.granted).2 }.reevaluate := by
    rw [hbin, if_neg hne.symm, bin_draw, if_pos rfl]
  refine ⟨s.charge c tank dest i, ?answer, ?frame, ?contents, ?dest, ?others, ?lots⟩
  case answer =>
    refine answered_of_act h hd ?_
    have hr : c.inRange = true := by simp [Charge.inRange, Config.maxTransferKg, hk1, hk2, ht1, ht2]
    unfold actChargeBatch
    rw [hct, hcd, index_val, index_val, hr]
    simp only [unlessFails, hchecks, hit]
    rfl
  case frame =>
    rw [hcharge, foldl_modLot_frame, draw_frame]; rfl
  case contents =>
    have hc := drawLayers_conserves (s.bin tank).layers plan.granted
    have hp : (drawLayers (s.bin tank).layers plan.granted).1 = plan.pieces := planBin_pieces s hpos _ _ _
    rw [hp] at hc
    rw [htankBin, Bin.contents, Bin.reevaluate_layers, Bin.contents, ← hc]
    exact Nat.add_comm _ _
  case dest => rw [hbin, if_pos rfl]
  case others =>
    intro b hb hb'
    rw [hbin, if_neg hb', bin_draw, if_neg hb]
  case lots =>
    intro n
    have hl : (s.charge c tank dest i).lot? n = drawn.lot? n := by rw [hcharge]; rfl
    rw [hl, hdrawn, State.lot?_foldl_modLot _ plan.pieces Portion.lot (fun _ => Lot.addPortion) (fun _ _ => rfl),
      lot?_draw, Option.map_map, htankBin, Bin.reevaluate_layers]
    simp only [foldl_addPortion]
    rfl

end Sys2Proof.Machine
end

section
/-! PROOFS. What the ends of transfers and all that follows them leave of the event flags and the berths: flags stay
raised, few are raised, and a halted berth stays halted (R93, R103, R122, R123, R138, R160). -/

namespace Sys2Proof.Machine

/-- The flags that an end, and what follows it, may raise: ABNORMAL_END and ALL_DONE of a leg, ORDER_COMPLETE of a
berth, the dryer's discharge flags, BIN_HOT and SCHEDULE_ENDED. -/
def Flag.ofEnds (f : Flag) : Bool :=
  f == flagBinHot || f == flagDischargeHeld || f == flagDischargeDone || f == flagScheduleEnded ||
    (allLegs.any fun l => f == flagAllDone l || f == flagAbnormalEnd l) ||
    allBerths.any fun k => f == flagOrderComplete k

/-- The flags are as they were but for those that ends raise, and no berth is past its limit or out of its halt by the
change. -/
structure Settles (s t : State) : Prop where
  kept : ∀ f, s.flag f = true → t.flag f = true
  raised : ∀ f, t.flag f = true → s.flag f = true ∨ f.ofEnds = true
  limits : ∀ k, (t.berth k).overLimit = (s.berth k).overLimit
  halted : ∀ k c, (s.berth k).state = .halted c → (t.berth k).state = .halted c

section Rules
variable (s : State)

/-- A change of neither flags nor berths. -/
theorem Settles.same {s t : State} (he : t.events = s.events) (hb : t.berths = s.berths) : Settles s t where
  kept f h := by rw [State.flag_congr he]; exact h
  raised f h := .inl (by rwa [State.flag_congr he] at h)
  limits k := by unfold State.berth; rw [hb]
  halted k c h := by unfold State.berth at *; rwa [hb]

theorem Settles.refl : Settles s s := .same rfl rfl

theorem Settles.trans {s t u : State} (h : Settles s t) (k : Settles t u) : Settles s u where
  kept f hf := k.kept f (h.kept f hf)
  raised f hf := (k.raised f hf).elim (h.raised f) .inr
  limits b := (k.limits b).trans (h.limits b)
  halted b c hc := k.halted b c (h.halted b c hc)

theorem Settles.after {s t u : State} (k : Settles t u) (he : t.events = s.events) (hb : t.berths = s.berths) :
    Settles s u := (Settles.same he hb).trans k

theorem Settles.foldl {α : Type} {f : State → α → State} (h : ∀ s a, Settles s (f s a)) (l : List α) (s : State) :
    Settles s (l.foldl f s) := by
  induction l generalizing s with
  | nil => exact .refl s
  | cons a l ih => exact (h s a).trans (ih _)

theorem Settles.raise {f : Flag} (hf : f.ofEnds = true) : Settles s (s.raise f) where
  kept g h := by rw [State.flag_raise, h, Bool.or_true]
  raised g h := by
    rw [State.flag_raise, Bool.or_eq_true] at h
    rcases h with h | h
    · right; rw [of_decide_eq_true h]; exact hf
    · exact .inl h
  limits _ := rfl
  halted _ _ h := h

theorem Settles.raiseIf (c : Bool) {f : Flag} (hf : f.ofEnds = true) : Settles s (s.raiseIf c f) := by
  unfold State.raiseIf; split
  · exact .raise s hf
  · exact .refl s

/-- A change of a berth that keeps its over limit, and its halt if it stands in one. -/
theorem Settles.setBerth {k : BerthNo} {x : Berth} (ho : x.overLimit = (s.berth k).overLimit)
    (hh : ∀ c, (s.berth k).state = .halted c → x.state = .halted c) : Settles s (s.setBerth k x) where
  kept f h := h
  raised f h := .inl h
  limits j := by
    rw [State.berth_setBerth]; split
    · next e => rw [e]; exact ho
    · rfl
  halted j c h := by
    rw [State.berth_setBerth]; split
    · next e => exact hh c (by rw [← e]; exact h)
    · exact h

end Rules

section Operations
variable (s : State)

theorem Berth.settleReady_overLimit (b : Berth) : b.settleReady.overLimit = b.overLimit := by
  unfold Berth.settleReady; split <;> rfl

theorem ofEnds_orderComplete (k : BerthNo) : (flagOrderComplete k).ofEnds = true := by fin_cases k <;> decide

theorem ofEnds_allDone (l : LegNo) : (flagAllDone l).ofEnds = true := by fin_cases l <;> decide

theorem ofEnds_abnormalEnd (l : LegNo) : (flagAbnormalEnd l).ofEnds = true := by fin_cases l <;> decide

/-- The completion test at a berth that is not halted. -/
theorem completionTest_settles {k : BerthNo} (h : ∀ c, (s.berth k).state ≠ .halted c) :
    Settles s (s.completionTest k) := by
  unfold State.completionTest; dsimp only; split
  · exact (Settles.setBerth s (k := k) (x := { s.berth k with state := .complete }) rfl
      fun c hc => absurd hc (h c)).trans (.raise _ (ofEnds_orderComplete k))
  · exact .setBerth s (Berth.settleReady_overLimit _) fun c hc => absurd hc (h c)

theorem berthEnd_settles (k : BerthNo) (reason : EndReason) : Settles s (s.berthEnd k reason) := by
  unfold State.berthEnd; dsimp only; split
  · exact .refl s
  · exact .refl s
  · next hs =>
    have hn (c : HaltCause) : (s.berth k).state ≠ .halted c := by rw [hs]; exact nofun
    split
    · exact .setBerth s rfl fun c hc => absurd hc (hn c)
    · exact .setBerth s rfl fun c hc => absurd hc (hn c)
    · exact completionTest_settles s hn
  · next hh _ _ =>
    split
    · exact .refl s
    · exact completionTest_settles s hh

theorem dropBerthClaim_settles (k : BerthNo) (id : Nat) : Settles s (s.dropBerthClaim k id) := by
  unfold State.dropBerthClaim; split
  · exact .setBerth s rfl fun c hc => hc
  · exact .refl s

theorem endEntry_settles (n : EntryNo) (reason : EntryEnd) : Settles s (s.endEntry n reason) := by
  unfold State.endEntry; split
  · exact .refl s
  · exact (Settles.raise _ (f := flagScheduleEnded) (by decide)).after (by rfl) (by rfl)

theorem autoTurn_settles (b : BinNo) : Settles s (s.autoTurn b) := by
  unfold State.autoTurn; dsimp only; split
  · exact .refl s
  · split <;> exact .same rfl rfl

theorem evaluateHot_settles (b : BinNo) : Settles s (s.evaluateHot b) := by
  unfold State.evaluateHot; dsimp only; split
  · split
    · exact ((Settles.raise _ (f := flagBinHot) (by decide)).after (by rfl) (by rfl)).trans (autoTurn_settles _ b)
    · exact .same rfl rfl
  · exact .refl s

theorem passComplete_settles (n : EntryNo) (e : Entry) (t : Transfer) : Settles s (s.passComplete n e t) := by
  unfold State.passComplete
  extract_lets s1 x turned old s2 y old' s3
  have h2 : Settles s s2 := .same rfl rfl
  have h3 : Settles s s3 := by
    unfold s3; split
    · exact h2.trans ((evaluateHot_settles _ _).after (by rfl) (by rfl))
    · exact h2
  split
  · split
    · exact h3.trans (endEntry_settles _ _ _)
    · split
      · exact h3.trans (.same rfl rfl)
      · exact h3
  · exact h3

theorem passEnd_settles (n : EntryNo) (reason : EndReason) (t : Transfer) : Settles s (s.passEnd n reason t) := by
  unfold State.passEnd; split
  · exact .refl s
  · split
    · exact .refl s
    · split
      · exact passComplete_settles s _ _ _
      · exact .same rfl rfl
      · dsimp only; split
        · exact (endEntry_settles _ _ _).after (by rfl) (by rfl)
        · exact .same rfl rfl

/-- A transfer becomes active, and its berth, when it has one, is not halted. -/
theorem enterActive_settles (l : LegNo) {t : Transfer}
    (h : ∀ k, t.berth? = some k → ∀ c, (s.berth k).state ≠ .halted c) : Settles s (s.enterActive l t) := by
  unfold State.enterActive
  extract_lets g time s1
  have h1 : s1.events = s.events ∧ s1.berths = s.berths := by unfold s1; split <;> exact ⟨rfl, rfl⟩
  have hb (k : BerthNo) : s1.berth k = s.berth k := by unfold State.berth; rw [h1.2]
  have hs : Settles s s1 := .same h1.1 h1.2
  split
  · next k hk => exact hs.trans (.setBerth _ rfl fun c hc => absurd (by rwa [hb] at hc) (h k hk c))
  · exact hs

/-- The claims and the reservation of a transfer to a bin touch bins alone (R114). -/
theorem holdFor_bin {t : Transfer} {d : BinNo} (hd : t.dest = .bin d) (n : Nat) :
    (s.holdFor t n).events = s.events ∧ (s.holdFor t n).berths = s.berths := by
  unfold State.holdFor
  extract_lets s1
  have h1 : s1.events = s.events ∧ s1.berths = s.berths := by
    unfold s1 State.takeClaim; split
    · split <;> exact ⟨rfl, rfl⟩
    · exact ⟨rfl, rfl⟩
  rw [hd]
  dsimp only
  split
  · exact h1
  · unfold State.reserve; split <;> exact h1

/-- A launch between bins that preempts nothing. -/
theorem commitLaunch_settles {r : LaunchRequest} {g : Grant} {d : BinNo} (hd : r.dest = .bin d) (hp : g.preempts = false) :
    Settles s (s.commitLaunch r g) := by
  unfold State.commitLaunch
  extract_lets t s1 s2
  have hdt : t.dest = .bin d := hd
  have h1 : s1.events = s.events ∧ s1.berths = s.berths := by
    exact holdFor_bin _ hdt g.slots
  have hs2 : s2 = s1 := by unfold s2; rw [hp]; rfl
  have h2 : Settles s s2 := by rw [hs2]; exact .same h1.1 h1.2
  split
  · exact h2.trans (enterActive_settles _ _ fun k hk => by
      unfold Transfer.berth? at hk; rw [hdt] at hk; cases hk)
  · exact h2.trans (.same rfl rfl)

/-- What a granted launch has passed, and the place it takes (R108 to R113). -/
theorem launchChecks_ok {r : LaunchRequest} {g : Grant} (h : s.launchChecks r = .ok g) :
    firstFailure (s.permissionChecks r ++ s.claimChecks r ++ s.identityChecks r) = none ∧
      (s.leg r.leg).place r.attr = some (g.slot, g.preempts) := by
  unfold State.launchChecks at h
  split at h
  · cases h
  · next hp =>
    refine ⟨hp, ?_⟩
    dsimp only at h
    repeat' split at h
    all_goals cases h
    next hplace => exact hplace

/-- A launch preempts only when it has priority (R113). -/
theorem Leg.place_preempts {g : Leg} {attr : Attr} {k : Slot} {b : Bool} (h : g.place attr = some (k, b))
    (ha : attr ≠ .priority) : b = false := by
  unfold Leg.place at h
  split at h
  · cases h; rfl
  · simp only [ha, false_and, if_false] at h
    split at h <;> cases h
    rfl

theorem launch_settles {r : LaunchRequest} {d : BinNo} (hd : r.dest = .bin d) (ha : r.attr ≠ .priority) :
    Settles s (s.launch r).1 := by
  obtain ⟨code, limit, _, h⟩ | ⟨g, hg, h⟩ := s.launch_cases r <;> rw [h]
  · exact .refl s
  · exact commitLaunch_settles s hd (Leg.place_preempts (launchChecks_ok s hg).2 ha)

theorem tryDischarge_settles : Settles s s.tryDischarge.1 := by
  unfold State.tryDischarge; split
  · exact .refl s
  · next b hb =>
    have hl := launch_settles s (r := { origin := .dryer, leg := s.settings.dryer.dischargeLeg, source := .dryer
                                        dest := .bin b.dest, kg := (b.portions.map Portion.kg).sum, attr := .ordinary })
      rfl nofun
    dsimp only
    split
    · next h => rw [h] at hl; exact hl.trans (.same rfl rfl)
    · next h => rw [h] at hl; exact hl.trans (.raiseIf _ _ (by decide))

theorem launchPass_settles (n : EntryNo) (e : Entry) : Settles s (s.launchPass n e) := by
  unfold State.launchPass
  extract_lets kg r
  have hl := launch_settles s (r := r) (d := e.dest) rfl nofun
  split
  · next h => rw [h] at hl; exact hl.trans (.same rfl rfl)
  · next h =>
    rw [h] at hl
    split
    · exact hl
    · exact hl
    all_goals exact hl.trans (endEntry_settles _ _ _)

theorem examine_settles : Settles s s.examine := by
  refine Settles.foldl (fun s n => ?_) _ s
  unfold State.examineEntry; split
  · exact .refl s
  · split
    · exact launchPass_settles s _ _
    · exact .refl s

theorem dischargeEnd_settles : Settles s s.dischargeEnd := by
  unfold State.dischargeEnd; dsimp only; split
  · exact .same rfl rfl
  · split
    · exact (Settles.raise _ (f := flagDischargeDone) (by decide)).after (by rfl) (by rfl)
    · exact .same rfl rfl

theorem tellEnd_settles (t : Transfer) (reason : EndReason) : Settles s (s.tellEnd t reason) := by
  unfold State.tellEnd
  extract_lets s1
  have h1 : Settles s s1 := by
    unfold s1; split
    · exact dischargeEnd_settles s
    · exact passEnd_settles s _ _ _
    · exact .refl s
  split
  · exact h1.trans (berthEnd_settles _ _ _)
  · exact h1

theorem endSlot_settles (l : LegNo) (k : Slot) (reason : EndReason) : Settles s (s.endSlot l k reason) := by
  unfold State.endSlot; split
  · exact .refl s
  · next t _ =>
    extract_lets old s1 s2 s3 s4 s5
    have h2 : Settles s s2 := by
      unfold s2 State.dropClaim; split
      · split <;> exact .same rfl rfl
      · exact .same rfl rfl
    have h3 : Settles s s3 := by
      unfold s3; split
      · exact h2.trans (dropBerthClaim_settles _ _ _)
      · exact h2
    have h4 : Settles s s4 := by
      refine h3.trans ?_
      unfold s4 State.endReservation; split
      · exact .refl _
      · split <;> exact .same rfl rfl
    have h5 : Settles s s5 := h4.trans (.foldl (fun u b => .same (by rfl) (by rfl)) _ _)
    exact (h5.trans (.raiseIf _ _ (ofEnds_abnormalEnd l))).trans (tellEnd_settles _ _ _)

/-- A berth that is READY is not halted. -/
theorem replan_unhalted {t t1 : Transfer} (h : s.replan t = .ok t1) {k : BerthNo} (hk : t1.berth? = some k)
    (c : HaltCause) : (s.berth k).state ≠ .halted c := by
  unfold State.replan at h
  split at h
  · next hn => cases h; rw [hn] at hk; cases hk
  · next j hj =>
    split at h
    · cases h
    · next hr =>
      dsimp only at h
      split at h
      · cases h
      · cases h
        have e : j = k := Option.some.inj (hj.symm.trans hk)
        subst e
        rw [not_not.1 hr]; exact nofun

theorem fillActive_settles (l : LegNo) (n : Nat) : Settles s (s.fillActive l n) := by
  induction n generalizing s with
  | zero => unfold State.fillActive; exact .refl s
  | succ n ih =>
    have advance (t : Transfer) (g : Leg) : Settles s (State.fillActive.advance l n t g s) := by
      unfold State.fillActive.advance; split
      · next t1 h1 =>
        refine (Settles.same (s := s) (t := s.setLeg l g) rfl rfl).trans (enterActive_settles _ l fun k hk c => ?_)
        exact replan_unhalted s h1 hk c
      · exact ((endSlot_settles _ _ _ _).after (by rfl) (by rfl)).trans (ih _)
    unfold State.fillActive; dsimp only; split
    · exact .refl s
    · split
      · exact advance _ _
      · exact advance _ _
      · exact .refl s

theorem settleLeg_settles (l : LegNo) : Settles s (s.settleLeg l) :=
  (fillActive_settles s l 2).trans (.raiseIf _ _ (ofEnds_allDone l))

/-- The ends of transfers and all that follows them. -/
theorem endTransfers_settles (vs : List Victim) : Settles s (s.endTransfers vs) := by
  unfold State.endTransfers; split
  · exact .refl s
  · extract_lets s1 legs s2 s3
    have h1 : Settles s s1 := .foldl (fun t (v : Victim) => endSlot_settles t v.leg v.slot v.reason) _ s
    have h2 : Settles s s2 := h1.trans (.foldl (fun t l => settleLeg_settles t l) _ _)
    have h3 : Settles s s3 := by
      unfold s3; split
      · exact h2.trans (tryDischarge_settles _)
      · exact h2
    exact h3.trans (examine_settles _)

end Operations

end Sys2Proof.Machine
end

section
/-! PROOFS. The flow report: no kilogram is lost or made, how much is moved, and what a report into a berth posts (R9,
R11, R118 to R121, R157, R158). -/

namespace Sys2Proof.Machine

/-! ### The stack under draws, one after another -/

theorem drawLayers_zero (ls : List Layer) : drawLayers ls 0 = ([], ls) := by
  cases ls <;> simp [drawLayers]

/-- A draw of a part of the bottom layer, and of more only when that layer is used up, is one piece and the draw of the
rest. -/
theorem drawLayers_add {l : Layer} {rest : List Layer} {x m : Nat} (hx : 1 ≤ x) (hl : x ≤ l.kg) (hm : x < l.kg → m = 0) :
    drawLayers (l :: rest) (x + m) =
      (l.piece x :: (drawLayers (drawLayers (l :: rest) x).2 m).1, (drawLayers (drawLayers (l :: rest) x).2 m).2) := by
  rcases Nat.lt_or_eq_of_le hl with h | h
  · rw [hm h, Nat.add_zero, drawLayers_zero]
    simp [drawLayers, show x ≠ 0 by omega, not_le.2 h, Layer.piece]
  · have h1 : (drawLayers (l :: rest) x).2 = rest := by
      rw [drawLayers, if_neg (by omega), if_pos (by omega), h, Nat.sub_self, drawLayers_zero]
    rw [h1, drawLayers, if_neg (by omega), if_pos (by omega), ← h, Nat.add_sub_cancel_left]
    rfl

/-- A draw from the bottom layer alone. -/
theorem drawLayers_bottom {l : Layer} {rest : List Layer} {x : Nat} (hl : x ≤ l.kg) :
    ((drawLayers (l :: rest) x).2.map Layer.kg).sum + x = ((l :: rest).map Layer.kg).sum := by
  have h1 := drawLayers_conserves (l :: rest) x
  have h2 := drawLayers_takes (l :: rest) x (by simp only [List.map_cons, List.sum_cons]; omega)
  omega

/-! ### The pieces of a report -/

section Pieces

theorem movePieces_zero (t : Transfer) (rounds : Nat) (s : State) : s.movePieces t rounds 0 = (0, s) := by
  cases rounds <;> simp [State.movePieces]

/-- A relation of the kilograms moved, the state before and the state after holds of the pieces of a report when it
holds of no piece, and of one piece and those after it; a piece that leaves a part of its layer is the last. -/
theorem movePieces_induction {t : Transfer} {R : Nat → State → State → Prop} (none : ∀ s, R 0 s s)
    (piece : ∀ s p x s1 m u, s.nextPiece t.source = some p → x ≤ p.kg → (1 ≤ p.kg → 1 ≤ x) →
      s.movePiece t p x = some s1 → (x < p.kg → m = 0) → R m s1 u → R (x + m) s u)
    (rounds movable : Nat) (s : State) :
    R (s.movePieces t rounds movable).1 s (s.movePieces t rounds movable).2 := by
  induction rounds generalizing movable s with
  | zero => exact none s
  | succ n ih =>
    unfold State.movePieces
    split
    · exact none s
    · next hz =>
      split
      · exact none s
      · next p hp =>
        dsimp only
        split
        · exact none s
        · next s1 h1 =>
          refine piece s p _ s1 _ _ hp (min_le_right _ _) (fun h => by omega) h1 (fun h => ?_) (ih _ s1)
          rw [show movable - min movable p.kg = 0 by omega, movePieces_zero]

theorem movePieces_le (t : Transfer) (rounds movable : Nat) (s : State) :
    (s.movePieces t rounds movable).1 ≤ movable := by
  induction rounds generalizing movable s with
  | zero => exact Nat.zero_le _
  | succ n ih =>
    unfold State.movePieces
    split
    · exact Nat.zero_le _
    · split
      · exact Nat.zero_le _
      · next p _ =>
        dsimp only
        split
        · exact Nat.zero_le _
        · next s1 _ => have := ih (movable - min movable p.kg) s1; omega

end Pieces

/-! ### All the grain -/

section Grain
variable (s : State)

/-- A sum over a list without repeats in which one summand has changed. -/
theorem sum_map_change {α : Type} [DecidableEq α] {l : List α} (hl : l.Nodup) {a : α} (ha : a ∈ l) {f g : α → Nat}
    (h : ∀ c, c ≠ a → g c = f c) : (l.map g).sum + f a = (l.map f).sum + g a := by
  have he : ((l.erase a).map g) = (l.erase a).map f :=
    List.map_congr_left fun c hc => h c fun e => hl.not_mem_erase (e ▸ hc)
  have hf := List.sum_map_erase f ha
  have hg := List.sum_map_erase g ha
  rw [he] at hg
  omega

theorem mem_allBerths (k : BerthNo) : k ∈ allBerths := by revert k; decide

/-- The grain after a change of one bin. -/
theorem grain_bin {u : State} {b : BinNo} (hb : ∀ c, c ≠ b → (u.bin c).contents = (s.bin c).contents)
    (hd : u.dryer = s.dryer) (hk : u.berths = s.berths) :
    u.grain + (s.bin b).contents = s.grain + (u.bin b).contents := by
  have hsum := sum_map_change (l := allBins) (List.nodup_finRange 42) (List.mem_finRange b) (f := fun c => (s.bin c).contents)
    (g := fun c => (u.bin c).contents) hb
  have hp : u.portions = s.portions := by unfold State.portions; rw [hd]
  have hc : u.berth = s.berth := by funext k; unfold State.berth; rw [hk]
  unfold State.grain
  rw [hp, hc]
  omega

/-- The grain after a change of one berth. -/
theorem grain_berth {u : State} {k : BerthNo} (hk : ∀ j, j ≠ k → u.berth j = s.berth j) (hd : u.dryer = s.dryer)
    (hb : u.bins = s.bins) : u.grain + (s.berth k).cargo.q = s.grain + (u.berth k).cargo.q := by
  have hsum := sum_map_change (l := allBerths) (by decide) (mem_allBerths k)
    (f := fun j => (s.berth j).cargo.q) (g := fun j => (u.berth j).cargo.q) fun j hj => by rw [hk j hj]
  have hp : u.portions = s.portions := by unfold State.portions; rw [hd]
  have hc : u.bin = s.bin := by funext c; unfold State.bin; rw [hb]
  unfold State.grain
  rw [hp, hc]
  omega

theorem Quiet.grain {s t : State} (h : Quiet s t) : t.grain = s.grain := by
  unfold State.grain
  rw [h.portions]
  have hb (b : BinNo) : (t.bin b).contents = (s.bin b).contents := by unfold Bin.contents; rw [(h.bins b).1]
  have hk (k : BerthNo) : (t.berth k).cargo = (s.berth k).cargo := (h.berths k).1
  simp only [hb, hk]

theorem draw_grain (b : BinNo) {l : Layer} {x : Nat} (hl : (s.bin b).layers.head? = some l) (hx : x ≤ l.kg) :
    (s.draw b x).2.grain + x = s.grain := by
  obtain ⟨rest, hr⟩ : ∃ rest, (s.bin b).layers = l :: rest := by
    cases h : (s.bin b).layers with
    | nil => rw [h] at hl; cases hl
    | cons m rest => rw [h] at hl; cases hl; exact ⟨rest, rfl⟩
  have hg := grain_bin s (u := (s.draw b x).2) (b := b) (fun c hc => by rw [bin_draw, if_neg hc])
    (by rw [draw_frame]) (by rw [draw_frame])
  have hc : ((s.draw b x).2.bin b).contents + x = (s.bin b).contents := by
    rw [bin_draw, if_pos rfl, Bin.contents, Bin.reevaluate_layers, Bin.contents, hr]
    exact drawLayers_bottom hx
  omega

/-- The change of a transfer's holder in a bin moves no grain. -/
theorem modHolder_grain (b : BinNo) (id : Nat) (f : Holder → Holder) :
    (s.setBin b ((s.bin b).modHolder (.transfer id) f)).grain = s.grain := by
  have hg := grain_bin s (u := s.setBin b ((s.bin b).modHolder (.transfer id) f)) (b := b)
    (fun c hc => by rw [s.bin_setBin_other hc]) rfl rfl
  rw [State.bin_setBin_same] at hg
  have : ((s.bin b).modHolder (.transfer id) f).contents = (s.bin b).contents := rfl
  omega

theorem drawPortion_grain {p : Portion} {x : Nat} (hp : s.portions.head? = some p) (hx : x ≤ p.kg) :
    (s.drawPortion x).grain + x = s.grain := by
  unfold State.drawPortion
  unfold State.portions at hp
  cases hb : s.dryer.batch with
  | none => rw [hb] at hp; cases hp
  | some b =>
    rw [hb] at hp
    dsimp only
    cases hl : b.portions with
    | nil => simp [hl] at hp
    | cons q rest =>
      obtain rfl : q = p := by simpa [hl] using hp
      have hs : (s.portions.map Portion.kg).sum = q.kg + (rest.map Portion.kg).sum := by
        simp [State.portions, hb, hl]
      have key (d : Dryer) (hd : (((d.batch.map Batch.portions).getD []).map Portion.kg).sum + x =
          (s.portions.map Portion.kg).sum) : State.grain { s with dryer := d } + x = s.grain := by
        have : ({ s with dryer := d } : State).portions = (d.batch.map Batch.portions).getD [] := rfl
        unfold State.grain
        rw [this]
        show (allBins.map fun b => (s.bin b).contents).sum + _ + (allBerths.map fun k => (s.berth k).cargo.q).sum + x = _
        omega
      dsimp only
      split
      · have : q.kg = x := by omega
        exact key { s.dryer with batch := some { b with portions := rest } } (by rw [hs]; simp; omega)
      · exact key { s.dryer with batch := some { b with portions := { q with kg := q.kg - x } :: rest } }
          (by rw [hs]; simp; omega)

theorem takePiece_grain {t : Transfer} {p : Portion} {x : Nat} (hp : s.nextPiece t.source = some p) (hx : x ≤ p.kg) :
    (s.takePiece t x).grain + x = s.grain := by
  unfold State.takePiece
  unfold State.nextPiece at hp
  split
  · next hs => rw [hs] at hp; exact drawPortion_grain s hp hx
  · next b hs =>
    rw [hs] at hp
    obtain ⟨l, hl, rfl⟩ := Option.map_eq_some_iff.1 hp
    dsimp only
    split
    · unfold State.returnSlots
      rw [modHolder_grain]
      exact draw_grain s b hl hx
    · exact draw_grain s b hl hx

theorem Deposited.grain {s u : State} {b : BinNo} {p : Portion} (h : Deposited s u b p) : u.grain = s.grain + p.kg := by
  have hg := grain_bin s (u := u) (b := b) (fun c hc => by rw [h.others c hc]) (by rw [h.frame]) (by rw [h.frame])
  have := h.contents
  omega

/-- A berth after a piece has been loaded (R157). -/
def Berth.load (b : Berth) (p : Portion) : Berth :=
  { b.loadPosition p.kg with
    cargo := b.cargo.add p.kg p.moisture p.testWeight
    manifest := addManifest p.lot p.kg b.manifest }

theorem loadPiece_frame (k : BerthNo) (p : Portion) :
    s.loadPiece k p = { s with
      berths := (s.setBerth k ((s.berth k).load p)).berths
      lots := (s.loadPiece k p).lots, events := (s.loadPiece k p).events } := by
  unfold State.loadPiece
  dsimp only
  rw [raiseIf_frame]
  rfl

theorem berth_loadPiece (k : BerthNo) (p : Portion) (j : BerthNo) :
    (s.loadPiece k p).berth j = if j = k then (s.berth k).load p else s.berth j := by
  have : (s.loadPiece k p).berth j = (s.setBerth k ((s.berth k).load p)).berth j := by
    unfold State.berth; rw [loadPiece_frame]; rfl
  rw [this, State.berth_setBerth]

theorem loadPiece_grain (k : BerthNo) (p : Portion) : (s.loadPiece k p).grain = s.grain + p.kg := by
  have hg := grain_berth s (u := s.loadPiece k p) (k := k) (fun j hj => by rw [berth_loadPiece, if_neg hj])
    (by rw [loadPiece_frame]) (by rw [loadPiece_frame])
  have : ((s.loadPiece k p).berth k).cargo.q = (s.berth k).cargo.q + p.kg := by
    rw [berth_loadPiece, if_pos rfl]; rfl
  omega

/-- A piece that is moved leaves all the grain as it was (R119). -/
theorem movePiece_grain {t : Transfer} {p : Portion} {x : Nat} {u : State} (hp : s.nextPiece t.source = some p)
    (hx : x ≤ p.kg) (h : s.movePiece t p x = some u) : u.grain = s.grain := by
  have ht := takePiece_grain s hp hx
  unfold State.movePiece at h
  dsimp only at h
  split at h
  · split at h
    · cases h
    · cases h
      rw [loadPiece_grain]; exact ht
  · obtain ⟨v, hv, rfl⟩ := Option.map_eq_some_iff.1 h
    rw [modHolder_grain, (deposited _ hv).grain]
    exact ht

theorem movePieces_grain (t : Transfer) (rounds movable : Nat) : (s.movePieces t rounds movable).2.grain = s.grain :=
  movePieces_induction (R := fun _ s u => u.grain = s.grain) (fun _ => rfl)
    (fun s _ _ _ _ _ hp hx _ h1 _ hr => hr.trans (movePiece_grain s hp hx h1)) rounds movable s

end Grain

end Sys2Proof.Machine
end

section
/-! PROOFS. How much a flow report moves between bins and into a berth, and what a report into a berth posts to the cargo,
the manifest, the position and the lots (R9, R11, R119, R157). -/

namespace Sys2Proof.Machine

/-! ### Holders of a bin -/

/-- A holder after a change of the first of its name. -/
theorem find?_modFirst (who : HolderRef) (f : Holder → Holder) (hf : ∀ h, (f h).who = h.who) (hs : List Holder) :
    (modFirst who f hs).find? (fun h => h.who == who) = (hs.find? fun h => h.who == who).map f := by
  induction hs with
  | nil => rfl
  | cons h rest ih =>
    unfold modFirst
    by_cases he : h.who = who
    · rw [if_pos he, List.find?_cons_of_pos (by simp [hf, he]), List.find?_cons_of_pos (by simp [he])]
      rfl
    · rw [if_neg he, List.find?_cons_of_neg (by simp [he]), List.find?_cons_of_neg (by simp [he]), ih]

theorem Bin.held_modHolder (x : Bin) (who : HolderRef) (f : Holder → Holder) (hf : ∀ h, (f h).who = h.who) :
    (x.modHolder who f).held who = (x.held who).map f := find?_modFirst who f hf x.holders

/-! ### Between two bins -/

section Bins
variable (s : State) {t : Transfer} {a d : BinNo}

theorem selfTurn_other (hs : t.source = .bin a) (hd : t.dest = .bin d) (hne : a ≠ d) : t.selfTurn = false := by
  unfold Transfer.selfTurn; rw [hs, hd]; simpa using hne

/-- The piece taken from a bin by a transfer that is no self-turn. -/
theorem takePiece_bin (hs : t.source = .bin a) (ht : t.selfTurn = false) (x : Nat) :
    s.takePiece t x = (s.draw a x).2 := by
  unfold State.takePiece
  rw [hs]
  simp [ht]

/-- A piece moved between two bins: drawn from the one, put into the other. -/
theorem movePiece_bin (hs : t.source = .bin a) (hd : t.dest = .bin d) (hne : a ≠ d) {p : Portion} {x : Nat} :
    s.movePiece t p x = ((s.draw a x).2.deposit d (.transfer t.id) { p with kg := x } false).map fun v =>
      v.setBin d ((v.bin d).modHolder (.transfer t.id) fun h => { h with kg := h.kg - x }) := by
  have hself := selfTurn_other hs hd hne
  unfold State.movePiece
  rw [hd]
  simp only [takePiece_bin s hs hself, hself, Bool.false_and]

/-- The source's bottom layer. -/
theorem nextPiece_bin (hs : t.source = .bin a) {p : Portion} (h : s.nextPiece t.source = some p) :
    ∃ l rest, (s.bin a).layers = l :: rest ∧ p = l.piece l.kg := by
  rw [hs] at h
  unfold State.nextPiece at h
  obtain ⟨l, hl, rfl⟩ := Option.map_eq_some_iff.1 h
  cases hb : (s.bin a).layers with
  | nil => rw [hb] at hl; cases hl
  | cons m rest => rw [hb] at hl; cases hl; exact ⟨l, rest, rfl, rfl⟩

/-- The stack a draw leaves. -/
theorem layers_draw (b : BinNo) (q : Nat) : ((s.draw b q).2.bin b).layers = (drawLayers (s.bin b).layers q).2 := by
  rw [bin_draw, if_pos rfl, Bin.reevaluate_layers]

/-- A piece moved between two bins leaves the one and joins the other. -/
theorem movePiece_bins (hs : t.source = .bin a) (hd : t.dest = .bin d) (hne : a ≠ d) {p : Portion} {x : Nat} {u : State}
    (h : s.movePiece t p x = some u) :
    (u.bin a).layers = (drawLayers (s.bin a).layers x).2 ∧ (u.bin d).contents = (s.bin d).contents + x := by
  rw [movePiece_bin s hs hd hne] at h
  obtain ⟨v, hv, rfl⟩ := Option.map_eq_some_iff.1 h
  have hdep := deposited _ hv
  constructor
  · rw [State.bin_setBin_other _ hne, hdep.others a hne, layers_draw]
  · rw [State.bin_setBin_same]
    refine hdep.contents.trans ?_
    rw [bin_draw, if_neg hne.symm]

theorem movePieces_bins (hs : t.source = .bin a) (hd : t.dest = .bin d) (hne : a ≠ d) (rounds movable : Nat) :
    let r := s.movePieces t rounds movable
    (r.2.bin a).contents + r.1 = (s.bin a).contents ∧ (r.2.bin d).contents = (s.bin d).contents + r.1 := by
  refine movePieces_induction
    (R := fun m s u => (u.bin a).contents + m = (s.bin a).contents ∧ (u.bin d).contents = (s.bin d).contents + m)
    (fun _ => ⟨rfl, rfl⟩) (fun s p x s1 m u hp hx _ h1 _ hr => ?_) rounds movable s
  obtain ⟨l, rest, hl, rfl⟩ := nextPiece_bin s hs hp
  obtain ⟨hla, hcd⟩ := movePiece_bins s hs hd hne h1
  have hla' : (s1.bin a).contents + x = (s.bin a).contents := by
    unfold Bin.contents; rw [hla, hl]; exact drawLayers_bottom hx
  obtain ⟨h2, h3⟩ := hr
  omega

/-- A holder with a slot for every layer of the source takes all that is asked of it (R33, R119). -/
theorem movePieces_bins_all (hs : t.source = .bin a) (hd : t.dest = .bin d) (hne : a ≠ d) (rounds movable : Nat)
    (hpos : ∀ l ∈ (s.bin a).layers, 1 ≤ l.kg) (hr : (s.bin a).layers.length ≤ rounds) (hm : movable ≤ (s.bin a).contents)
    {h : Holder}
    (hh : (s.bin d).held (.transfer t.id) = some h) (hsl : (s.bin a).layers.length ≤ h.slots) :
    (s.movePieces t rounds movable).1 = movable := by
  induction rounds generalizing movable s h with
  | zero =>
    have : (s.bin a).layers = [] := List.eq_nil_of_length_eq_zero (by omega)
    unfold Bin.contents at hm
    rw [this] at hm
    exact (Nat.le_zero.1 hm).symm
  | succ n ih =>
    unfold State.movePieces
    split
    · next hz => exact hz.symm
    · next hz =>
      cases hl : (s.bin a).layers with
      | nil => unfold Bin.contents at hm; rw [hl] at hm; exact absurd (Nat.le_zero.1 hm) hz
      | cons l rest =>
        have hp : s.nextPiece t.source = some (l.piece l.kg) := by rw [hs]; simp [State.nextPiece, hl]
        rw [hl, List.length_cons] at hr hsl
        rw [hp]
        dsimp only
        set x := min movable (l.piece l.kg).kg with hx
        have hxl : x ≤ l.kg := min_le_right _ _
        obtain ⟨v, hv⟩ := deposit_isSome (s.draw a x).2 (b := d) (who := .transfer t.id) (h := h)
          (by rw [bin_draw, if_neg hne.symm]; exact hh) (by omega) { l.piece l.kg with kg := x } false
        obtain ⟨u, hu, h1⟩ : ∃ u, u = v.setBin d ((v.bin d).modHolder (.transfer t.id) fun h => { h with kg := h.kg - x }) ∧
            s.movePiece t (l.piece l.kg) x = some u :=
          ⟨_, rfl, (movePiece_bin s hs hd hne).trans (by rw [hv]; rfl)⟩
        rw [h1]
        dsimp only
        have hlay : (u.bin a).layers = (drawLayers (l :: rest) x).2 := by
          rw [(movePiece_bins s hs hd hne h1).1, hl]
        have hheld : ∃ h', (u.bin d).held (.transfer t.id) = some h' ∧ h.slots ≤ h'.slots + 1 := by
          have hdraw : ((s.draw a x).2.bin d).held (.transfer t.id) = some h := by
            rw [bin_draw, if_neg hne.symm]; exact hh
          rw [hu, State.bin_setBin_same, Bin.held_modHolder _ _ _ fun _ => by rfl]
          have hn (w : State) (c : Bool) : (w.noteOverfull c d).bin d = w.bin d := by
            unfold State.noteOverfull; rw [raiseIf_frame]; rfl
          rcases deposit_cases _ hv with ⟨r, top, -, -, -, rfl⟩ | ⟨k, -, -, rfl⟩
          · rw [hn, State.bin_setBin_same]
            exact ⟨_, by rw [show (((s.draw a x).2.bin d).merge r top _).held (.transfer t.id) = some h from hdraw]; rfl,
              by simp⟩
          · rw [hn]
            show ∃ h', Option.map _ ((State.bin (State.setBin _ d _) d).held (.transfer t.id)) = some h' ∧ _
            rw [State.bin_setBin_same]
            have : (((s.draw a x).2.bin d).stack (.transfer t.id) { l.piece l.kg with kg := x }).held (.transfer t.id) =
                some { h with slots := h.slots - 1 } := by
              refine (Bin.held_modHolder ((s.draw a x).2.bin d) _ _ fun _ => by rfl).trans ?_
              rw [hdraw]; rfl
            rw [this]
            exact ⟨_, rfl, by dsimp only; omega⟩
        rcases Nat.lt_or_eq_of_le hxl with hlt | heq
        · have hxm : x = movable := by simp only [hx, Layer.piece] at hlt ⊢; omega
          rw [hxm, Nat.sub_self, movePieces_zero]; rfl
        · obtain ⟨h', hh', hs'⟩ := hheld
          have hrest : (drawLayers (l :: rest) x).2 = rest := by
            have hx0 : x ≠ 0 := by have := hpos l (by rw [hl]; exact List.mem_cons_self); omega
            rw [drawLayers, if_neg hx0, if_pos heq.ge, heq, Nat.sub_self, drawLayers_zero]
          have hc : (u.bin a).contents + x = (s.bin a).contents := by
            unfold Bin.contents; rw [hlay, hl]; exact drawLayers_bottom hxl
          have hxm : x ≤ movable := min_le_left _ _
          have hlen : (u.bin a).layers.length = rest.length := by rw [hlay, hrest]
          have hle : movable - x ≤ (u.bin a).contents := by omega
          have hp' : ∀ m ∈ (u.bin a).layers, 1 ≤ m.kg := by
            rw [hlay, hrest]; exact fun m hm => hpos m (by rw [hl]; exact List.mem_cons_of_mem _ hm)
          have := ih u (movable - x) hp' (by omega) hle hh' (by omega)
          omega

end Bins

end Sys2Proof.Machine
end

section
/-! PROOFS. What a flow report into a berth posts: the cargo, the manifest, the current position, the lots and
POSITION_FULL (R9, R11, R157). -/

namespace Sys2Proof.Machine

/-! ### A berth loaded with pieces, one after another -/

section Load

theorem Berth.loadPosition_rest (b : Berth) (kg : Nat) : b.loadPosition kg = { b with plan := (b.loadPosition kg).plan } := by
  unfold Berth.loadPosition
  split
  · split <;> rfl
  · rfl

/-- A piece leaves all of a berth but its cargo, its manifest and its plan. -/
theorem Berth.load_frame (b : Berth) (p : Portion) : b.load p = { b with
    cargo := b.cargo.add p.kg p.moisture p.testWeight
    manifest := addManifest p.lot p.kg b.manifest, plan := (b.loadPosition p.kg).plan } := by
  unfold Berth.load
  rw [Berth.loadPosition_rest]

theorem foldl_load_frame (ps : List Portion) (b : Berth) : ps.foldl Berth.load b = { b with
    cargo := (ps.foldl Berth.load b).cargo, manifest := (ps.foldl Berth.load b).manifest
    plan := (ps.foldl Berth.load b).plan } := by
  induction ps generalizing b with
  | nil => rfl
  | cons p ps ih => rw [List.foldl_cons, ih, Berth.load_frame]

theorem foldl_load_cargo (ps : List Portion) (b : Berth) : (ps.foldl Berth.load b).cargo =
    { q := b.cargo.q + (ps.map Portion.kg).sum, s := b.cargo.s + (ps.map fun p => p.kg * p.moisture).sum
      t := b.cargo.t + (ps.map fun p => p.kg * p.testWeight).sum } := by
  induction ps generalizing b with
  | nil => rfl
  | cons p ps ih =>
    rw [List.foldl_cons, ih]
    simp [Berth.load, Cargo.add, Nat.add_assoc]

/-- The position an index names takes what the pieces come to. -/
theorem foldl_load_plan {ps : List Position} {n : Nat} (xs : List Portion) {b : Berth} (hp : b.plan = some ps)
    (hc : b.current = some (n + 1)) : (xs.foldl Berth.load b).plan =
      some (ps.modify n fun p => { p with loaded := p.loaded + (xs.map Portion.kg).sum }) := by
  induction xs generalizing b ps with
  | nil =>
    rw [List.foldl_nil, hp]
    exact congrArg some (List.modify_id n ps).symm
  | cons x xs ih =>
    have hl : (b.load x).plan = some (ps.modify n fun p => { p with loaded := p.loaded + x.kg }) := by
      simp [Berth.load, Berth.loadPosition, hp, hc]
    have hlc : (b.load x).current = some (n + 1) := by rw [Berth.load_frame]; exact hc
    rw [List.foldl_cons, ih hl hlc, List.modify_modify_eq]
    simp [Function.comp_def, Nat.add_assoc]

/-- The lots of a manifest to which kilograms of a lot have been added. -/
theorem addManifest_lots (n kg : Nat) (m : List Manifested) : (addManifest n kg m).map Manifested.lot =
    if n ∈ m.map Manifested.lot then m.map Manifested.lot else m.map Manifested.lot ++ [n] := by
  unfold addManifest
  by_cases h : n ∈ m.map Manifested.lot
  · have ha : (m.any fun e => e.lot == n) = true := by simpa using h
    rw [if_pos ha, if_pos h, List.map_map]
    refine List.map_congr_left fun e _ => ?_
    dsimp only [Function.comp]
    split <;> rfl
  · have ha : ¬ (m.any fun e => e.lot == n) = true := by simpa using h
    rw [if_neg ha, if_neg h]
    simp

/-- The kilograms of a lot in a manifest. -/
def manifestKg (n : Nat) (m : List Manifested) : Nat := ((m.filter fun e => e.lot == n).map Manifested.kg).sum

theorem manifestKg_cons (n : Nat) (e : Manifested) (m : List Manifested) :
    manifestKg n (e :: m) = (if e.lot = n then e.kg else 0) + manifestKg n m := by
  unfold manifestKg
  by_cases h : e.lot = n <;> simp [h]

/-- Kilograms added to a lot's one entry are those of that lot alone. -/
theorem manifestKg_addManifest {m : List Manifested} (h : (m.map Manifested.lot).Nodup) (k kg n : Nat) :
    manifestKg n (addManifest k kg m) = manifestKg n m + if k = n then kg else 0 := by
  unfold addManifest
  split
  · next ha =>
    have hk : k ∈ m.map Manifested.lot := by simpa using ha
    clear ha
    induction m with
    | nil => cases hk
    | cons e m ih =>
      obtain ⟨hnot, hm⟩ := List.nodup_cons.1 h
      rw [List.map_cons, manifestKg_cons, manifestKg_cons]
      by_cases he : e.lot = k
      · have hsame : (m.map fun e => if e.lot = k then { e with kg := e.kg + kg } else e) = m := by
          refine (List.map_congr_left fun x hx => if_neg fun e' => hnot ?_).trans (List.map_id m)
          rw [he, ← e']; exact List.mem_map_of_mem hx
        rw [if_pos he, hsame]
        by_cases hn : k = n
        · simp [he, hn]; omega
        · simp [he, hn]
      · rw [if_neg he, ih hm (by simpa [Ne.symm he] using hk)]
        omega
  · unfold manifestKg
    by_cases hn : k = n <;> simp [hn]

theorem addManifest_nodup {m : List Manifested} (h : (m.map Manifested.lot).Nodup) (n kg : Nat) :
    ((addManifest n kg m).map Manifested.lot).Nodup := by
  rw [addManifest_lots]
  split
  · exact h
  · next hn => exact List.nodup_append.2 ⟨h, List.nodup_singleton n, by
      intro a ha b hb; rw [List.mem_singleton.1 hb]; rintro rfl; exact hn ha⟩

/-- The lots of a loaded berth's manifest: those it had, and each new one once. -/
theorem foldl_load_lots (ps : List Portion) (b : Berth) :
    ∃ new, (ps.foldl Berth.load b).manifest.map Manifested.lot = b.manifest.map Manifested.lot ++ new ∧ new.Nodup ∧
      ∀ n, n ∈ new ↔ n ∈ ps.map Portion.lot ∧ n ∉ b.manifest.map Manifested.lot := by
  induction ps generalizing b with
  | nil => exact ⟨[], by simp⟩
  | cons p ps ih =>
    obtain ⟨new, h1, h2, h3⟩ := ih (b.load p)
    have hm : (b.load p).manifest.map Manifested.lot = _ := addManifest_lots p.lot p.kg b.manifest
    rw [List.foldl_cons, h1]
    by_cases hp : p.lot ∈ b.manifest.map Manifested.lot
    · rw [hm, if_pos hp]
      refine ⟨new, rfl, h2, fun n => ?_⟩
      rw [h3, hm, if_pos hp, List.map_cons, List.mem_cons]
      constructor
      · exact fun ⟨h, h'⟩ => ⟨.inr h, h'⟩
      · rintro ⟨rfl | h, h'⟩
        · exact absurd hp h'
        · exact ⟨h, h'⟩
    · rw [hm, if_neg hp]
      have hiff (n : Nat) : n ∈ new ↔ n ∈ ps.map Portion.lot ∧ n ∉ b.manifest.map Manifested.lot ∧ n ≠ p.lot := by
        rw [h3, hm, if_neg hp, List.mem_append, List.mem_singleton, not_or]
      refine ⟨p.lot :: new, by simp, List.nodup_cons.2 ⟨fun h => ((hiff _).1 h).2.2 rfl, h2⟩, fun n => ?_⟩
      rw [List.mem_cons, hiff, List.map_cons, List.mem_cons]
      by_cases hn : n = p.lot
      · subst hn; simp [hp]
      · simp [hn]

theorem foldl_load_manifestKg (ps : List Portion) {b : Berth} (h : (b.manifest.map Manifested.lot).Nodup) (n : Nat) :
    manifestKg n (ps.foldl Berth.load b).manifest =
      manifestKg n b.manifest + ((ps.filter fun p => p.lot == n).map Portion.kg).sum := by
  induction ps generalizing b with
  | nil => simp
  | cons p ps ih =>
    rw [List.foldl_cons, ih (b := b.load p) (addManifest_nodup h _ _)]
    show manifestKg n (addManifest p.lot p.kg b.manifest) + _ = _
    rw [manifestKg_addManifest h]
    by_cases hn : p.lot = n <;> simp [hn]
    omega

end Load

/-! ### What one report draws from a bin and loads -/

section Report
variable (s : State) {t : Transfer} {a : BinNo} {k : BerthNo}

theorem selfTurn_berth (hd : t.dest = .berth k) : t.selfTurn = false := by
  unfold Transfer.selfTurn; rw [hd]; cases t.source <;> rfl

/-- A lot that has shipped kilograms, lost layers and taken manifest entries. -/
def Lot.shipOut (kg layers refs : Nat) (l : Lot) : Lot :=
  { l with
    shipped := l.shipped + kg, standing := l.standing - kg, layerCount := l.layerCount - layers
    manifestRefs := l.manifestRefs + refs }

theorem Lot.shipOut_shipOut (l : Lot) (a b c d e f : Nat) :
    (l.shipOut a b c).shipOut d e f = l.shipOut (a + d) (b + e) (c + f) := by
  simp [Lot.shipOut, Nat.add_assoc, Nat.sub_sub]

/-- The layers of a lot that a stack has lost from its bottom. -/
def lostLayers (n : Nat) (before after : List Layer) : Nat :=
  ((before.take (before.length - after.length)).filter fun x => x.lot == n).length

/-- The manifest entries that pieces of a lot make. -/
def newRefs (n : Nat) (ps : List Portion) (m : List Manifested) : Nat :=
  if (ps.filter fun p => p.lot == n) ≠ [] ∧ n ∉ m.map Manifested.lot then 1 else 0

/-- What a report of `m` kilograms from a bin into a berth posts. -/
structure Posted (a : BinNo) (k : BerthNo) (m : Nat) (s u : State) : Prop where
  layers : (u.bin a).layers = (drawLayers (s.bin a).layers m).2
  berth : u.berth k = (drawLayers (s.bin a).layers m).1.foldl Berth.load (s.berth k)
  lots : ∀ n, u.lot? n = (s.lot? n).map (Lot.shipOut
    (((drawLayers (s.bin a).layers m).1.filter fun p => p.lot == n).map Portion.kg).sum
    (lostLayers n (s.bin a).layers (u.bin a).layers)
    (newRefs n (drawLayers (s.bin a).layers m).1 (s.berth k).manifest))
  kept : ∀ f, f ≠ flagPositionFull k → u.flag f = s.flag f
  full : u.flag (flagPositionFull k) = true ↔ s.flag (flagPositionFull k) = true ∨
    ∃ p, (s.berth k).currentPosition = some p ∧ p.loaded < p.planned ∧ p.planned ≤ p.loaded + m

theorem Posted.none (a : BinNo) (k : BerthNo) : Posted a k 0 s s where
  layers := by rw [drawLayers_zero]
  berth := by rw [drawLayers_zero]; rfl
  lots n := by
    rw [drawLayers_zero]
    have hl : lostLayers n (s.bin a).layers (s.bin a).layers = 0 := by simp [lostLayers]
    rw [hl]
    exact (congrFun Option.map_id (s.lot? n)).symm
  kept _ _ := rfl
  full := by
    constructor
    · exact .inl
    · rintro (h | ⟨p, -, h1, h2⟩)
      · exact h
      · omega

theorem takePiece_berths (t : Transfer) (x : Nat) : (s.takePiece t x).berths = s.berths := by
  unfold State.takePiece
  split
  · unfold State.drawPortion; split
    · rfl
    · split
      · rfl
      · split <;> rfl
  · dsimp only
    split
    · show (s.draw _ x).2.berths = s.berths
      rw [draw_frame]
    · rw [draw_frame]

/-- A piece taken from a bin and loaded. -/
theorem movePiece_berth (hs : t.source = .bin a) (hd : t.dest = .berth k) {p : Portion} {x : Nat} {u : State}
    (h : s.movePiece t p x = some u) : u = (s.draw a x).2.loadPiece k { p with kg := x } := by
  unfold State.movePiece at h
  rw [hd] at h
  dsimp only at h
  split at h
  · cases h
  · cases h
    rw [takePiece_bin s hs (selfTurn_berth hd)]

theorem lot?_loadPiece (p : Portion) (n : Nat) : (s.loadPiece k p).lot? n = (s.lot? n).map
    (Lot.shipOut (if p.lot = n then p.kg else 0) 0 (newRefs n [p] (s.berth k).manifest)) := by
  unfold State.loadPiece
  dsimp only
  rw [State.lot?_congr (State.raiseIf_lots _ _ _), State.lot?_modLot _ _ _ fun l => by split <;> rfl]
  refine congrArg (Option.map · (s.lot? n)) (funext fun l => ?_)
  by_cases hn : n = p.lot
  · subst hn
    by_cases hm : p.lot ∈ (s.berth k).manifest.map Manifested.lot
    · have ha : ((s.berth k).manifest.any fun e => e.lot == p.lot) = true := by simpa using hm
      simp [newRefs, hm, ha, Lot.shipOut, Lot.ship]
    · have ha : ((s.berth k).manifest.any fun e => e.lot == p.lot) = false := by
        simpa only [Bool.eq_false_iff, ne_eq, List.any_eq_true, beq_iff_eq, List.mem_map] using hm
      simp [newRefs, hm, ha, Lot.shipOut, Lot.ship, Lot.addManifest]
  · simp [newRefs, hn, Ne.symm hn, Lot.shipOut]

theorem flag_loadPiece (p : Portion) (f : Flag) : (s.loadPiece k p).flag f =
    ((s.berth k).fillsPosition p.kg && decide (f = flagPositionFull k) || s.flag f) := by
  unfold State.loadPiece
  dsimp only
  rw [State.flag_raiseIf]
  rfl

/-- The current position after a piece. -/
theorem Berth.load_currentPosition (b : Berth) (p : Portion) :
    (b.load p).currentPosition = b.currentPosition.map fun q => { q with loaded := q.loaded + p.kg } := by
  rw [Berth.load_frame]
  unfold Berth.currentPosition Berth.loadPosition
  dsimp only
  cases hp : b.plan with
  | none => simp [hp]
  | some ps =>
    cases hc : b.current with
    | none => simp
    | some n =>
      by_cases hn : n = 0
      · simp [hp, hn]
      · simp [hn]

theorem Berth.fillsPosition_iff (b : Berth) (kg : Nat) : b.fillsPosition kg = true ↔
    ∃ p, b.currentPosition = some p ∧ p.loaded < p.planned ∧ p.planned ≤ p.loaded + kg := by
  unfold Berth.fillsPosition
  cases b.currentPosition <;> simp

/-- One piece, drawn and loaded, and what is posted after it. -/
theorem Posted.piece {l : Layer} {rest : List Layer} (hl : (s.bin a).layers = l :: rest) {x m : Nat} (h1 : 1 ≤ x)
    (hx : x ≤ l.kg) (hm : x < l.kg → m = 0) {u : State}
    (h : Posted a k m ((s.draw a x).2.loadPiece k { l.piece l.kg with kg := x }) u) : Posted a k (x + m) s u := by
  set v := (s.draw a x).2.loadPiece k { l.piece l.kg with kg := x } with hv
  have hp : ({ l.piece l.kg with kg := x } : Portion) = l.piece x := rfl
  rw [hp] at hv
  have hvl : (v.bin a).layers = (drawLayers (l :: rest) x).2 := by
    have : v.bin a = (s.draw a x).2.bin a := by unfold State.bin; rw [hv, loadPiece_frame]
    rw [this, layers_draw, hl]
  have hdb : (s.draw a x).2.berth k = s.berth k := by unfold State.berth; rw [draw_frame]
  have hvb : v.berth k = (s.berth k).load (l.piece x) := by rw [hv, berth_loadPiece, if_pos rfl, hdb]
  have hdf (f : Flag) : (s.draw a x).2.flag f = s.flag f := State.flag_congr (by rw [draw_frame]) f
  have hvf (f : Flag) : v.flag f = _ := (congrArg (State.flag · f) hv).trans (flag_loadPiece _ _ f)
  have hsplit := drawLayers_add (rest := rest) h1 hx hm
  rw [← hl] at hsplit hvl
  have hdrawn : (drawLayers (s.bin a).layers (x + m)).1 = l.piece x :: (drawLayers (v.bin a).layers m).1 := by
    rw [hsplit, hvl]
  have hleft : (drawLayers (s.bin a).layers (x + m)).2 = (drawLayers (v.bin a).layers m).2 := by rw [hsplit, hvl]
  refine ⟨?layers, ?berth, ?lots, ?kept, ?full⟩
  case layers => rw [h.layers, hleft]
  case berth => rw [h.berth, hdrawn, List.foldl_cons, hvb]
  case lots =>
    intro n
    have hlost : lostLayers n (s.bin a).layers (u.bin a).layers =
        lostLayers n (s.bin a).layers (v.bin a).layers + lostLayers n (v.bin a).layers (u.bin a).layers := by
      have hle := drawLayers_length (v.bin a).layers m
      rw [← h.layers] at hle
      rcases Nat.lt_or_eq_of_le hx with hlt | heq
      · have hu : (u.bin a).layers = (v.bin a).layers := by rw [h.layers, hm hlt, drawLayers_zero]
        rw [hu]; simp [lostLayers]
      · have hvr : (v.bin a).layers = rest := by
          rw [hvl, hl, drawLayers, if_neg (by omega), if_pos heq.ge, heq, Nat.sub_self, drawLayers_zero]
        rw [hvr] at hle
        rw [hvr, hl]
        unfold lostLayers
        rw [show (l :: rest).length - (u.bin a).layers.length = (rest.length - (u.bin a).layers.length) + 1 by
          rw [List.length_cons]; omega, show (l :: rest).length - rest.length = 1 by rw [List.length_cons]; omega]
        by_cases hn : l.lot = n <;> simp [hn]
        omega
    have hrefs : newRefs n (drawLayers (s.bin a).layers (x + m)).1 (s.berth k).manifest =
        newRefs n [l.piece x] (s.berth k).manifest + newRefs n (drawLayers (v.bin a).layers m).1 (v.berth k).manifest := by
      have hlots : (v.berth k).manifest.map Manifested.lot = _ :=
        (congrArg (fun b : Berth => b.manifest.map Manifested.lot) hvb).trans (addManifest_lots _ _ _)
      unfold newRefs
      rw [hdrawn, hlots]
      by_cases hn : l.lot = n
      · subst hn
        by_cases hmem : l.lot ∈ (s.berth k).manifest.map Manifested.lot <;> simp [Layer.piece, hmem]
      · by_cases hmem : l.lot ∈ (s.berth k).manifest.map Manifested.lot <;>
          simp [Layer.piece, hmem, hn, Ne.symm hn]
    have hkg : (((drawLayers (s.bin a).layers (x + m)).1.filter fun p => p.lot == n).map Portion.kg).sum =
        (if l.lot = n then x else 0) +
          (((drawLayers (v.bin a).layers m).1.filter fun p => p.lot == n).map Portion.kg).sum := by
      rw [hdrawn]
      by_cases hn : l.lot = n <;> simp [Layer.piece, hn]
    have hvlot : v.lot? n = (s.lot? n).map (Lot.shipOut (if l.lot = n then x else 0)
        (lostLayers n (s.bin a).layers (v.bin a).layers) (newRefs n [l.piece x] (s.berth k).manifest)) := by
      rw [hv, lot?_loadPiece, lot?_draw, Option.map_map, hdb, ← hv, hvl]
      refine congrArg (Option.map · (s.lot? n)) (funext fun y => ?_)
      simp [Lot.shipOut, lostLayers, Layer.piece]
      exact ⟨rfl, rfl⟩
    rw [h.lots, hvlot, Option.map_map, hlost, hrefs, hkg]
    exact congrArg (Option.map · (s.lot? n)) (funext fun y => Lot.shipOut_shipOut y _ _ _ _ _ _)
  case kept =>
    intro f hf
    rw [h.kept f hf, hvf, hdf]
    simp [hf]
  case full =>
    have hcur : (v.berth k).currentPosition = _ := (congrArg Berth.currentPosition hvb).trans (Berth.load_currentPosition _ _)
    rw [h.full, hvf, hdf, hdb, hcur]
    simp only [decide_true, Bool.and_true, Bool.or_eq_true, Berth.fillsPosition_iff]
    cases hc : (s.berth k).currentPosition with
    | none => simp
    | some q =>
      simp only [Option.some.injEq, exists_eq_left', Option.map_some, Layer.piece]
      constructor
      · rintro ((⟨h1, h2⟩ | h1) | ⟨h1, h2⟩)
        · exact .inr ⟨h1, by omega⟩
        · exact .inl h1
        · exact .inr ⟨by omega, by omega⟩
      · rintro (h1 | ⟨h1, h2⟩)
        · exact .inl (.inr h1)
        · by_cases hq : q.planned ≤ q.loaded + x
          · exact .inl (.inl ⟨h1, hq⟩)
          · exact .inr ⟨by omega, by omega⟩

/-- What the pieces of a report into a berth post. -/
theorem movePieces_posted (hs : t.source = .bin a) (hd : t.dest = .berth k) (rounds movable : Nat)
    (hpos : ∀ l ∈ (s.bin a).layers, 1 ≤ l.kg) :
    Posted a k (s.movePieces t rounds movable).1 s (s.movePieces t rounds movable).2 := by
  refine movePieces_induction (R := fun m s u => (∀ l ∈ (s.bin a).layers, 1 ≤ l.kg) → Posted a k m s u)
    (fun s _ => Posted.none s a k) (fun s p x s1 m u hp hx hx1 h1 hm hr hpos => ?_) rounds movable s hpos
  obtain ⟨l, rest, hl, rfl⟩ := nextPiece_bin s hs hp
  have e := movePiece_berth s hs hd h1
  subst e
  refine Posted.piece s hl (hx1 (hpos l (by rw [hl]; exact List.mem_cons_self))) hx hm (hr ?_)
  have : ((s.draw a x).2.loadPiece k { l.piece l.kg with kg := x }).bin a = (s.draw a x).2.bin a := by
    unfold State.bin; rw [loadPiece_frame]
  rw [this, layers_draw]
  exact (drawLayers_pos _ _ hpos).2

/-- A manifest with room for every layer of the source takes all that is asked of it (R119, R157). -/
theorem movePieces_berth_all (hs : t.source = .bin a) (hd : t.dest = .berth k) (rounds movable : Nat)
    (hpos : ∀ l ∈ (s.bin a).layers, 1 ≤ l.kg) (hr : (s.bin a).layers.length ≤ rounds)
    (hm : movable ≤ (s.bin a).contents) (hroom : (s.berth k).manifest.length + (s.bin a).layers.length ≤ 16) :
    (s.movePieces t rounds movable).1 = movable := by
  induction rounds generalizing movable s with
  | zero =>
    have : (s.bin a).layers = [] := List.eq_nil_of_length_eq_zero (by omega)
    unfold Bin.contents at hm
    rw [this] at hm
    exact (Nat.le_zero.1 hm).symm
  | succ n ih =>
    unfold State.movePieces
    split
    · next hz => exact hz.symm
    · next hz =>
      cases hl : (s.bin a).layers with
      | nil => unfold Bin.contents at hm; rw [hl] at hm; exact absurd (Nat.le_zero.1 hm) hz
      | cons l rest =>
        have hp : s.nextPiece t.source = some (l.piece l.kg) := by rw [hs]; simp [State.nextPiece, hl]
        have hlpos : 1 ≤ l.kg := hpos l (by rw [hl]; exact List.mem_cons_self)
        rw [hl, List.length_cons] at hr hroom
        rw [hp]
        dsimp only
        set x := min movable (l.piece l.kg).kg with hx
        have hxl : x ≤ l.kg := min_le_right _ _
        have hxm : x ≤ movable := min_le_left _ _
        have hnot : (s.berth k).refusesPiece { l.piece l.kg with kg := x } = false := by
          have hfew : ¬ Config.maxManifest ≤ (s.berth k).manifest.length := by unfold Config.maxManifest; omega
          simp [Berth.refusesPiece, hfew]
        obtain ⟨u, hu, h1⟩ : ∃ u, u = (s.draw a x).2.loadPiece k { l.piece l.kg with kg := x } ∧
            s.movePiece t (l.piece l.kg) x = some u := by
          refine ⟨_, rfl, ?_⟩
          unfold State.movePiece
          rw [hd]
          dsimp only
          rw [hnot, takePiece_bin s hs (selfTurn_berth hd)]
          rfl
        rw [h1]
        dsimp only
        have hlay : (u.bin a).layers = (drawLayers (l :: rest) x).2 := by
          have : u.bin a = (s.draw a x).2.bin a := by unfold State.bin; rw [hu, loadPiece_frame]
          rw [this, layers_draw, hl]
        rcases Nat.lt_or_eq_of_le hxl with hlt | heq
        · have hxm : x = movable := by simp only [hx, Layer.piece] at hlt ⊢; omega
          rw [hxm, Nat.sub_self, movePieces_zero]; rfl
        · have hrest : (drawLayers (l :: rest) x).2 = rest := by
            rw [drawLayers, if_neg (by omega), if_pos heq.ge, heq, Nat.sub_self, drawLayers_zero]
          have hc : (u.bin a).contents + x = (s.bin a).contents := by
            unfold Bin.contents; rw [hlay, hl]; exact drawLayers_bottom hxl
          have hman : (u.berth k).manifest.length ≤ (s.berth k).manifest.length + 1 := by
            have hb : (s.draw a x).2.berth k = s.berth k := by unfold State.berth; rw [draw_frame]
            have hlots := addManifest_lots l.lot x (s.berth k).manifest
            have hlen := congrArg List.length hlots
            rw [hu, berth_loadPiece, if_pos rfl, hb]
            show (addManifest l.lot x (s.berth k).manifest).length ≤ _
            rw [List.length_map] at hlen
            rw [hlen]
            split <;> simp
          have hlen : (u.bin a).layers.length = rest.length := by rw [hlay, hrest]
          have hp' : ∀ m ∈ (u.bin a).layers, 1 ≤ m.kg := by
            rw [hlay, hrest]; exact fun m hm => hpos m (by rw [hl]; exact List.mem_cons_of_mem _ hm)
          have := ih u (movable - x) hp' (by omega) (by omega) (by omega)
          omega

end Report

/-! ### The report -/

/-- A report that reaches a RUNNING transfer (R118). -/
theorem actFlowReport_running (s : State) {st : StationNo} {l : LegNo} {kg : Nat} {t : Transfer} (h1 : 1 ≤ kg)
    (h2 : kg ≤ 65535) (ha : (s.leg l).active = some t) (hr : t.state = .running) :
    actFlowReport st (l.val, kg) s = s.flowReport l t kg := by
  have hrun : (s.leg l).running? = some t := by simp [Leg.running?, ha, hr]
  unfold actFlowReport
  rw [index_val]
  dsimp only
  rw [if_neg (by omega), hrun]

/-- The leg's judgement is COMPLETE or SOURCE_EMPTY (R121). -/
theorem judge_cases {s : State} {t : Transfer} {e : EndReason} (h : s.judge t = some e) :
    e = .complete ∨ e = .sourceEmpty := by
  unfold State.judge at h
  dsimp only at h
  split_ifs at h <;> cases h
  · exact .inl rfl
  · exact .inr rfl

/-- A report's end is COMPLETE exactly when the target is reached (R121). -/
theorem reportEnd_complete (s : State) (t : Transfer) : s.reportEnd t = some .complete ↔ t.target ≤ t.delivered := by
  have hj : s.judge t = some .complete ↔ t.target ≤ t.delivered := by
    unfold State.judge
    dsimp only
    split_ifs with h1 h2 <;> simp [h1]
  rw [← hj]
  unfold State.reportEnd
  cases s.judge t with
  | some e => exact Iff.rfl
  | none =>
    cases t.berth? with
    | none => exact Iff.rfl
    | some k => dsimp only; split <;> simp

/-- A berth's overdraft ends a transfer only past the load limit, and does when nothing else ends it (R158). -/
theorem reportEnd_berth (s : State) {t : Transfer} {k : BerthNo} (hk : t.berth? = some k) :
    (¬ (s.berth k).loadLimit < (s.berth k).cargo.q → s.reportEnd t ≠ some .overdraft) ∧
      ((s.berth k).loadLimit < (s.berth k).cargo.q → s.reportEnd t ≠ some .complete →
        s.reportEnd t ≠ some .sourceEmpty → s.reportEnd t = some .overdraft) := by
  unfold State.reportEnd
  rw [hk]
  cases hg : s.judge t with
  | some e => rcases judge_cases hg with rfl | rfl <;> simp
  | none =>
    dsimp only
    constructor
    · intro h; rw [if_neg h]; simp
    · intro h _ _; rw [if_pos h]

/-- The check of the load limit that follows a report into a berth (R158). -/
theorem overdraftCheck_berth (s : State) (k : BerthNo) (live : Bool) :
    ((s.overdraftCheck k live).berth k).overLimit =
        (decide ((s.berth k).loadLimit < (s.berth k).cargo.q) || (s.berth k).overLimit) ∧
      ((s.berth k).loadLimit < (s.berth k).cargo.q → live = true →
        ((s.overdraftCheck k live).berth k).state = .halted .overdraft) ∧
      ∀ f, (s.overdraftCheck k live).flag f = (s.flag f ||
        (decide ((s.berth k).loadLimit < (s.berth k).cargo.q) && !(s.berth k).overLimit && decide (f = flagOverdraft k))) := by
  by_cases h : (s.berth k).loadLimit < (s.berth k).cargo.q
  · have hr (v : State) (c : Bool) (g : Flag) (j : BerthNo) : (v.raiseIf c g).berth j = v.berth j := by
      rw [raiseIf_frame]; rfl
    have hf (c : Bool) (f : Flag) : (((s.setBerth k { s.berth k with overLimit := true }).raiseIf c (flagOverdraft k)).flag f) =
        (c && decide (f = flagOverdraft k) || s.flag f) := State.flag_raiseIf _ _ _ _
    unfold State.overdraftCheck State.haltBerth
    cases live
    · simp [h, hr, hf, Bool.or_comm]
    · refine ⟨by simp [h, hr], by simp [h], fun f => ?_⟩
      simp only [h, if_true]
      refine (hf _ f).trans ?_
      simp [Bool.or_comm]
  · unfold State.overdraftCheck
    simp [h]

/-- What follows the moving of a report, at the berth (R158). -/
theorem closeReport_berth (s : State) (l : LegNo) {t : Transfer} {k : BerthNo} (hk : t.berth? = some k)
    (reason : Option EndReason) :
    Settles (s.overdraftCheck k (reason == some .overdraft)) (s.closeReport l t reason) := by
  unfold State.closeReport
  rw [hk]
  cases reason with
  | none => exact .refl _
  | some e => exact endTransfers_settles _ _

/-- What follows the moving of a report lowers no flag. -/
theorem closeReport_kept (s : State) (l : LegNo) (t : Transfer) (reason : Option EndReason) {f : Flag}
    (h : s.flag f = true) : (s.closeReport l t reason).flag f = true := by
  cases hk : t.berth? with
  | some k =>
    refine (closeReport_berth s l hk reason).kept f ?_
    rw [(overdraftCheck_berth s k _).2.2, h, Bool.true_or]
  | none =>
    unfold State.closeReport
    rw [hk]
    cases reason with
    | none => exact h
    | some e => exact (endTransfers_settles _ _).kept f h

theorem positionFull_ne (k : BerthNo) :
    flagPositionFull k ≠ flagSourceShort ∧ flagPositionFull k ≠ flagOverdraft k := by revert k; decide

theorem ofEnds_positionFull (k : BerthNo) : (flagPositionFull k).ofEnds = false := by revert k; decide

/-- The state of a report before its end: its pieces moved, the transfer counted, SOURCE_SHORT set (R119). -/
theorem moveReport_frame (s : State) (l : LegNo) (t : Transfer) (kg : Nat) :
    let r := s.movePieces t (s.sourceRounds t.source) (min kg (s.supply t))
    let u := (s.moveReport l t kg).2
    (s.moveReport l t kg).1 = r.1 ∧ u = { r.2 with legs := u.legs, events := u.events } ∧
      ∀ f, u.flag f = (decide (min kg (s.supply t) < kg) && decide (f = flagSourceShort) || r.2.flag f) := by
  intro r u
  refine ⟨rfl, ?_, fun f => State.flag_raiseIf _ _ _ _⟩
  have hu : u = _ := raiseIf_frame (r.2.setLeg l { r.2.leg l with active := some (t.counted kg r.1) }) _ _
  rw [hu]; rfl

/-- Settles O47. -/
theorem flowReportMovesWithoutLoss : Obligations.FlowReportMovesWithoutLoss := by
  unfold Obligations.FlowReportMovesWithoutLoss
  intro s f l kg t hlaw h hd hk1 hk2 ha hrun
  obtain ⟨hmoved, hframe, hflag⟩ := moveReport_frame s l t kg
  set r := s.movePieces t (s.sourceRounds t.source) (min kg (s.supply t)) with hrdef
  set v := (s.moveReport l t kg).2 with hv
  set moved := (s.moveReport l t kg).1 with hm
  set t1 := t.counted kg moved with ht1
  set reason := v.reportEnd t1 with hreason
  have hq := closeReport_quiet v l t1 reason
  have hle : moved ≤ min kg (s.supply t) := movePieces_le t _ _ s
  have hvb (b : BinNo) : v.bin b = r.2.bin b := by rw [hframe]; rfl
  have hvk (k : BerthNo) : v.berth k = r.2.berth k := by rw [hframe]; rfl
  have hub (b : BinNo) : ((v.closeReport l t1 reason).bin b).layers = (r.2.bin b).layers := by
    rw [(hq.bins b).1, hvb]
  have huc (b : BinNo) : ((v.closeReport l t1 reason).bin b).contents = (r.2.bin b).contents := by
    unfold Bin.contents; rw [hub]
  have huk (k : BerthNo) : (r.2.berth k).sameCargo ((v.closeReport l t1 reason).berth k) := by
    rw [← hvk]; exact hq.berths k
  refine ⟨v.closeReport l t1 reason, moved, reason, ?answer, by omega, by omega, ?grain,
    fun he => (reportEnd_complete v t1).2 he, fun he => (reportEnd_complete v t1).1 he, ?short, ?bins, ?cargo, ?berth⟩
  case answer =>
    refine answered_of_act h hd ?_
    rw [actFlowReport_running s hk1 hk2 ha hrun, flowReport_eq]
    rfl
  case grain =>
    have hg : v.grain = r.2.grain := by rw [hframe]; rfl
    rw [hq.grain, hg]
    exact movePieces_grain s t _ _
  case short =>
    intro hs
    refine closeReport_kept v l t1 reason ?_
    rw [hflag]
    simp [show min kg (s.supply t) < kg by omega]
  case bins =>
    intro a d ho hsrc hdst hne hheld hslots horig
    have hsup : s.supply t = (s.bin a).contents := by unfold State.supply; rw [hsrc, horig]
    have hrounds : s.sourceRounds t.source = (s.bin a).layers.length := by rw [hsrc]; rfl
    obtain ⟨hba, hbd⟩ := movePieces_bins s hsrc hdst hne (s.sourceRounds t.source) (min kg (s.supply t))
    refine ⟨?_, by rw [huc]; exact hba, by rw [huc]; exact hbd⟩
    have := movePieces_bins_all s hsrc hdst hne (s.sourceRounds t.source) (min kg (s.supply t)) (hlaw.1 a).2 hrounds.ge
      (by omega) hheld hslots
    rw [← hsup]; exact this
  case cargo =>
    intro k hdst
    rw [(huk k).1]
    refine movePieces_induction (R := fun m s u => (u.berth k).cargo.q = (s.berth k).cargo.q + m) (fun _ => rfl)
      (fun w p x w1 m u _ _ _ h1 _ hr => ?_) _ _ s
    unfold State.movePiece at h1
    rw [hdst] at h1
    dsimp only at h1
    split at h1
    · cases h1
    · cases h1
      rw [hr, berth_loadPiece, if_pos rfl]
      have : (w.takePiece t x).berth k = w.berth k := by unfold State.berth; rw [takePiece_berths]
      rw [this]
      exact Nat.add_assoc _ _ _
  case berth =>
    intro a k hsrc hdst horig old drawn taken past
    have hsup : s.supply t = (s.bin a).contents := by unfold State.supply; rw [hsrc, horig]
    have hrounds : s.sourceRounds t.source = (s.bin a).layers.length := by rw [hsrc]; rfl
    have hpost : Posted a k moved s r.2 := movePieces_posted s hsrc hdst _ _ (hlaw.1 a).2
    have hberth : r.2.berth k = drawn.foldl Berth.load old := hpost.berth
    have hdrawn : (drawn.map Portion.kg).sum = moved := drawLayers_takes _ _ (by
      have : moved ≤ (s.bin a).contents := by omega
      exact this)
    have hk : t1.berth? = some k := by simp [Transfer.berth?, ht1, Transfer.counted, hdst]
    have hset := closeReport_berth v l hk reason
    obtain ⟨hover, hhalt, hoflag⟩ := overdraftCheck_berth v k (reason == some .overdraft)
    obtain ⟨hcargo, hman, hplan, -, -⟩ := huk k
    have hlimit : (r.2.berth k).loadLimit = old.loadLimit ∧ (r.2.berth k).overLimit = old.overLimit := by
      rw [hberth, foldl_load_frame]; exact ⟨rfl, rfl⟩
    have hq' : (r.2.berth k).cargo.q = old.cargo.q + moved := by rw [hberth, foldl_load_cargo]; rw [hdrawn]
    have hpast : (v.berth k).loadLimit < (v.berth k).cargo.q ↔ past := by rw [hvk, hlimit.1, hq']
    have hvover : (v.berth k).overLimit = old.overLimit := by rw [hvk, hlimit.2]
    obtain ⟨hnot, hyes⟩ := reportEnd_berth v hk
    have hfull : v.flag (flagPositionFull k) = r.2.flag (flagPositionFull k) := by
      rw [hflag, decide_eq_false (positionFull_ne k).1]; simp
    refine ⟨fun hroom => ?all, ?contents, ?_, ?_, ?_, ?_, ?lots, ?full, ?past, ?within, ?halted⟩
    case all =>
      have := movePieces_berth_all s hsrc hdst (s.sourceRounds t.source) (min kg (s.supply t)) (hlaw.1 a).2 hrounds.ge
        (by omega) hroom
      rw [← hsup]; exact this
    case contents =>
      rw [huc, Bin.contents, hpost.layers]
      have hc : (drawn.map Portion.kg).sum + _ = _ := drawLayers_conserves (s.bin a).layers moved
      unfold Bin.contents
      omega
    · rw [hcargo, hberth, foldl_load_cargo, hdrawn]
    · rw [hman, hberth]
      exact foldl_load_lots drawn old
    · intro hn n
      rw [hman, hberth]
      exact foldl_load_manifestKg drawn hn n
    · intro ps n hp hc
      rw [hplan, hberth, foldl_load_plan drawn hp hc, hdrawn]
    case lots =>
      intro n
      have hl : (v.closeReport l t1 reason).lot? n = r.2.lot? n := by
        rw [Quiet.lot? hq]; exact State.lot?_congr (by rw [hframe]) n
      rw [hl, hpost.lots, hub]
      rfl
    case full =>
      rw [← hpost.full, ← hfull]
      constructor
      · intro hu
        rcases hset.raised _ hu with hw | hw
        · rw [hoflag] at hw
          simpa [(positionFull_ne k).2] using hw
        · rw [ofEnds_positionFull] at hw; cases hw
      · exact closeReport_kept v l t1 reason
    case past =>
      intro hp
      refine ⟨by rw [hset.limits, hover, decide_eq_true (hpast.2 hp)]; rfl, fun ho => hset.kept _ ?_⟩
      rw [hoflag, hvover, ho, decide_eq_true (hpast.2 hp)]
      simp
    case within =>
      intro hp
      refine ⟨?_, hnot fun e => hp (hpast.1 e)⟩
      rw [hset.limits, hover, decide_eq_false fun e => hp (hpast.1 e), hvover]
      rfl
    case halted =>
      intro hp h1 h2
      have he : reason = some .overdraft := hyes (hpast.2 hp) h1 h2
      exact ⟨he, hset.halted k _ (hhalt (hpast.2 hp) (by rw [he]; rfl))⟩

end Sys2Proof.Machine
end

section
/-! PROOFS. One berth by itself: what holds of it in every state, and what its operations make of it (R151, R153, R156 to
R160, R166, R169). -/

namespace Sys2Proof.Machine

/-! ### A berth by itself -/

/-- What holds of a berth whichever of ASSIGNED and READY it is in. -/
structure Berth.Base (b : Berth) : Prop where
  vacant : b.state = .vacant ↔ b.barge = none
  empty : b.state = .vacant → b.manifest = []
  limit : b.overLimit = true ↔ b.loadLimit < b.cargo.q
  spout : b.state = .loading → b.movePending = false ∧ b.currentPosition ≠ none
  positions : ∀ n, b.current = some n ∨ b.commanded = some n → 1 ≤ n ∧ n ≤ (b.plan.getD []).length
  cargo : b.cargo.q = ((b.plan.getD []).map Position.loaded).sum

/-- What holds of a berth by itself: all of `State.BerthStands` but the transfer that loads it. -/
structure Berth.Stands (b : Berth) : Prop extends b.Base where
  ready : b.state = .ready → b.readyConditions = true
  assigned : b.state = .assigned → b.readyConditions = false

theorem Berth.Base.barge {b : Berth} (h : b.Base) (hs : b.state ≠ .vacant) : b.barge.isSome = true :=
  Option.isSome_iff_ne_none.2 fun e => hs (h.vacant.2 e)

/-- A berth in a state that is neither ASSIGNED nor READY stands by its base alone. -/
theorem Berth.Base.stands {b : Berth} (h : b.Base) (h1 : b.state ≠ .assigned) (h2 : b.state ≠ .ready) : b.Stands :=
  ⟨h, fun e => absurd e h2, fun e => absurd e h1⟩

/-- READY evaluated again puts a berth right (R151). -/
theorem Berth.Base.settleReady {b : Berth} (h : b.Base) : b.settleReady.Stands := by
  unfold Berth.settleReady
  split
  · next hs =>
    have hv : b.state ≠ .vacant := by rcases hs.2 with e | e <;> rw [e] <;> exact nofun
    have hc (x : BerthState) : ({ b with state := x } : Berth).readyConditions = b.readyConditions := rfl
    have base (x : BerthState) (h1 : x ≠ .vacant) (h2 : x ≠ .loading) : ({ b with state := x } : Berth).Base :=
      ⟨⟨fun e => absurd e h1, fun e => absurd (h.vacant.2 e) hv⟩, fun e => absurd e h1, h.limit, fun e => absurd e h2,
        h.positions, h.cargo⟩
    by_cases hr : b.readyConditions = true
    · rw [if_pos hr]
      exact ⟨base _ nofun nofun, fun _ => hr, nofun⟩
    · rw [if_neg hr]
      exact ⟨base _ nofun nofun, nofun, fun _ => by rw [hc]; simpa using hr⟩
  · next hs =>
    have hn (x : BerthState) (hx : x = .assigned ∨ x = .ready) : b.state ≠ x := by
      intro e
      have hv : b.state ≠ .vacant := by rw [e]; rcases hx with rfl | rfl <;> exact nofun
      exact hs ⟨h.barge hv, by rw [e]; exact hx⟩
    exact h.stands (hn _ (.inl rfl)) (hn _ (.inr rfl))

theorem Berth.settleReady_claim (b : Berth) : b.settleReady.claim = b.claim := by
  unfold Berth.settleReady; split <;> rfl

theorem Berth.settleReady_loading (b : Berth) : b.settleReady.state = .loading ↔ b.state = .loading := by
  unfold Berth.settleReady
  split
  · next hs =>
    dsimp only
    constructor
    · intro e; split at e <;> cases e
    · intro e; rcases hs.2 with e' | e' <;> rw [e] at e' <;> cases e'
  · exact Iff.rfl

/-- A berth with a barge in another state that is not LOADING. -/
theorem Berth.Base.setState {b : Berth} (h : b.Base) (hv : b.state ≠ .vacant) {x : BerthState} (h1 : x ≠ .vacant)
    (h2 : x ≠ .loading) : ({ b with state := x } : Berth).Base :=
  ⟨⟨fun e => absurd e h1, fun e => absurd (h.vacant.2 e) hv⟩, fun e => absurd e h1, h.limit, fun e => absurd e h2,
    h.positions, h.cargo⟩

theorem Berth.Base.halt {b : Berth} (h : b.Base) (hv : b.state ≠ .vacant) (c : HaltCause) :
    ({ b with state := .halted c } : Berth).Stands :=
  (h.setState hv (x := .halted c) nofun nofun).stands nofun nofun

/-- What the completion test makes of a berth (R160). -/
def Berth.completedTo (b : Berth) : Berth :=
  if b.completed then { b with state := .complete } else { b with state := .assigned }.settleReady

theorem Berth.Base.completedTo {b : Berth} (h : b.Base) (hv : b.state ≠ .vacant) : b.completedTo.Stands := by
  unfold Berth.completedTo
  split
  · exact (h.setState hv (x := .complete) nofun nofun).stands nofun nofun
  · exact (h.setState hv (x := .assigned) nofun nofun).settleReady

theorem Berth.completedTo_claim (b : Berth) : b.completedTo.claim = b.claim := by
  unfold Berth.completedTo
  split
  · rfl
  · exact Berth.settleReady_claim _

theorem Berth.completedTo_state (b : Berth) : b.completedTo.state ≠ .loading := by
  unfold Berth.completedTo
  split
  · exact nofun
  · rw [Ne, Berth.settleReady_loading]; exact nofun

/-- What the end of its transfer makes of a berth (R160, R169). -/
def Berth.ended (b : Berth) (reason : EndReason) : Berth :=
  match b.state with
  | .halted _ => b
  | .vacant => b
  | .loading =>
    match reason with
    | .estop => { b with state := .halted .estop }
    | .reset => { b with state := .halted .reset }
    | _ => b.completedTo
  | _ => if reason = .reset then b else b.completedTo

theorem Berth.ended_claim (b : Berth) (reason : EndReason) : (b.ended reason).claim = b.claim := by
  unfold Berth.ended
  split
  · rfl
  · rfl
  · split
    · rfl
    · rfl
    · exact b.completedTo_claim
  · split
    · rfl
    · exact b.completedTo_claim

theorem Berth.ended_loading (b : Berth) (reason : EndReason) : (b.ended reason).state ≠ .loading := by
  unfold Berth.ended
  split
  · next h => rw [h]; exact nofun
  · next h => rw [h]; exact nofun
  · split
    · exact nofun
    · exact nofun
    · exact b.completedTo_state
  · next h =>
    split
    · exact h
    · exact b.completedTo_state

/-- A halted berth is left halted by the end of its transfer. -/
theorem Berth.ended_halted {b : Berth} {c : HaltCause} (h : b.state = .halted c) (reason : EndReason) :
    b.ended reason = b := by
  unfold Berth.ended; rw [h]

theorem Berth.Stands.ended {b : Berth} (h : b.Stands) (reason : EndReason) : (b.ended reason).Stands := by
  unfold Berth.ended
  split
  · exact h
  · exact h
  · next e =>
    have hv : b.state ≠ .vacant := by rw [e]; exact nofun
    split
    · exact h.halt hv _
    · exact h.halt hv _
    · exact h.completedTo hv
  · next hv _ =>
    split
    · exact h
    · exact h.completedTo hv

/-- A claim is no part of how a berth stands. -/
theorem Berth.Stands.setClaim {b : Berth} (h : b.Stands) (c : Option Nat) : ({ b with claim := c } : Berth).Stands :=
  ⟨⟨h.vacant, h.empty, h.limit, h.spout, h.positions, h.cargo⟩, h.ready, h.assigned⟩

/-- A READY berth may be LOADING (R151, R156). -/
theorem Berth.Stands.loading {b : Berth} (h : b.Stands) (hr : b.state = .ready) :
    ({ b with state := .loading } : Berth).Stands := by
  have hc := h.ready hr
  have hs : b.movePending = false ∧ b.currentPosition ≠ none := by
    unfold Berth.readyConditions at hc
    split at hc
    · next hp =>
      simp only [Bool.and_eq_true, Bool.not_eq_true'] at hc
      exact ⟨hc.1.1.1.2, by rw [hp]; exact nofun⟩
    · cases hc
  refine ⟨⟨⟨nofun, fun e => ?_⟩, nofun, h.limit, fun _ => hs, h.positions, h.cargo⟩, nofun, nofun⟩
  rw [h.vacant.2 e] at hr; cases hr

end Sys2Proof.Machine
end

section
/-! PROOFS. The transfers that load berths: each berth holds the id of the live transfer to it as its claim, and is LOADING
while one is ACTIVE (R104, R114, R156). The law that stands at every moment within a step lets a berth be halted while the
transfer that is to be ended is still in its slot. -/

namespace Sys2Proof.Machine

/-! ### What the slots hold -/

/-- The id of the transfer in a slot, and the berth it goes to. -/
def State.holds (s : State) (l : LegNo) (k : Slot) : Option (Nat × Option BerthNo) :=
  ((s.leg l).slot k).map fun x => (x.id, x.berth?)

/-- Ids are unique, claims are held, and a berth is LOADING while a transfer to it is ACTIVE; a berth of `D` may be
halted with its transfer still ACTIVE. -/
structure Loads (D : BerthNo → Prop) (s : State) : Prop where
  ids : ∀ l k l' k' x y, s.holds l k = some x → s.holds l' k' = some y → x.1 = y.1 → l = l' ∧ k = k'
  claims : ∀ l k i b, s.holds l k = some (i, some b) → (s.berth b).claim = some i
  active : ∀ l i b, s.holds l .active = some (i, some b) →
    (s.berth b).state = .loading ∨ D b ∧ ∃ c, (s.berth b).state = .halted c
  loading : ∀ b, (s.berth b).state = .loading → ∃ l i, s.holds l .active = some (i, some b)
  stands : ∀ b, (s.berth b).Stands

/-- The law as it stands between steps. -/
abbrev LoadsLaw (s : State) : Prop := Loads (fun _ => False) s

section Law
variable {s t : State} {D E : BerthNo → Prop}

/-- All slots of all legs. -/
def allSlots : List (LegNo × Slot) := allLegs.flatMap fun l => endOrder.map fun k => (l, k)

theorem live_eq_filterMap (s : State) : s.live = allSlots.filterMap fun p => (s.leg p.1).slot p.2 := by
  simp only [State.live, allSlots, List.filterMap_flatMap, List.filterMap_map]
  rfl

/-- Ids are unique exactly when no two slots hold one id (R104). -/
theorem idLaw_iff (s : State) : IdLaw s ↔
    ∀ l k l' k' x y, s.holds l k = some x → s.holds l' k' = some y → x.1 = y.1 → l = l' ∧ k = k' := by
  have hmem (p : LegNo × Slot) : p ∈ allSlots := by
    obtain ⟨l, k⟩ := p
    exact List.mem_flatMap.2 ⟨l, mem_allLegs l, List.mem_map.2 ⟨k, mem_endOrder k, rfl⟩⟩
  have hnd : allSlots.Nodup := by decide
  unfold IdLaw
  rw [live_eq_filterMap, List.Nodup, List.pairwise_map, List.pairwise_filterMap]
  constructor
  · intro h l k l' k' x y hx hy hxy
    obtain ⟨a, ha, rfl⟩ := Option.map_eq_some_iff.1 hx
    obtain ⟨b, hb, rfl⟩ := Option.map_eq_some_iff.1 hy
    by_contra hne
    have : Std.Symm fun p q : LegNo × Slot => ∀ x, (s.leg p.1).slot p.2 = some x → ∀ y, (s.leg q.1).slot q.2 = some y →
        x.id ≠ y.id := ⟨fun _ _ hp b hb a ha e => hp a ha b hb e.symm⟩
    exact h.forall (hmem (l, k)) (hmem (l', k')) (fun e => hne (Prod.mk.inj e)) a ha b hb hxy
  · intro h
    refine hnd.pairwise_of_forall_ne fun p _ q _ hne a ha b hb e => hne ?_
    obtain ⟨h1, h2⟩ := h p.1 p.2 q.1 q.2 (a.id, a.berth?) (b.id, b.berth?) (by simp [State.holds, ha])
      (by simp [State.holds, hb]) e
    exact Prod.ext h1 h2

theorem active_berth_iff (s : State) (l : LegNo) (b : BerthNo) :
    (s.leg l).active.bind Transfer.berth? = some b ↔ ∃ i, s.holds l .active = some (i, some b) := by
  unfold State.holds Leg.slot
  cases (s.leg l).active <;> simp

/-- Between steps the law is the id law with the berth law. -/
theorem loadsLaw_iff : LoadsLaw s ↔ IdLaw s ∧ BerthLaw s := by
  constructor
  · intro h
    refine ⟨(idLaw_iff s).2 h.ids, fun x hx b hb => ?_, fun b => ?_⟩
    · obtain ⟨l, k, hk⟩ := s.mem_live.1 hx
      exact h.claims l k x.id b (by simp [State.holds, hk, hb])
    · obtain ⟨⟨h1, h2, h3, h4, h5, h6⟩, h7, h8⟩ := h.stands b
      refine ⟨h1, h2, ⟨fun e => ?_, fun ⟨l, hl⟩ => ?_⟩, h7, h8, h3, h4, h5, h6⟩
      · obtain ⟨l, i, hi⟩ := h.loading b e
        exact ⟨l, (active_berth_iff s l b).2 ⟨i, hi⟩⟩
      · obtain ⟨i, hi⟩ := (active_berth_iff s l b).1 hl
        exact (h.active l i b hi).resolve_right fun hd => hd.1
  · rintro ⟨hid, hcl, hb⟩
    refine ⟨(idLaw_iff s).1 hid, fun l k i b hi => ?_, fun l i b hi => .inl ?_, fun b e => ?_, fun b => ?_⟩
    · obtain ⟨x, hx, e⟩ := Option.map_eq_some_iff.1 hi
      obtain ⟨e1, e2⟩ := Prod.mk.inj e
      rw [← e1]
      exact hcl x (s.mem_live.2 ⟨l, k, hx⟩) b e2
    · exact (hb b).loading.2 ⟨l, (active_berth_iff s l b).2 ⟨i, hi⟩⟩
    · obtain ⟨l, hl⟩ := (hb b).loading.1 e
      exact ⟨l, (active_berth_iff s l b).1 hl⟩
    · exact ⟨⟨(hb b).vacant, (hb b).empty, (hb b).limit, (hb b).spout, (hb b).positions, (hb b).cargo⟩, (hb b).ready,
        (hb b).assigned⟩

/-- The legs and the berths stand as they stood. -/
def Untouched (s t : State) : Prop := t.legs = s.legs ∧ t.berths = s.berths

theorem Untouched.refl (s : State) : Untouched s s := ⟨rfl, rfl⟩

theorem Untouched.trans {u : State} (h : Untouched s t) (k : Untouched t u) : Untouched s u :=
  ⟨k.1.trans h.1, k.2.trans h.2⟩

theorem Untouched.foldl {α : Type} {f : State → α → State} (h : ∀ s a, Untouched s (f s a)) (l : List α) (s : State) :
    Untouched s (l.foldl f s) := by
  induction l generalizing s with
  | nil => exact .refl s
  | cons a l ih => exact (h s a).trans (ih _)

theorem Untouched.leg (h : Untouched s t) (l : LegNo) : t.leg l = s.leg l := by unfold State.leg; rw [h.1]

theorem Untouched.berth (h : Untouched s t) (k : BerthNo) : t.berth k = s.berth k := by unfold State.berth; rw [h.2]

theorem Untouched.holds (h : Untouched s t) (l : LegNo) (k : Slot) : t.holds l k = s.holds l k := by
  unfold State.holds; rw [h.leg]

theorem Untouched.raiseIf (s : State) (c : Bool) (f : Flag) : Untouched s (s.raiseIf c f) := by
  rw [raiseIf_frame]; exact ⟨rfl, rfl⟩

/-- The law is of the legs and the berths alone. -/
theorem Loads.congr (h : Loads D s) (hu : Untouched s t) : Loads D t where
  ids l k l' k' x y hx hy := h.ids l k l' k' x y (by rwa [hu.holds] at hx) (by rwa [hu.holds] at hy)
  claims l k i b hb := by rw [hu.berth]; exact h.claims l k i b (by rwa [hu.holds] at hb)
  active l i b hb := by rw [hu.berth]; exact h.active l i b (by rwa [hu.holds] at hb)
  loading b hb := by
    obtain ⟨l, i, hi⟩ := h.loading b (by rwa [hu.berth] at hb)
    exact ⟨l, i, by rw [hu.holds]; exact hi⟩
  stands b := by rw [hu.berth]; exact h.stands b

/-- Changes of berths that leave every slot's transfer. -/
theorem Loads.changeBerths (h : Loads D s) (hh : ∀ l k, t.holds l k = s.holds l k)
    (hc : ∀ b, (t.berth b).claim = (s.berth b).claim) (hs : ∀ b, (t.berth b).Stands)
    (hl : ∀ b, (t.berth b).state = .loading → (s.berth b).state = .loading)
    (ha : ∀ b, (s.berth b).state = .loading → (t.berth b).state = .loading ∨ E b ∧ ∃ c, (t.berth b).state = .halted c)
    (hd : ∀ b c, D b → (s.berth b).state = .halted c → E b ∧ ∃ c, (t.berth b).state = .halted c) : Loads E t where
  ids l k l' k' x y hx hy := h.ids l k l' k' x y (by rwa [hh] at hx) (by rwa [hh] at hy)
  claims l k i b hb := by rw [hc]; exact h.claims l k i b (by rwa [hh] at hb)
  active l i b hb := by
    rw [hh] at hb
    rcases h.active l i b hb with e | ⟨e, c, he⟩
    · exact ha b e
    · exact .inr (hd b c e he)
  loading b hb := by
    obtain ⟨l, i, hi⟩ := h.loading b (hl b hb)
    exact ⟨l, i, by rw [hh]; exact hi⟩
  stands := hs

/-- A change of one berth that keeps its claim, and whether it is LOADING or halted. -/
theorem Loads.setBerth (h : Loads D s) {k : BerthNo} {x : Berth} (hc : x.claim = (s.berth k).claim) (hs : x.Stands)
    (hl : x.state = .loading ↔ (s.berth k).state = .loading)
    (hh : ∀ c, D k → (s.berth k).state = .halted c → ∃ c, x.state = .halted c) : Loads D (s.setBerth k x) := by
  refine h.changeBerths (fun _ _ => rfl) (fun b => ?_) (fun b => ?_) (fun b => ?_) (fun b hb => .inl ?_) fun b c hb e => ?_
  all_goals rw [State.berth_setBerth] at *; split
  · next e => rw [e]; exact hc
  · rfl
  · exact hs
  · exact h.stands b
  · next e => rw [e]; exact hl.1
  · exact id
  · next e' => rw [e'] at hb; exact hl.2 hb
  · exact hb
  · next e' => rw [e'] at hb e ⊢; exact ⟨hb, hh c hb e⟩
  · exact ⟨hb, c, e⟩

/-- The berths that may be halted with their transfer ACTIVE are among those with an ACTIVE transfer. -/
theorem Loads.restrict (h : Loads D s) (hE : ∀ b, D b → (∃ l i, s.holds l .active = some (i, some b)) → E b) :
    Loads E s :=
  ⟨h.ids, h.claims, fun l i b hi => (h.active l i b hi).imp id fun ⟨hd, hc⟩ => ⟨hE b hd ⟨l, i, hi⟩, hc⟩, h.loading,
    h.stands⟩

/-- Two transfers to one berth are one transfer. -/
theorem Loads.unique (h : Loads D s) {l l' : LegNo} {k k' : Slot} {i j : Nat} {b : BerthNo}
    (h1 : s.holds l k = some (i, some b)) (h2 : s.holds l' k' = some (j, some b)) : l = l' ∧ k = k' := by
  have := (h.claims l k i b h1).symm.trans (h.claims l' k' j b h2)
  exact h.ids l k l' k' _ _ h1 h2 (Option.some.inj this)

end Law

/-! ### Operations that touch neither legs nor berths -/

section Untouching
variable (s : State)

theorem endEntry_untouched (n : EntryNo) (reason : EntryEnd) : Untouched s (s.endEntry n reason) := by
  unfold State.endEntry; split <;> exact ⟨rfl, rfl⟩

theorem autoTurn_untouched (b : BinNo) : Untouched s (s.autoTurn b) := by
  unfold State.autoTurn; dsimp only; split
  · exact .refl s
  · split <;> exact ⟨rfl, rfl⟩

theorem evaluateHot_untouched (b : BinNo) : Untouched s (s.evaluateHot b) := by
  unfold State.evaluateHot; dsimp only; split
  · split
    · exact .trans ⟨rfl, rfl⟩ (autoTurn_untouched _ b)
    · exact ⟨rfl, rfl⟩
  · exact .refl s

theorem passComplete_untouched (n : EntryNo) (e : Entry) (t : Transfer) : Untouched s (s.passComplete n e t) := by
  unfold State.passComplete
  extract_lets s1 x turned old s2 y old' s3
  have h3 : Untouched s s3 := by
    unfold s3; split
    · exact .trans ⟨rfl, rfl⟩ (evaluateHot_untouched _ _)
    · exact ⟨rfl, rfl⟩
  split
  · split
    · exact h3.trans (endEntry_untouched _ _ _)
    · split
      · exact h3.trans ⟨rfl, rfl⟩
      · exact h3
  · exact h3

theorem passEnd_untouched (n : EntryNo) (reason : EndReason) (t : Transfer) : Untouched s (s.passEnd n reason t) := by
  unfold State.passEnd; split
  · exact .refl s
  · split
    · exact .refl s
    · split
      · exact passComplete_untouched s _ _ _
      · exact ⟨rfl, rfl⟩
      · dsimp only; split
        · exact .trans ⟨rfl, rfl⟩ (endEntry_untouched _ _ _)
        · exact ⟨rfl, rfl⟩

theorem dischargeEnd_untouched : Untouched s s.dischargeEnd := by
  unfold State.dischargeEnd; dsimp only; split
  · exact ⟨rfl, rfl⟩
  · split <;> exact ⟨rfl, rfl⟩

theorem dropClaim_untouched (b : BinNo) (id : Nat) : Untouched s (s.dropClaim b id) := by
  unfold State.dropClaim; split <;> exact ⟨rfl, rfl⟩

theorem takeClaim_untouched (b : BinNo) (id : Nat) : Untouched s (s.takeClaim b id) := by
  unfold State.takeClaim; split <;> exact ⟨rfl, rfl⟩

theorem reserve_untouched (b : BinNo) (who : HolderRef) (i : Identity) (kg n : Nat) :
    Untouched s (s.reserve b who i kg n) := by
  unfold State.reserve; split <;> exact ⟨rfl, rfl⟩

theorem endReservation_untouched (t : Transfer) (reason : EndReason) : Untouched s (s.endReservation t reason) := by
  unfold State.endReservation; split
  · exact .refl s
  · split <;> exact ⟨rfl, rfl⟩

end Untouching

/-! ### The end of a transfer -/

section Ends
variable (s : State)

theorem berth_completionTest (k j : BerthNo) :
    (s.completionTest k).berth j = if j = k then (s.berth k).completedTo else s.berth j := by
  unfold State.completionTest Berth.completedTo
  dsimp only
  split
  · exact State.berth_setBerth s k _ j
  · exact State.berth_setBerth s k _ j

theorem completionTest_legs (k : BerthNo) : (s.completionTest k).legs = s.legs := by
  unfold State.completionTest; dsimp only; split <;> rfl

/-- A berth after it has been told the end of its transfer. -/
theorem berth_berthEnd (k : BerthNo) (reason : EndReason) (j : BerthNo) :
    (s.berthEnd k reason).berth j = if j = k then (s.berth k).ended reason else s.berth j := by
  have same (h1 : s.berthEnd k reason = s) (h2 : (s.berth k).ended reason = s.berth k) :
      (s.berthEnd k reason).berth j = if j = k then (s.berth k).ended reason else s.berth j := by
    rw [h1, h2]; split
    · next e => rw [e]
    · rfl
  cases hs : (s.berth k).state with
  | vacant => exact same (by simp [State.berthEnd, hs]) (by simp [Berth.ended, hs])
  | halted c => exact same (by simp [State.berthEnd, hs]) (by simp [Berth.ended, hs])
  | loading =>
    unfold State.berthEnd Berth.ended
    simp only [hs]
    cases reason
    case estop => exact State.berth_setBerth s k _ j
    case reset => exact State.berth_setBerth s k _ j
    all_goals exact berth_completionTest s k j
  | assigned | ready | complete =>
    by_cases hr : reason = .reset
    · exact same (by simp [State.berthEnd, hs, hr]) (by simp [Berth.ended, hs, hr])
    · have h1 : s.berthEnd k reason = s.completionTest k := by simp [State.berthEnd, hs, hr]
      have h2 : (s.berth k).ended reason = (s.berth k).completedTo := by simp [Berth.ended, hs, hr]
      rw [h1, h2]
      exact berth_completionTest s k j

theorem berthEnd_legs (k : BerthNo) (reason : EndReason) : (s.berthEnd k reason).legs = s.legs := by
  unfold State.berthEnd
  dsimp only
  split
  · rfl
  · rfl
  · split
    · rfl
    · rfl
    · exact completionTest_legs s k
  · split
    · rfl
    · exact completionTest_legs s k

/-- A berth that the end of a transfer has left: its claim gone if it was the transfer's, and told the reason. -/
def Berth.released (b : Berth) (id : Nat) (reason : EndReason) : Berth :=
  Berth.ended { b with claim := if b.claim = some id then none else b.claim } reason

theorem berth_dropBerthClaim (k : BerthNo) (id : Nat) (b : BerthNo) : (s.dropBerthClaim k id).berth b =
    if b = k then { s.berth k with claim := if (s.berth k).claim = some id then none else (s.berth k).claim }
    else s.berth b := by
  unfold State.dropBerthClaim
  by_cases hc : (s.berth k).claim = some id
  · rw [if_pos hc, State.berth_setBerth, if_pos hc]
  · rw [if_neg hc, if_neg hc]
    split
    · next e => rw [e]
    · rfl

/-- The end of a transfer up to the telling of its origin and its berth (R122). -/
theorem endSlot_eq {l : LegNo} {k : Slot} (reason : EndReason) {t : Transfer} (ht : (s.leg l).slot k = some t) :
    ∃ u : State, s.endSlot l k reason = u.tellEnd t reason ∧
      (∀ l' k', u.holds l' k' = if l' = l ∧ k' = k then none else s.holds l' k') ∧
      ∀ b, u.berth b = if t.berth? = some b then
        { s.berth b with claim := if (s.berth b).claim = some t.id then none else (s.berth b).claim } else s.berth b := by
  unfold State.endSlot
  split
  · next e => rw [ht] at e; cases e
  next t' e =>
  obtain rfl : t = t' := Option.some.inj (ht.symm.trans e)
  extract_lets old s1 s2 s3 s4 s5
  refine ⟨_, rfl, ?_⟩
  have h2 : Untouched s1 s2 := by
    unfold s2; split
    · exact dropClaim_untouched _ _ _
    · exact .refl _
  have h5 : Untouched s3 (s5.raiseIf (reason != .complete) (flagAbnormalEnd l)) :=
    ((endReservation_untouched _ _ _).trans (.foldl (fun u b => ⟨by rfl, by rfl⟩) _ _)).trans (.raiseIf _ _ _)
  set s6 := s5.raiseIf (reason != .complete) (flagAbnormalEnd l) with hs6
  have hleg1 (l' : LegNo) (k' : Slot) : s1.holds l' k' = if l' = l ∧ k' = k then none else s.holds l' k' := by
    unfold s1 State.holds
    rw [State.leg_setLeg]
    by_cases hl : l' = l
    · subst hl
      cases k <;> cases k' <;> simp [Leg.slot, Leg.setSlot, old]
    · simp [hl]
  have h3legs : s3.legs = s2.legs := by
    unfold s3 State.dropBerthClaim; split
    · split <;> rfl
    · rfl
  have h3 (b : BerthNo) : s3.berth b = if t.berth? = some b then
      { s.berth b with claim := if (s.berth b).claim = some t.id then none else (s.berth b).claim } else s.berth b := by
    have hb (b : BerthNo) : s2.berth b = s.berth b := h2.berth b
    unfold s3
    cases hk : t.berth? with
    | none => simp [hb]
    | some k =>
      show (s2.dropBerthClaim k t.id).berth b = _
      rw [berth_dropBerthClaim, hb, hb]
      by_cases hkb : b = k
      · subst hkb; simp
      · simp [hkb, Ne.symm hkb]
  refine ⟨fun l' k' => ?_, fun b => ?_⟩
  · rw [h5.holds, ← hleg1, ← h2.holds]
    unfold State.holds State.leg
    rw [h3legs]
  · rw [h5.berth, h3]

/-- What the slots hold and how the berths stand after the end of the transfer in a slot (R122). -/
theorem endSlot_effect {l : LegNo} {k : Slot} (reason : EndReason) {t : Transfer} (ht : (s.leg l).slot k = some t) :
    (∀ l' k', (s.endSlot l k reason).holds l' k' = if l' = l ∧ k' = k then none else s.holds l' k') ∧
      ∀ b, (s.endSlot l k reason).berth b =
        if t.berth? = some b then (s.berth b).released t.id reason else s.berth b := by
  obtain ⟨u, e, hh, hb⟩ := endSlot_eq s reason ht
  rw [e]
  unfold State.tellEnd
  extract_lets s7
  have h7 : Untouched u s7 := by
    unfold s7; split
    · exact dischargeEnd_untouched _
    · exact passEnd_untouched _ _ _ _
    · exact .refl _
  have hholds (l' : LegNo) (k' : Slot) : s7.holds l' k' = if l' = l ∧ k' = k then none else s.holds l' k' := by
    rw [h7.holds, hh]
  cases hk : t.berth? with
  | none =>
    refine ⟨hholds, fun b => ?_⟩
    dsimp only
    rw [h7.berth, hb, hk]
    simp
  | some j =>
    constructor
    · intro l' k'
      rw [← hholds]
      unfold State.holds State.leg
      dsimp only
      rw [berthEnd_legs]
    · intro b
      dsimp only
      rw [berth_berthEnd, h7.berth, h7.berth, hb, hb, hk]
      by_cases hbj : b = j
      · subst hbj; simp [Berth.released]
      · simp [hbj, Ne.symm hbj]

theorem endSlot_empty {l : LegNo} {k : Slot} (reason : EndReason) (h : (s.leg l).slot k = none) :
    s.endSlot l k reason = s := by
  unfold State.endSlot; rw [h]

theorem Berth.released_loading (b : Berth) (id : Nat) (reason : EndReason) :
    (b.released id reason).state ≠ .loading := Berth.ended_loading _ _

/-- A berth's halt outlasts the end of its transfer. -/
theorem Berth.released_halted {b : Berth} {c : HaltCause} (h : b.state = .halted c) (id : Nat) (reason : EndReason) :
    (b.released id reason).state = .halted c := by
  unfold Berth.released
  rw [Berth.ended_halted (b := { b with claim := if b.claim = some id then none else b.claim }) (c := c) h]
  exact h

/-- The end of a transfer keeps the law. -/
theorem Loads.endSlot {D : BerthNo → Prop} {s : State} (h : Loads D s) (l : LegNo) (k : Slot) (reason : EndReason) :
    Loads D (s.endSlot l k reason) := by
  cases ht : (s.leg l).slot k with
  | none => rw [endSlot_empty s reason ht]; exact h
  | some t =>
    obtain ⟨hh, hb⟩ := endSlot_effect s reason ht
    have hold {l' k' x} (hx : (s.endSlot l k reason).holds l' k' = some x) :
        ¬ (l' = l ∧ k' = k) ∧ s.holds l' k' = some x := by
      rw [hh] at hx
      split at hx
      · cases hx
      · next hne => exact ⟨hne, hx⟩
    have hself (b : BerthNo) (hk : t.berth? = some b) : s.holds l k = some (t.id, some b) := by
      simp [State.holds, ht, hk]
    have hother {l' k' i b} (hx : (s.endSlot l k reason).holds l' k' = some (i, some b)) : t.berth? ≠ some b := by
      intro hk
      obtain ⟨hne, hx⟩ := hold hx
      exact hne (h.unique hx (hself b hk))
    refine ⟨fun l1 k1 l2 k2 x y hx hy => h.ids l1 k1 l2 k2 x y (hold hx).2 (hold hy).2, fun l' k' i b hx => ?_,
      fun l' i b hx => ?_, fun b hl => ?_, fun b => ?_⟩
    · rw [hb, if_neg (hother hx)]; exact h.claims l' k' i b (hold hx).2
    · rw [hb, if_neg (hother hx)]; exact h.active l' i b (hold hx).2
    · rw [hb] at hl
      split at hl
      · exact absurd hl (Berth.released_loading _ _ _)
      · next hk =>
        obtain ⟨l', i, hi⟩ := h.loading b hl
        refine ⟨l', i, ?_⟩
        rw [hh, if_neg ?_]
        · exact hi
        · rintro ⟨rfl, rfl⟩
          have hi' : ((s.leg l').slot .active).map (fun x => (x.id, x.berth?)) = some (i, some b) := hi
          rw [ht] at hi'
          exact hk (Prod.mk.inj (Option.some.inj hi')).2
    · rw [hb]
      split
      · exact ((h.stands b).setClaim _).ended reason
      · exact h.stands b

/-- The ends of transfers, one after another, empty their slots and fill none. -/
theorem holds_foldl_endSlot (vs : List Victim) (s : State) (l : LegNo) (k : Slot) :
    (vs.foldl (fun t v => t.endSlot v.leg v.slot v.reason) s).holds l k =
      if vs.any (fun v => v.leg == l && v.slot == k) then none else s.holds l k := by
  induction vs generalizing s with
  | nil => rfl
  | cons v vs ih =>
    rw [List.foldl_cons, ih, List.any_cons]
    have hv : (s.endSlot v.leg v.slot v.reason).holds l k = if l = v.leg ∧ k = v.slot then none else s.holds l k := by
      cases ht : (s.leg v.leg).slot v.slot with
      | none =>
        rw [endSlot_empty s _ ht]
        split
        · next e => rw [e.1, e.2]; simp [State.holds, ht]
        · rfl
      | some t => exact (endSlot_effect s v.reason ht).1 l k
    rw [hv]
    by_cases he : l = v.leg ∧ k = v.slot
    · simp [he.1, he.2]
    · have hf : (v.leg == l && v.slot == k) = false := by
        rw [Bool.and_eq_false_iff, beq_eq_false_iff_ne, beq_eq_false_iff_ne]
        by_cases h1 : l = v.leg
        · exact .inr fun h2 => he ⟨h1, h2.symm⟩
        · exact .inl (Ne.symm h1)
      rw [if_neg he, hf, Bool.false_or]

theorem Loads.foldl_endSlot {D : BerthNo → Prop} (vs : List Victim) {s : State} (h : Loads D s) :
    Loads D (vs.foldl (fun t v => t.endSlot v.leg v.slot v.reason) s) := by
  induction vs generalizing s with
  | nil => exact h
  | cons v vs ih => exact ih (h.endSlot v.leg v.slot v.reason)

end Ends

end Sys2Proof.Machine
end

section
/-! PROOFS. The law of the transfers that load berths through becoming active, the launches, the slot succession, the
examination and the ends with all that follows them (R104, R113 to R116, R122, R123, R138). -/

namespace Sys2Proof.Machine

section Rules
variable {s t : State} {D : BerthNo → Prop}

/-- The law is of what the slots hold and of the berths. -/
theorem Loads.ext (h : Loads D s) (hh : ∀ l k, t.holds l k = s.holds l k) (hb : ∀ b, t.berth b = s.berth b) :
    Loads D t :=
  h.changeBerths hh (fun b => by rw [hb]) (fun b => by rw [hb]; exact h.stands b) (fun b e => by rwa [hb] at e)
    (fun b e => .inl (by rw [hb]; exact e)) fun b c hd e => ⟨hd, c, by rw [hb]; exact e⟩

/-- A waiting transfer leaves its slot. -/
theorem Loads.dropWaiting (h : Loads D s) {l : LegNo} {k : Slot} (hk : k ≠ .active)
    (hh : ∀ l' k', t.holds l' k' = if l' = l ∧ k' = k then none else s.holds l' k') (hb : ∀ b, t.berth b = s.berth b) :
    Loads D t := by
  have hold {l' k' x} (hx : t.holds l' k' = some x) : s.holds l' k' = some x := by
    rw [hh] at hx; split at hx
    · cases hx
    · exact hx
  refine ⟨fun l1 k1 l2 k2 x y hx hy => h.ids l1 k1 l2 k2 x y (hold hx) (hold hy), fun l' k' i b hx => ?_,
    fun l' i b hx => ?_, fun b hl => ?_, fun b => ?_⟩
  · rw [hb]; exact h.claims l' k' i b (hold hx)
  · rw [hb]; exact h.active l' i b (hold hx)
  · rw [hb] at hl
    obtain ⟨l', i, hi⟩ := h.loading b hl
    exact ⟨l', i, by rw [hh, if_neg fun e => hk e.2.symm]; exact hi⟩
  · rw [hb]; exact h.stands b

/-- The law after one slot of a leg has been set to a transfer of a new id, and its berth changed with it. -/
theorem LoadsLaw.fill (h : LoadsLaw s) {l : LegNo} {k : Slot} {i : Nat} {d : Option BerthNo}
    (hempty : s.holds l k = none) (hfresh : ∀ l' k' x, s.holds l' k' = some x → x.1 ≠ i)
    (hclaim : ∀ b, d = some b → (s.berth b).claim = some i)
    (hh : ∀ l' k', t.holds l' k' = if l' = l ∧ k' = k then some (i, d) else s.holds l' k')
    (hother : ∀ b, d ≠ some b ∨ k ≠ .active → t.berth b = s.berth b)
    (hberth : ∀ b, d = some b → k = .active → t.berth b = { s.berth b with state := .loading } ∧ (s.berth b).state = .ready) :
    LoadsLaw t := by
  have hsplit {l' k' x} (hx : t.holds l' k' = some x) :
      (l' = l ∧ k' = k ∧ x = (i, d)) ∨ (¬ (l' = l ∧ k' = k) ∧ s.holds l' k' = some x) := by
    rw [hh] at hx; split at hx
    · next e => exact .inl ⟨e.1, e.2, (Option.some.inj hx).symm⟩
    · next e => exact .inr ⟨e, hx⟩
  have hkeep {b : BerthNo} (hc : d = some b → k = .active → False) : t.berth b = s.berth b := by
    by_cases hd : d = some b
    · exact hother b (.inr fun hk => hc hd hk)
    · exact hother b (.inl hd)
  have hclaims (b : BerthNo) : (t.berth b).claim = (s.berth b).claim := by
    by_cases hd : d = some b
    · by_cases hk : k = .active
      · rw [(hberth b hd hk).1]
      · rw [hother b (.inr hk)]
    · rw [hother b (.inl hd)]
  refine ⟨fun l1 k1 l2 k2 x y hx hy e => ?_, fun l' k' j b hx => ?_, fun l' j b hx => ?_, fun b hl => ?_, fun b => ?_⟩
  · rcases hsplit hx with ⟨rfl, rfl, rfl⟩ | ⟨-, hx⟩ <;> rcases hsplit hy with ⟨rfl, rfl, rfl⟩ | ⟨-, hy⟩
    · exact ⟨rfl, rfl⟩
    · exact absurd e.symm (hfresh _ _ _ hy)
    · exact absurd e (hfresh _ _ _ hx)
    · exact h.ids _ _ _ _ _ _ hx hy e
  · rw [hclaims]
    rcases hsplit hx with ⟨-, -, e⟩ | ⟨-, hx⟩
    · obtain ⟨e1, e2⟩ := Prod.mk.inj e
      rw [e1]
      exact hclaim b e2.symm
    · exact h.claims l' k' j b hx
  · left
    rcases hsplit hx with ⟨-, hk, e⟩ | ⟨-, hx⟩
    · rw [(hberth b (Prod.mk.inj e).2.symm hk.symm).1]
    · rw [hkeep fun hd _ => ?_]
      · exact (h.active l' j b hx).resolve_right fun e => e.1
      · have h1 := h.claims l' .active j b hx
        rw [hclaim b hd] at h1
        exact hfresh _ _ _ hx (Option.some.inj h1).symm
  · by_cases hd : d = some b ∧ k = .active
    · exact ⟨l, i, by rw [hh, if_pos ⟨rfl, hd.2.symm⟩, hd.1]⟩
    · rw [hkeep fun e1 e2 => hd ⟨e1, e2⟩] at hl
      obtain ⟨l', j, hj⟩ := h.loading b hl
      refine ⟨l', j, ?_⟩
      rw [hh, if_neg ?_]
      · exact hj
      · rintro ⟨rfl, rfl⟩
        rw [hempty] at hj; cases hj
  · by_cases hd : d = some b ∧ k = .active
    · obtain ⟨e, hr⟩ := hberth b hd.1 hd.2
      rw [e]; exact (h.stands b).loading hr
    · rw [hkeep fun e1 e2 => hd ⟨e1, e2⟩]; exact h.stands b

end Rules

/-! ### Becoming active -/

section Active
variable (s : State)

theorem holds_setLeg (l : LegNo) (g : Leg) (l' : LegNo) (k : Slot) : (s.setLeg l g).holds l' k =
    if l' = l then (g.slot k).map fun x => (x.id, x.berth?) else s.holds l' k := by
  unfold State.holds
  rw [State.leg_setLeg]
  split <;> rfl

/-- What the slots hold and how the berths stand after a transfer has become active (R116, R156). -/
theorem enterActive_effect (l : LegNo) (t : Transfer) :
    (∀ l' k', (s.enterActive l t).holds l' k' =
      if l' = l ∧ k' = .active then some (t.id, t.berth?) else s.holds l' k') ∧
    ∀ b, (s.enterActive l t).berth b =
      if t.berth? = some b then { s.berth b with state := .loading } else s.berth b := by
  unfold State.enterActive
  extract_lets g time s1
  have h1 (l' : LegNo) (k' : Slot) : s1.holds l' k' =
      if l' = l ∧ k' = .active then some (t.id, t.berth?) else s.holds l' k' := by
    have hs (x : Transfer) (c : LastCarried) (hx : (x.id, x.berth?) = (t.id, t.berth?)) :
        (s.setLeg l { g with active := some x, lastCarried := c }).holds l' k' =
          if l' = l ∧ k' = .active then some (t.id, t.berth?) else s.holds l' k' := by
      rw [holds_setLeg]
      by_cases hl : l' = l
      · subst hl
        cases k'
        · simp [Leg.slot, hx]
        all_goals simp [Leg.slot, State.holds, g]
      · simp [hl]
    unfold s1
    split
    · exact hs { t with state := .running } _ rfl
    · exact hs { t with state := .cleanout time } g.lastCarried rfl
  have h2 : s1.berths = s.berths := by unfold s1; split <;> rfl
  have h3 (b : BerthNo) : s1.berth b = s.berth b := by unfold State.berth; rw [h2]
  split
  case h_2 hk =>
    exact ⟨h1, fun b => by rw [h3, hk]; rfl⟩
  case h_1 k hk =>
    refine ⟨h1, fun b => ?_⟩
    rw [hk]
    rw [State.berth_setBerth, h3, h3]
    by_cases hb : b = k
    · subst hb; simp
    · simp [hb, Ne.symm hb]

/-- A transfer of a new id becomes active, its berth READY. -/
theorem LoadsLaw.enterActive {s : State} (h : LoadsLaw s) {l : LegNo} {t : Transfer} (hempty : s.holds l .active = none)
    (hfresh : ∀ l' k' x, s.holds l' k' = some x → x.1 ≠ t.id)
    (hberth : ∀ b, t.berth? = some b → (s.berth b).claim = some t.id ∧ (s.berth b).state = .ready) :
    LoadsLaw (s.enterActive l t) := by
  obtain ⟨h1, h2⟩ := enterActive_effect s l t
  refine h.fill hempty hfresh (fun b hb => (hberth b hb).1) h1 (fun b hb => ?_) fun b hb _ => ⟨?_, (hberth b hb).2⟩
  · rcases hb with hb | hb
    · rw [h2, if_neg hb]
    · exact absurd rfl hb
  · rw [h2, if_pos hb]

/-- A re-planned transfer is the one that waited, and its berth is READY (R115). -/
theorem replan_ok {t u : Transfer} (h : s.replan t = .ok u) :
    u.id = t.id ∧ u.berth? = t.berth? ∧ ∀ b, u.berth? = some b → (s.berth b).state = .ready := by
  unfold State.replan at h
  split at h
  · next hn => cases h; exact ⟨rfl, rfl, fun b hb => by rw [hn] at hb; cases hb⟩
  · next k hk =>
    split at h
    · cases h
    · next hr =>
      dsimp only at h
      split at h
      · cases h
      · cases h
        refine ⟨rfl, rfl, fun b hb => ?_⟩
        rw [Option.some.inj (hk.symm.trans hb)] at hr
        exact not_not.1 hr

/-- A waiting transfer is resumed or promoted, or ended (R115, R123). -/
theorem LoadsLaw.advance {l : LegNo} {n : Nat} (ih : ∀ u, LoadsLaw u → LoadsLaw (u.fillActive l n)) {s : State}
    (h : LoadsLaw s) {k : Slot} (hk : k ≠ .active) {t : Transfer} (ht : (s.leg l).slot k = some t)
    (ha : (s.leg l).active = none) :
    LoadsLaw (State.fillActive.advance l n t ((s.leg l).setSlot k none) s) := by
  have hold : s.holds l k = some (t.id, t.berth?) := by simp [State.holds, ht]
  have hact : s.holds l .active = none := by simp [State.holds, Leg.slot, ha]
  have hdrop (l' : LegNo) (k' : Slot) : (s.setLeg l ((s.leg l).setSlot k none)).holds l' k' =
      if l' = l ∧ k' = k then none else s.holds l' k' := by
    rw [holds_setLeg]
    by_cases hl : l' = l
    · subst hl
      cases k <;> cases k' <;> simp [Leg.slot, Leg.setSlot, State.holds]
    · simp [hl]
  unfold State.fillActive.advance
  split
  · next u hu =>
    obtain ⟨hid, hb, hready⟩ := replan_ok s hu
    have hd : LoadsLaw (s.setLeg l ((s.leg l).setSlot k none)) := Loads.dropWaiting h hk hdrop fun _ => rfl
    refine hd.enterActive ?_ (fun l' k' x hx e => ?_) fun b hbk => ⟨?_, hready b hbk⟩
    · rw [hdrop, if_neg fun e => hk e.2.symm]; exact hact
    · rw [hdrop] at hx
      split at hx
      · cases hx
      · next hne => exact hne (h.ids l' k' l k x _ hx hold (e.trans hid))
    · rw [hid]
      exact h.claims l k t.id b (by rw [hold, ← hb, hbk])
  · next reason _ =>
    refine ih _ (Loads.ext (h.endSlot l k reason) (fun l' k' => ?_) fun b => ?_)
    · have hs : ((s.setLeg l { (s.leg l).setSlot k none with active := some t }).leg l).slot .active = some t := by
        rw [State.leg_setLeg_same]; rfl
      rw [(endSlot_effect _ reason hs).1, (endSlot_effect s reason ht).1, holds_setLeg]
      by_cases hl : l' = l
      · subst hl
        cases k <;> cases k' <;> simp [Leg.slot, Leg.setSlot, State.holds, ha] at hk ⊢
      · simp [hl]
    · have hs : ((s.setLeg l { (s.leg l).setSlot k none with active := some t }).leg l).slot .active = some t := by
        rw [State.leg_setLeg_same]; rfl
      rw [(endSlot_effect _ reason hs).2, (endSlot_effect s reason ht).2]
      rfl

theorem LoadsLaw.fillActive (l : LegNo) (n : Nat) {s : State} (h : LoadsLaw s) : LoadsLaw (s.fillActive l n) := by
  induction n generalizing s with
  | zero => unfold State.fillActive; exact h
  | succ n ih =>
    unfold State.fillActive
    dsimp only
    split
    · exact h
    · next ha =>
      have hn : (s.leg l).active = none := by simpa using ha
      split
      · next t hs => exact h.advance (fun u hu => ih hu) (k := .suspended) nofun hs hn
      · next t hs hb => exact h.advance (fun u hu => ih hu) (k := .buffered) nofun hb hn
      · exact h

theorem LoadsLaw.settleLeg (l : LegNo) {s : State} (h : LoadsLaw s) : LoadsLaw (s.settleLeg l) :=
  (h.fillActive l 2).congr (.raiseIf _ _ _)

end Active

/-! ### Launches -/

section Launches
variable (s : State)

/-- The place of a launch and what its leg holds (R113). -/
theorem Leg.place_cases {g : Leg} {attr : Attr} {k : Slot} {p : Bool} (h : g.place attr = some (k, p)) :
    (g.active = none ∧ k = .active ∧ p = false) ∨
      (k = .active ∧ p = true ∧ g.active.isSome = true ∧ g.suspended = none) ∨
      (k = .buffered ∧ p = false ∧ g.active.isSome = true ∧ g.buffered = none) := by
  unfold Leg.place at h
  split at h
  · next ha => cases h; exact .inl ⟨ha, rfl, rfl⟩
  · next t ha =>
    split at h
    · next hp => cases h; exact .inr (.inl ⟨rfl, rfl, by rw [ha]; rfl, by simpa using hp.2.2⟩)
    · split at h
      · next hb => cases h; exact .inr (.inr ⟨rfl, rfl, by rw [ha]; rfl, by simpa using hb⟩)
      · cases h

/-- The next id is of no live transfer (R104). -/
theorem nextId_fresh (l : LegNo) (k : Slot) (x : Nat × Option BerthNo) (h : s.holds l k = some x) : x.1 ≠ s.nextId := by
  have hlen : s.liveIds.length < 13 := by
    rw [State.liveIds_eq, live_eq_filterMap, List.length_map]
    exact lt_of_le_of_lt (List.length_filterMap_le _ _) (by decide)
  obtain ⟨t, ht, rfl⟩ := Option.map_eq_some_iff.1 h
  intro e
  have hm : t.id ∈ s.liveIds := by
    rw [State.liveIds_eq]
    exact List.mem_map.2 ⟨t, s.mem_live.2 ⟨l, k, ht⟩, rfl⟩
  have hnot : s.nextId ∉ s.liveIds := firstFree_not_mem s.nextTransfer hlen (by decide)
  exact hnot (e ▸ hm)

/-- The claims of a committed transfer: its berth's, and nothing else of a berth or a leg (R114). -/
theorem holdFor_effect (t : Transfer) (n : Nat) : (s.holdFor t n).legs = s.legs ∧
    ∀ b, (s.holdFor t n).berth b = if t.berth? = some b then { s.berth b with claim := some t.id } else s.berth b := by
  unfold State.holdFor Transfer.berth?
  extract_lets s1
  have h1 : Untouched s s1 := by
    unfold s1; split
    · exact takeClaim_untouched s _ _
    · exact .refl s
  split
  · next k hk =>
    refine ⟨h1.1, fun b => ?_⟩
    rw [State.berth_setBerth, h1.berth, h1.berth]
    by_cases hb : b = k
    · subst hb; simp
    · simp [hb, Ne.symm hb]
  · next d hd =>
    have h2 (u : State) (hu : Untouched s1 u) : u.legs = s.legs ∧ ∀ b, u.berth b = s.berth b :=
      ⟨(h1.trans hu).1, (h1.trans hu).berth⟩
    simp only [reduceCtorEq, if_false]
    split
    · exact h2 _ ⟨rfl, rfl⟩
    · exact h2 _ (reserve_untouched _ _ _ _ _ _)

/-- The ACTIVE transfer gives way (R113). -/
theorem preempt_effect {l : LegNo} {t : Transfer} (ht : (s.leg l).active = some t) :
    (∀ l' k', (s.preempt l).holds l' k' =
      if l' = l ∧ k' = .active then none else if l' = l ∧ k' = .suspended then some (t.id, t.berth?)
      else s.holds l' k') ∧
    ∀ b, (s.preempt l).berth b =
      if t.berth? = some b then Berth.settleReady { s.berth b with state := .assigned } else s.berth b := by
  unfold State.preempt
  dsimp only
  rw [ht]
  dsimp only
  have hs (l' : LegNo) (k' : Slot) :
      (s.setLeg l { s.leg l with active := none, suspended := some { t with state := .suspended } }).holds l' k' =
        if l' = l ∧ k' = .active then none else if l' = l ∧ k' = .suspended then some (t.id, t.berth?)
        else s.holds l' k' := by
    rw [holds_setLeg]
    by_cases hl : l' = l
    · subst hl
      cases k' <;> simp [Leg.slot, State.holds]
      rfl
    · simp [hl]
  have keeps (g : Leg) (b : BerthNo) : (s.setLeg l g).berth b = s.berth b := rfl
  split
  case h_2 hk => exact ⟨hs, fun b => by rw [hk]; rfl⟩
  case h_1 k hk =>
    refine ⟨hs, fun b => ?_⟩
    rw [hk]
    rw [State.berth_setBerth, keeps, keeps]
    by_cases hb : b = k
    · subst hb; simp
    · simp [hb, Ne.symm hb]

/-- Preemption keeps the law. -/
theorem LoadsLaw.preempt {s : State} (h : LoadsLaw s) {l : LegNo} {t : Transfer} (ht : (s.leg l).active = some t)
    (hn : (s.leg l).suspended = none) : LoadsLaw (s.preempt l) := by
  obtain ⟨hh, hb⟩ := preempt_effect s ht
  have hact : s.holds l .active = some (t.id, t.berth?) := by simp [State.holds, Leg.slot, ht]
  have hsus : s.holds l .suspended = none := by simp [State.holds, Leg.slot, hn]
  -- every slot's transfer stood in a slot before, and two in two
  have hold {l' k' x} (hx : (s.preempt l).holds l' k' = some x) :
      (l' = l ∧ k' = .suspended ∧ x = (t.id, t.berth?)) ∨
        (¬ (l' = l ∧ k' = .active) ∧ s.holds l' k' = some x) := by
    rw [hh] at hx
    split at hx
    · cases hx
    · next h1 =>
      split at hx
      · next h2 => exact .inl ⟨h2.1, h2.2, (Option.some.inj hx).symm⟩
      · exact .inr ⟨h1, hx⟩
  have hclaims (b : BerthNo) : ((s.preempt l).berth b).claim = (s.berth b).claim := by
    rw [hb]; split
    · rw [Berth.settleReady_claim]
    · rfl
  have hloading {b : BerthNo} (hk : t.berth? = some b) : (s.berth b).state = .loading :=
    (h.active l t.id b (by rw [hact, hk])).resolve_right fun e => e.1
  refine ⟨fun l1 k1 l2 k2 x y hx hy e => ?_, fun l' k' i b hx => ?_, fun l' i b hx => ?_, fun b hl => ?_, fun b => ?_⟩
  · rcases hold hx with ⟨rfl, rfl, rfl⟩ | ⟨hx1, hx2⟩ <;> rcases hold hy with ⟨rfl, rfl, rfl⟩ | ⟨hy1, hy2⟩
    · exact ⟨rfl, rfl⟩
    · exact absurd (h.ids _ _ _ _ _ _ hy2 hact e.symm) hy1
    · exact absurd (h.ids _ _ _ _ _ _ hx2 hact e) hx1
    · exact h.ids _ _ _ _ _ _ hx2 hy2 e
  · rw [hclaims]
    rcases hold hx with ⟨rfl, rfl, e⟩ | ⟨-, hx⟩
    · rw [← e] at hact; exact h.claims _ _ i b hact
    · exact h.claims l' k' i b hx
  · left
    rcases hold hx with ⟨-, e, -⟩ | ⟨hne, hx⟩
    · cases e
    · rw [hb, if_neg fun hk => ?_]
      · exact (h.active l' i b hx).resolve_right fun e => e.1
      · exact hne (h.unique hx (by rw [hact, hk]))
  · rw [hb] at hl
    split at hl
    · rw [Berth.settleReady_loading] at hl; cases hl
    · next hk =>
      obtain ⟨l', i, hi⟩ := h.loading b hl
      refine ⟨l', i, ?_⟩
      have hne : l' ≠ l := by
        rintro rfl
        rw [hact] at hi
        exact hk (Prod.mk.inj (Option.some.inj hi)).2
      rw [hh, if_neg fun e => hne e.1, if_neg fun e => hne e.1]
      exact hi
  · rw [hb]; split
    · next hk =>
      have hv : (s.berth b).state ≠ .vacant := by rw [hloading hk]; exact nofun
      exact ((h.stands b).setState hv (x := .assigned) nofun nofun).settleReady
    · exact h.stands b

/-- A launch to a berth has found it READY and unclaimed (R109). -/
theorem claimChecks_berth {r : LaunchRequest} {k : BerthNo} (hd : r.dest = .berth k)
    (h : firstFailure (s.permissionChecks r ++ s.claimChecks r ++ s.identityChecks r) = none) :
    (s.berth k).claim = none ∧ (s.berth k).state = .ready := by
  rw [firstFailure_eq_none] at h
  have hm (x : Bool × Status) (hx : x ∈ s.claimChecks r) : x.1 = false :=
    h x (List.mem_append_left _ (List.mem_append_right _ hx))
  have h1 := hm ((s.berth k).claim.isSome, .busy) (by unfold State.claimChecks; rw [hd]; simp)
  have h2 := hm ((s.berth k).state != .ready, .state) (by unfold State.claimChecks; rw [hd]; simp)
  exact ⟨by simpa using h1, by simpa using h2⟩

theorem granted_berth? (r : LaunchRequest) (g : Grant) :
    (s.granted r g).berth? = match r.dest with | .berth k => some k | .bin _ => none := rfl

/-- A granted launch keeps the law. -/
theorem LoadsLaw.commitLaunch {s : State} (h : LoadsLaw s) {r : LaunchRequest} {g : Grant}
    (hg : s.launchChecks r = .ok g) : LoadsLaw (s.commitLaunch r g) := by
  obtain ⟨hchecks, hplace⟩ := launchChecks_ok s hg
  unfold State.commitLaunch
  extract_lets t s1 s2 old
  have htid : t.id = s.nextId := rfl
  have hdest (b : BerthNo) (hb : t.berth? = some b) : (s.berth b).claim = none ∧ (s.berth b).state = .ready := by
    refine claimChecks_berth s ?_ hchecks
    have hb' : (match r.dest with | .berth k => some k | .bin _ => none) = some b := hb
    split at hb'
    · next k hk => rw [hk, Option.some.inj hb']
    · cases hb'
  obtain ⟨hlegs, hberths⟩ := holdFor_effect { s with nextTransfer := wrapNext Config.maxShortNo t.id } t g.slots
  change s1.legs = s.legs at hlegs
  change ∀ b, s1.berth b = if t.berth? = some b then { s.berth b with claim := some t.id } else s.berth b at hberths
  have hholds1 (l : LegNo) (k : Slot) : s1.holds l k = s.holds l k := by unfold State.holds State.leg; rw [hlegs]
  have hnone (b : BerthNo) (hb : t.berth? = some b) (l : LegNo) (k : Slot) (i : Nat) : s.holds l k ≠ some (i, some b) := by
    intro e
    have := h.claims l k i b e
    rw [(hdest b hb).1] at this; cases this
  have hstate1 (b : BerthNo) : (s1.berth b).state = (s.berth b).state := by rw [hberths]; split <;> rfl
  have h1 : LoadsLaw s1 := by
    refine ⟨fun l k l' k' x y hx hy => h.ids l k l' k' x y (by rwa [hholds1] at hx) (by rwa [hholds1] at hy),
      fun l k i b hi => ?_, fun l i b hi => ?_, fun b hb => ?_, fun b => ?_⟩
    · rw [hholds1] at hi
      rw [hberths, if_neg fun hb => hnone b hb l k i hi]
      exact h.claims l k i b hi
    · rw [hholds1] at hi
      rw [hstate1]
      exact h.active l i b hi
    · rw [hstate1] at hb
      obtain ⟨l, i, hi⟩ := h.loading b hb
      exact ⟨l, i, by rw [hholds1]; exact hi⟩
    · rw [hberths]; split
      · exact (h.stands b).setClaim _
      · exact h.stands b
  have hfresh1 (l : LegNo) (k : Slot) (x : Nat × Option BerthNo) (hx : s1.holds l k = some x) : x.1 ≠ t.id :=
    nextId_fresh s l k x (by rwa [hholds1] at hx)
  have hleg1 : s1.leg r.leg = s.leg r.leg := by unfold State.leg; rw [hlegs]
  rcases Leg.place_cases hplace with ⟨ha, hslot, hp⟩ | ⟨hslot, hp, ha, hsus⟩ | ⟨hslot, hp, ha, hbuf⟩
  · -- an empty leg
    have hs2 : s2 = s1 := by unfold s2; rw [hp]; rfl
    rw [hslot, hs2]
    dsimp only
    refine h1.enterActive (by simp [State.holds, Leg.slot, hleg1, ha]) hfresh1 fun b hb => ⟨?_, ?_⟩
    · rw [hberths, if_pos hb]
    · rw [hstate1]; exact (hdest b hb).2
  · -- the ACTIVE transfer gives way
    have hs2 : s2 = s1.preempt r.leg := by unfold s2; rw [hp]; rfl
    obtain ⟨x, hx⟩ := Option.isSome_iff_exists.1 ha
    have hx1 : (s1.leg r.leg).active = some x := by rw [hleg1]; exact hx
    have h2 := h1.preempt hx1 (by rw [hleg1]; exact hsus)
    obtain ⟨hh2, hb2⟩ := preempt_effect s1 hx1
    have hxh : s.holds r.leg .active = some (x.id, x.berth?) := by simp [State.holds, Leg.slot, hx]
    rw [hslot, hs2]
    dsimp only
    refine h2.enterActive (by rw [hh2]; simp) (fun l k y hy => ?_) fun b hb => ?_
    · rw [hh2] at hy
      split at hy
      · cases hy
      · split at hy
        · cases hy; exact nextId_fresh s _ _ _ hxh
        · exact hfresh1 l k y hy
    · have hne : x.berth? ≠ some b := fun e => hnone b hb r.leg .active x.id (by rw [hxh, e])
      rw [hb2, if_neg hne]
      exact ⟨by rw [hberths, if_pos hb], by rw [hstate1]; exact (hdest b hb).2⟩
  · -- the transfer waits
    have hs2 : s2 = s1 := by unfold s2; rw [hp]; rfl
    rw [hslot, hs2]
    dsimp only
    refine h1.fill (l := r.leg) (k := .buffered) (i := t.id) (d := t.berth?)
      (by simp [State.holds, Leg.slot, hleg1, hbuf]) hfresh1 (fun b hb => by rw [hberths, if_pos hb]) (fun l' k' => ?_)
      (fun _ _ => rfl) nofun
    rw [holds_setLeg]
    by_cases hl : l' = r.leg
    · subst hl
      have ho : old = s1.leg r.leg := by rw [← hs2]
      cases k' <;> simp [Leg.slot, State.holds, ho]
    · simp [hl]

theorem LoadsLaw.launch {s : State} (h : LoadsLaw s) (r : LaunchRequest) : LoadsLaw (s.launch r).1 := by
  obtain ⟨code, limit, _, e⟩ | ⟨g, hg, e⟩ := s.launch_cases r <;> rw [e]
  · exact h
  · exact h.commitLaunch hg

theorem LoadsLaw.tryDischarge {s : State} (h : LoadsLaw s) : LoadsLaw s.tryDischarge.1 := by
  unfold State.tryDischarge
  split
  · exact h
  · next b _ =>
    have hl := h.launch { origin := .dryer, leg := s.settings.dryer.dischargeLeg, source := .dryer, dest := .bin b.dest
                          kg := (b.portions.map Portion.kg).sum, attr := .ordinary }
    dsimp only
    split
    · next e => rw [e] at hl; exact hl.congr ⟨rfl, rfl⟩
    · next e => rw [e] at hl; exact hl.congr (.raiseIf _ _ _)

theorem LoadsLaw.launchPass {s : State} (h : LoadsLaw s) (n : EntryNo) (e : Entry) : LoadsLaw (s.launchPass n e) := by
  unfold State.launchPass
  extract_lets kg r
  have hl := h.launch r
  split
  · next e => rw [e] at hl; exact hl.congr ⟨rfl, rfl⟩
  · next e =>
    rw [e] at hl
    split
    · exact hl
    · exact hl
    all_goals exact hl.congr (endEntry_untouched _ _ _)

theorem LoadsLaw.examine {s : State} (h : LoadsLaw s) : LoadsLaw s.examine := by
  unfold State.examine
  induction allEntries generalizing s with
  | nil => exact h
  | cons n ns ih =>
    refine ih ?_
    unfold State.examineEntry
    split
    · exact h
    · split
      · exact h.launchPass _ _
      · exact h

end Launches

/-! ### Ends and all that follows them -/

/-- Ends that include that of every transfer whose berth has been halted before its end. -/
theorem Loads.endTransfers {D : BerthNo → Prop} {s : State} (h : Loads D s) (vs : List Victim)
    (hv : ∀ b, D b → ∀ l i, s.holds l .active = some (i, some b) → ∃ v ∈ vs, v.leg = l ∧ v.slot = .active) :
    LoadsLaw (s.endTransfers vs) := by
  unfold State.endTransfers
  split
  · next hn =>
    subst hn
    exact h.restrict fun b hd ⟨l, i, hi⟩ => by obtain ⟨v, hv, -⟩ := hv b hd l i hi; cases hv
  · extract_lets s1 legs s2 s3
    have h1 : LoadsLaw s1 := by
      refine (h.foldl_endSlot vs).restrict fun b hd ⟨l, i, hi⟩ => ?_
      rw [holds_foldl_endSlot] at hi
      split at hi
      · cases hi
      · next hne =>
        obtain ⟨v, hvm, rfl, hslot⟩ := hv b hd l i hi
        exact hne (List.any_eq_true.2 ⟨v, hvm, by simp [hslot]⟩)
    have h2 : LoadsLaw s2 := by
      unfold s2
      generalize legs = ls
      clear_value s1
      induction ls generalizing s1 with
      | nil => exact h1
      | cons l ls ih => exact ih _ (h1.settleLeg l)
    have h3 : LoadsLaw s3 := by
      unfold s3; split
      · exact h2.tryDischarge
      · exact h2
    exact h3.examine

theorem LoadsLaw.endTransfers {s : State} (h : LoadsLaw s) (vs : List Victim) : LoadsLaw (s.endTransfers vs) :=
  Loads.endTransfers h vs nofun

end Sys2Proof.Machine
end

section
/-! PROOFS. What the berths' operations make of a berth that stands as it must, and the law of the transfers that load
berths through halts and new load limits (R150, R151, R153, R159, R160, R162, R166). -/

namespace Sys2Proof.Machine

/-! ### One berth that is changed -/

section Change
variable {s t : State} {D E : BerthNo → Prop}

/-- A change of one berth: it keeps its claim, and is LOADING after only if it was, and stays so or is halted. -/
theorem Loads.putBerth (h : Loads D s) {k : BerthNo} {x : Berth} (hlegs : t.legs = s.legs)
    (hb : ∀ j, t.berth j = if j = k then x else s.berth j) (hclaim : x.claim = (s.berth k).claim) (hs : x.Stands)
    (hl : x.state = .loading → (s.berth k).state = .loading)
    (hh : (s.berth k).state = .loading → x.state = .loading ∨ E k ∧ ∃ c, x.state = .halted c)
    (hd : ∀ b c, D b → (s.berth b).state = .halted c → E b ∧ (b = k → ∃ c, x.state = .halted c)) : Loads E t := by
  have hholds (l : LegNo) (k' : Slot) : t.holds l k' = s.holds l k' := by unfold State.holds State.leg; rw [hlegs]
  refine h.changeBerths hholds (fun b => ?_) (fun b => ?_) (fun b => ?_) (fun b e => ?_) fun b c hb' e => ?_
  all_goals rw [hb]; split
  · next e => rw [e]; exact hclaim
  · rfl
  · exact hs
  · exact h.stands b
  · next e => rw [e]; exact hl
  · exact id
  · next e' => subst e'; exact hh e
  · exact .inl e
  · next e' => exact ⟨(hd b c hb' e).1, (hd b c hb' e).2 e'⟩
  · exact ⟨(hd b c hb' e).1, c, e⟩

/-- A change of one berth between steps that leaves it LOADING or not. -/
theorem LoadsLaw.putBerth (h : LoadsLaw s) {k : BerthNo} {x : Berth} (hlegs : t.legs = s.legs)
    (hb : ∀ j, t.berth j = if j = k then x else s.berth j) (hclaim : x.claim = (s.berth k).claim) (hs : x.Stands)
    (hl : x.state = .loading ↔ (s.berth k).state = .loading) : LoadsLaw t :=
  Loads.putBerth h hlegs hb hclaim hs hl.1 (fun e => .inl (hl.2 e)) nofun

/-- A berth that no live transfer claims is not LOADING (R114). -/
theorem Loads.unclaimed (h : Loads D s) {k : BerthNo} (hc : (s.berth k).claim = none) : (s.berth k).state ≠ .loading := by
  intro e
  obtain ⟨l, i, hi⟩ := h.loading k e
  have hcl := h.claims l .active i k hi
  rw [hc] at hcl; cases hcl

/-- The transfer of a LOADING berth is among the victims of the berth (R159). -/
theorem Loads.mem_berthVictims (h : Loads D s) {k : BerthNo} {l : LegNo} {i : Nat}
    (hi : s.holds l .active = some (i, some k)) (reason : EndReason) :
    ({ leg := l, slot := .active, reason := reason } : Victim) ∈ s.berthVictims k reason := by
  obtain ⟨x, hx, e⟩ := Option.map_eq_some_iff.1 hi
  obtain ⟨hid, -⟩ := Prod.mk.inj e
  unfold State.berthVictims
  rw [h.claims l .active i k hi]
  refine List.mem_flatMap.2 ⟨l, mem_allLegs l, List.mem_filterMap.2 ⟨.active, mem_endOrder _, ?_⟩⟩
  simp [hx, hid]

/-- A LOADING berth halts, and its transfer ends with it (R159). -/
theorem LoadsLaw.haltLoading (h : LoadsLaw s) {k : BerthNo} (hl : (s.berth k).state = .loading) (cause : HaltCause)
    (reason : EndReason) : LoadsLaw (s.haltLoading k cause reason) := by
  have h1 : Loads (fun b => b = k) (s.haltBerth k cause) :=
    Loads.putBerth h (k := k) (x := { s.berth k with state := .halted cause }) rfl (s.berth_setBerth k _) rfl
      ((h.stands k).halt (by rw [hl]; exact nofun) cause) nofun (fun _ => .inr ⟨rfl, cause, rfl⟩) nofun
  unfold State.haltLoading
  refine h1.endTransfers _ fun b hb l i hi => ?_
  subst hb
  exact ⟨_, Loads.mem_berthVictims (s := s) h hi reason, rfl, rfl⟩

/-- A READY condition of a berth has changed (R151, R159). -/
theorem LoadsLaw.conditionChanged (h : LoadsLaw s) {k : BerthNo} {x : Berth} (hlegs : t.legs = s.legs)
    (hb : ∀ j, t.berth j = if j = k then x else s.berth j) (hclaim : x.claim = (s.berth k).claim)
    (hstate : x.state = (s.berth k).state) (hs : x.Base) (lost : Bool) (cause : HaltCause) :
    LoadsLaw (t.conditionChanged k lost cause) := by
  have hk : t.berth k = x := by rw [hb, if_pos rfl]
  unfold State.conditionChanged
  split
  · next hl =>
    rw [hk] at hl
    refine LoadsLaw.haltLoading (h.putBerth hlegs hb hclaim (hs.stands ?_ ?_) (by rw [hstate])) (by rw [hk]; exact hl.1) _ _
    · rw [hl.1]; exact nofun
    · rw [hl.1]; exact nofun
  · refine h.putBerth (t := t.settleReady k) (k := k) (x := x.settleReady) hlegs (fun j => ?_)
      (by rw [Berth.settleReady_claim, hclaim]) hs.settleReady (by rw [Berth.settleReady_loading, hstate])
    unfold State.settleReady
    rw [State.berth_setBerth, hb, hb]
    split
    · rw [if_pos rfl]
    · rfl

/-- A berth is changed and READY is evaluated again (R151). -/
theorem LoadsLaw.resettle (h : LoadsLaw s) {k : BerthNo} {x : Berth} (hlegs : t.legs = s.legs)
    (hb : ∀ j, t.berth j = if j = k then x else s.berth j) (hclaim : x.claim = (s.berth k).claim)
    (hstate : x.state = (s.berth k).state) (hs : x.Base) : LoadsLaw (t.settleReady k) := by
  refine h.putBerth (t := t.settleReady k) (k := k) (x := x.settleReady) hlegs (fun j => ?_)
    (by rw [Berth.settleReady_claim, hclaim]) hs.settleReady (by rw [Berth.settleReady_loading, hstate])
  unfold State.settleReady
  rw [State.berth_setBerth, hb, hb]
  split
  · rw [if_pos rfl]
  · rfl

end Change

/-! ### New load limits -/

/-- What a new load limit makes of a berth (R166). -/
def Berth.limitedTo (limit : Nat) (b : Berth) : Berth :=
  if limit < b.cargo.q then
    if b.overLimit then { b with loadLimit := limit }
    else if b.state = .loading then { b with loadLimit := limit, overLimit := true, state := .halted .overdraft }
    else { b with loadLimit := limit, overLimit := true }.settleReady
  else { b with loadLimit := limit, overLimit := false }.settleReady

/-- What the river and its settings make of a berth (R166). -/
def Berth.relimited (set : RiverSettings) (r : River) (b : Berth) : Berth :=
  match b.barge with
  | none => b
  | some g => b.limitedTo (loadLimitOf set r g)

theorem Berth.relimited_claim (set : RiverSettings) (r : River) (b : Berth) : (b.relimited set r).claim = b.claim := by
  unfold Berth.relimited
  split
  · rfl
  · unfold Berth.limitedTo
    split
    · split
      · rfl
      · split
        · rfl
        · exact Berth.settleReady_claim _
    · exact Berth.settleReady_claim _

/-- A berth that is READY within its limit stands as it must after a new load limit. -/
theorem Berth.Base.relimited {b : Berth} (h : b.Base) (hr : b.state = .ready → b.overLimit = false) (set : RiverSettings)
    (r : River) : (b.relimited set r).Stands := by
  unfold Berth.relimited
  split
  · next hn =>
    have hv := h.vacant.2 hn
    exact h.stands (by rw [hv]; exact nofun) (by rw [hv]; exact nofun)
  · next g hg =>
    generalize loadLimitOf set r g = limit
    have hv : b.state ≠ .vacant := fun e => by rw [h.vacant.1 e] at hg; cases hg
    have base (past : Bool) (hp : past = true ↔ limit < b.cargo.q) :
        ({ b with loadLimit := limit, overLimit := past } : Berth).Base :=
      ⟨h.vacant, h.empty, hp, h.spout, h.positions, h.cargo⟩
    unfold Berth.limitedTo
    split
    · next hlt =>
      split
      · next ho =>
        have hb : ({ b with loadLimit := limit } : Berth).Base :=
          ⟨h.vacant, h.empty, by simp [ho, hlt], h.spout, h.positions, h.cargo⟩
        refine ⟨hb, fun e => ?_, fun _ => ?_⟩
        · rw [hr e] at ho; cases ho
        · have hn : decide (b.cargo.q < limit) = false := by simpa using hlt.le
          unfold Berth.readyConditions
          dsimp only
          split
          · simp [hn]
          · rfl
      · split
        · exact Berth.Base.halt (base true (by simp [hlt])) hv .overdraft
        · exact (base true (by simp [hlt])).settleReady
    · next hge => exact (base false (by simp [hge])).settleReady

/-- A READY berth is within its limit. -/
theorem Berth.Stands.ready_within {b : Berth} (h : b.Stands) (e : b.state = .ready) : b.overLimit = false := by
  have hc := h.ready e
  unfold Berth.readyConditions at hc
  split at hc
  · simp only [Bool.and_eq_true, decide_eq_true_eq] at hc
    have hlt := hc.1.2
    by_contra ho
    have := h.limit.1 (by simpa using ho)
    omega
  · cases hc

/-- A new load limit leaves a LOADING berth LOADING or halts it, and makes no berth LOADING (R159, R166). -/
theorem Berth.relimited_loading (set : RiverSettings) (r : River) (b : Berth) :
    ((b.relimited set r).state = .loading → b.state = .loading) ∧
      (b.state = .loading → (b.relimited set r).state = .loading ∨ (b.relimited set r).state = .halted .overdraft) := by
  unfold Berth.relimited
  split
  · exact ⟨id, .inl⟩
  · next g _ =>
    generalize loadLimitOf set r g = limit
    unfold Berth.limitedTo
    split
    · split
      · exact ⟨id, .inl⟩
      · split
        · exact ⟨nofun, fun _ => .inr rfl⟩
        · next hl =>
          rw [Berth.settleReady_loading]
          exact ⟨id, fun e => absurd e hl⟩
    · rw [Berth.settleReady_loading]; exact ⟨id, .inl⟩

section Limits
variable (s : State)

theorem berth_recomputeLimit (k j : BerthNo) : (s.recomputeLimit k).berth j =
    if j = k then (s.berth k).relimited s.settings.river s.river else s.berth j := by
  have same : s.berth j = if j = k then s.berth k else s.berth j := by
    split
    · next e => rw [e]
    · rfl
  have hr (g : Barge) (hg : (s.berth k).barge = some g) : (s.berth k).relimited s.settings.river s.river =
      (s.berth k).limitedTo (loadLimitOf s.settings.river s.river g) := by
    unfold Berth.relimited; split
    · next e => rw [hg] at e; cases e
    · next e => rw [Option.some.inj (hg.symm.trans e)]
  unfold State.recomputeLimit
  dsimp only
  split
  · next hn =>
    have : (s.berth k).relimited s.settings.river s.river = s.berth k := by
      unfold Berth.relimited; split
      · rfl
      · next e => rw [hn] at e; cases e
    rw [this]; exact same
  · next g hg =>
    rw [hr g hg]
    generalize loadLimitOf s.settings.river s.river g = limit
    unfold Berth.limitedTo
    by_cases h1 : limit < (s.berth k).cargo.q
    · rw [if_pos h1, if_pos h1]
      by_cases h2 : (s.berth k).overLimit = true
      · rw [if_pos h2, if_pos h2]; exact s.berth_setBerth k _ j
      · rw [if_neg h2, if_neg h2]
        have hb (v : State) (f : Flag) (c : BerthNo) : (v.raise f).berth c = v.berth c := rfl
        by_cases h3 : (s.berth k).state = .loading
        · rw [if_pos h3, if_pos h3]
          unfold State.haltBerth
          rw [State.berth_setBerth, hb, hb, State.berth_setBerth_same, State.berth_setBerth]
          split <;> rfl
        · rw [if_neg h3, if_neg h3]
          unfold State.settleReady
          rw [State.berth_setBerth, hb, hb, State.berth_setBerth_same, State.berth_setBerth]
          split <;> rfl
    · rw [if_neg h1, if_neg h1]; exact s.berth_setBerth k _ j

theorem recomputeLimit_legs (k : BerthNo) : (s.recomputeLimit k).legs = s.legs := by
  unfold State.recomputeLimit; dsimp only; split
  · rfl
  · split
    · split
      · rfl
      · split <;> rfl
    · rfl

theorem recomputeLimit_kept (k : BerthNo) :
    (s.recomputeLimit k).settings = s.settings ∧ (s.recomputeLimit k).river = s.river := by
  rw [(recomputeLimit_quiet s k).frame]; exact ⟨rfl, rfl⟩

/-- Every berth after both load limits have been computed again (R166). -/
theorem berth_relimited (j : BerthNo) : (allBerths.foldl (fun t k => t.recomputeLimit k) s).berth j =
    (s.berth j).relimited s.settings.river s.river := by
  show ((s.recomputeLimit 0).recomputeLimit 1).berth j = _
  rw [berth_recomputeLimit, (recomputeLimit_kept s 0).1, (recomputeLimit_kept s 0).2, berth_recomputeLimit,
    berth_recomputeLimit]
  revert j
  rw [Fin.forall_fin_two]
  exact ⟨by simp, by simp⟩

theorem relimited_legs : (allBerths.foldl (fun t k => t.recomputeLimit k) s).legs = s.legs := by
  show ((s.recomputeLimit 0).recomputeLimit 1).legs = _
  rw [recomputeLimit_legs, recomputeLimit_legs]

/-- Both load limits are computed again, and the transfers of the berths it halts end (R159, R166). -/
theorem LoadsLaw.recomputeLimits {s : State} (h : LoadsLaw s) : LoadsLaw s.recomputeLimits := by
  unfold State.recomputeLimits
  extract_lets s1 halted
  have hb (j : BerthNo) : s1.berth j = (s.berth j).relimited s.settings.river s.river := berth_relimited s j
  have hlegs : s1.legs = s.legs := relimited_legs s
  have hmem (b : BerthNo) : b ∈ halted ↔ (s.berth b).state = .loading ∧ (s1.berth b).state ≠ .loading := by
    simp [halted, mem_allBerths]
  have h1 : Loads (fun b => b ∈ halted) s1 := by
    refine h.changeBerths (fun l k => by unfold State.holds State.leg; rw [hlegs]) (fun b => ?_) (fun b => ?_) (fun b => ?_)
      (fun b e => ?_) nofun
    · rw [hb]; exact Berth.relimited_claim _ _ _
    · rw [hb]; exact (h.stands b).relimited (h.stands b).ready_within _ _
    · rw [hb]; exact (Berth.relimited_loading _ _ _).1
    · have hcases := (Berth.relimited_loading s.settings.river s.river (s.berth b)).2 e
      rw [← hb] at hcases
      rcases hcases with hc | hc
      · exact .inl hc
      · exact .inr ⟨(hmem b).2 ⟨e, by rw [hc]; exact nofun⟩, _, hc⟩
  exact h1.endTransfers _ fun b hh l i hi =>
    ⟨_, List.mem_flatMap.2 ⟨b, hh, h1.mem_berthVictims hi .overdraft⟩, rfl, rfl⟩

end Limits

/-! ### New orders and plans -/

/-- What a new order or plan makes of a berth (R150). -/
def Berth.reordered (b : Berth) : Berth :=
  if b.state = .complete then if b.completed then b else { b with state := .assigned }.settleReady
  else b.settleReady

theorem Berth.Base.reordered {b : Berth} (h : b.Base) : b.reordered.Stands := by
  unfold Berth.reordered
  split
  · next hc =>
    split
    · exact h.stands (by rw [hc]; exact nofun) (by rw [hc]; exact nofun)
    · exact (h.setState (by rw [hc]; exact nofun) (x := .assigned) nofun nofun).settleReady
  · exact h.settleReady

theorem Berth.reordered_claim (b : Berth) : b.reordered.claim = b.claim := by
  unfold Berth.reordered
  split
  · split
    · rfl
    · exact Berth.settleReady_claim _
  · exact Berth.settleReady_claim _

theorem Berth.reordered_loading (b : Berth) : b.reordered.state = .loading ↔ b.state = .loading := by
  unfold Berth.reordered
  split
  · next hc =>
    split
    · exact Iff.rfl
    · rw [Berth.settleReady_loading, hc]; simp
  · exact Berth.settleReady_loading _

theorem berth_orderChanged (s : State) (k j : BerthNo) :
    (s.orderChanged k).berth j = if j = k then (s.berth k).reordered else s.berth j := by
  unfold State.orderChanged Berth.reordered State.settleReady
  dsimp only
  split
  · split
    · split
      · next e => rw [e]
      · rfl
    · exact s.berth_setBerth k _ j
  · exact s.berth_setBerth k _ j

theorem orderChanged_legs (s : State) (k : BerthNo) : (s.orderChanged k).legs = s.legs := by
  unfold State.orderChanged State.settleReady; dsimp only; split
  · split <;> rfl
  · rfl

/-- A berth takes a new order or plan (R150). -/
theorem LoadsLaw.reorder {s : State} (h : LoadsLaw s) {k : BerthNo} {x : Berth} (hclaim : x.claim = (s.berth k).claim)
    (hstate : x.state = (s.berth k).state) (hs : x.Base) : LoadsLaw ((s.setBerth k x).orderChanged k) := by
  refine h.putBerth (k := k) (x := x.reordered) (orderChanged_legs _ _) (fun j => ?_)
    (by rw [Berth.reordered_claim, hclaim]) hs.reordered (by rw [Berth.reordered_loading, hstate])
  rw [berth_orderChanged, State.berth_setBerth_same, State.berth_setBerth]
  split <;> rfl

/-- The entries of a new plan hold the loaded kilograms of the old plan when none that it drops holds any (R150). -/
theorem replacePlan_loaded (old : List Position) (qs : List Nat)
    (h : ((old.drop qs.length).any fun p => decide (0 < p.loaded)) = false) :
    ((replacePlan old qs).map Position.loaded).sum = (old.map Position.loaded).sum := by
  unfold replacePlan
  induction qs generalizing old with
  | nil =>
    have h0 : ∀ p ∈ old, p.loaded = 0 := by simpa using h
    simp only [List.mapIdx_nil, List.map_nil, List.sum_nil]
    exact (List.sum_eq_zero (by simpa using h0)).symm
  | cons q qs ih =>
    cases old with
    | nil => simpa [List.mapIdx_cons] using ih [] (by simp)
    | cons p old =>
      have := ih old (by simpa using h)
      simpa [List.mapIdx_cons] using this

/-- A berth with a new plan (R150). -/
theorem Berth.Base.setPlan {b : Berth} (h : b.Base) (hl : b.state ≠ .loading) {qs : List Nat}
    (hd : b.dropsLoaded qs.length = false) : (b.setPlan qs).Base := by
  refine ⟨h.vacant, h.empty, h.limit, fun e => absurd e hl, fun n hn => ?_, ?_⟩
  · have hlen : ((b.setPlan qs).plan.getD []).length = qs.length := by simp [Berth.setPlan, replacePlan]
    rw [hlen]
    have keep (p : Option Nat) (hp : p = some n → 1 ≤ n) (he : keepPosition qs.length p = some n) :
        1 ≤ n ∧ n ≤ qs.length := by
      unfold keepPosition at he
      rw [Option.filter_eq_some_iff] at he
      exact ⟨hp he.1, by simpa using he.2⟩
    rcases hn with hn | hn
    · exact keep _ (fun e => (h.positions n (.inl e)).1) hn
    · exact keep _ (fun e => (h.positions n (.inr e)).1) hn
  · show b.cargo.q = ((replacePlan (b.plan.getD []) qs).map Position.loaded).sum
    rw [replacePlan_loaded _ _ hd]; exact h.cargo

/-- A position number within the plan has its entry. -/
theorem Berth.currentPosition_isSome {b : Berth} {n : Nat} (hc : b.current = some n) (h1 : 1 ≤ n)
    (h2 : n ≤ (b.plan.getD []).length) : b.currentPosition ≠ none := by
  unfold Berth.currentPosition
  cases hp : b.plan with
  | none => rw [hp] at h2; simp at h2; omega
  | some ps =>
    rw [hp] at h2
    simp only [hc, Option.getD_some] at h2 ⊢
    rw [if_neg (by omega), Ne, List.getElem?_eq_none_iff]
    omega

end Sys2Proof.Machine
end

section
/-! PROOFS. Every step keeps the law of the transfers that load berths, and with it the ids' and the berths' laws (R104,
R114, R151, R156 to R162, R166, R169). -/

namespace Sys2Proof.Machine

/-! ### Operations of the tables, the bins and the dryer -/

section Records
variable (s : State)

theorem setBin_untouched (b : BinNo) (x : Bin) : Untouched s (s.setBin b x) := ⟨rfl, rfl⟩

theorem modLot_untouched (n : Nat) (g : Lot → Lot) : Untouched s (s.modLot n g) := ⟨rfl, rfl⟩

theorem setDryer_untouched (d : Dryer) : Untouched s (s.setDryer d) := ⟨rfl, rfl⟩

theorem raise_untouched (f : Flag) : Untouched s (s.raise f) := ⟨rfl, rfl⟩

theorem deposit_untouched {b : BinNo} {who : HolderRef} {p : Portion} {fromTop : Bool} {u : State}
    (h : s.deposit b who p fromTop = some u) : Untouched s u := by
  have hf := (deposited s h).frame
  exact ⟨by rw [hf], by rw [hf]⟩

theorem draw_untouched (b : BinNo) (q : Nat) : Untouched s (s.draw b q).2 := by
  rw [draw_frame]; exact ⟨rfl, rfl⟩

theorem drawPortion_untouched (x : Nat) : Untouched s (s.drawPortion x) := by
  unfold State.drawPortion; split
  · exact .refl s
  · split
    · exact .refl s
    · split <;> exact ⟨rfl, rfl⟩

theorem takePiece_untouched (t : Transfer) (x : Nat) : Untouched s (s.takePiece t x) := by
  unfold State.takePiece; split
  · exact drawPortion_untouched s x
  · dsimp only; split
    · exact (draw_untouched s _ x).trans (setBin_untouched _ _ _)
    · exact draw_untouched s _ x

theorem closeTicket_untouched (t : Ticket) (tare : Nat) : Untouched s (s.closeTicket t tare) := by
  unfold State.closeTicket; split
  · exact ⟨rfl, rfl⟩
  · extract_lets net grain who s1 s2
    have h1 : Untouched s s1 := by
      unfold s1; split
      · exact .refl s
      · split
        · next u hu => exact (deposit_untouched s hu).trans (.raiseIf _ _ _)
        · exact .refl s
    exact h1.trans ⟨rfl, rfl⟩

theorem voidTicket_untouched (t : Ticket) : Untouched s (s.voidTicket t) := by
  unfold State.voidTicket; dsimp only; split <;> exact ⟨rfl, rfl⟩

theorem expireTicket_untouched (t : Ticket) : Untouched s (s.expireTicket t) := by
  unfold State.expireTicket; dsimp only; split
  · exact (closeTicket_untouched s t _).trans ⟨rfl, rfl⟩
  · exact (voidTicket_untouched s t).trans ⟨rfl, rfl⟩

theorem expireOverdue_untouched : Untouched s s.expireOverdue := .foldl expireTicket_untouched _ s

theorem assign_untouched (t : Ticket) (g : Grade) (b : BinNo) (r : BindResult) : Untouched s (s.assign t g b r) := by
  unfold State.assign
  have h1 : Untouched s (s.bindTo r g.cls (s.estimate t)) := by rw [bindTo_frame]; exact ⟨rfl, rfl⟩
  exact (h1.trans (reserve_untouched _ _ _ _ _ _)).trans ⟨rfl, rfl⟩

theorem register_untouched (tag : List Byte) (c : Fin 4) : Untouched s (s.register tag c) := by
  unfold State.register; split <;> exact ⟨rfl, rfl⟩

theorem holdEntries_untouched (b : BinNo) : Untouched s (s.holdEntries b) := by
  refine .foldl (fun u n => ?_) _ s
  split
  · split
    · exact endEntry_untouched u _ _
    · exact .refl u
  · exact .refl u

theorem returnTicket_untouched (t : Ticket) : Untouched s (s.returnTicket t) := by
  unfold State.returnTicket; split <;> exact ⟨rfl, rfl⟩

end Records

section Operations
variable {s t : State}

/-- An operation that touches neither legs nor berths, and then launches or ends transfers: no grain moves then, and
the law of the transfers is kept. -/
def Effect (s t : State) : Prop := ∃ u, Untouched s u ∧ Quiet u t ∧ (LoadsLaw u → LoadsLaw t)

theorem Effect.untouched (h : Untouched s t) : Effect s t := ⟨t, h, .refl t, id⟩

/-- Launches or ends of transfers that follow what touches neither legs nor berths. -/
theorem Effect.after {u : State} (h : Untouched s u) (q : Quiet u t) (l : LoadsLaw u → LoadsLaw t) : Effect s t :=
  ⟨u, h, q, l⟩

theorem Effect.loads (h : Effect s t) (hs : LoadsLaw s) : LoadsLaw t := by
  obtain ⟨u, hu, -, hl⟩ := h
  exact hl (hs.congr hu)

/-- The intake's operations touch no berth, but for the transfers that end with a bin's hold (R38) and the dryer's
discharge that a lifted one lets go (R40). -/
theorem IntakeOperation.effect (h : IntakeOperation s t) : Effect s t := by
  cases h with
  | closeReceivingLots | closeLot | holdLot | amendLot | retireLot | setLotSize | replaceHold | setScale | gradeTicket
  | dump | storeTare | forgetVehicle => exact .untouched ⟨rfl, rfl⟩
  | setBinSettings | setChannel | gradeNoSpace => exact .untouched (.trans ⟨rfl, rfl⟩ (.raiseIf _ _ _))
  | imposeHold b h _ =>
    refine .after ?_ (endTransfers_quiet _ _) fun hu => LoadsLaw.endTransfers hu _
    exact ((setBin_untouched s b _).trans (holdEntries_untouched _ b)).trans (.foldl returnTicket_untouched _ _)
  | liftHold b =>
    unfold State.liftHold; dsimp only; split
    · exact .after (setBin_untouched s b _) (tryDischarge_quiet _) LoadsLaw.tryDischarge
    · exact .untouched ⟨rfl, rfl⟩
  | sweep b _ _ =>
    refine .untouched (Untouched.trans (.foldl (fun u l => ?_) _ s) (setBin_untouched _ _ _))
    exact modLot_untouched u l.lot (Lot.writeOff l.kg)
  | openTicket c cls w _ _ => exact .untouched ((register_untouched s w.tag cls).trans ⟨rfl, rfl⟩)
  | gradeAndAssign st k g b r u _ _ _ hu _ _ _ =>
    subst hu
    exact .untouched (.trans ⟨rfl, rfl⟩ (assign_untouched _ k g b r))
  | assign st k g b r => exact .untouched (assign_untouched s k g b r)
  | dumpAndClose k tare r _ _ =>
    exact .untouched (.trans (t := s.modTicket k.number fun u => { u with state := .dumped }) ⟨rfl, rfl⟩
      ((closeTicket_untouched _ k tare).trans ⟨rfl, rfl⟩))
  | weighOut tag k kg r _ _ => exact .untouched ((closeTicket_untouched s k kg).trans ⟨rfl, rfl⟩)
  | reject tag k r _ _ => exact .untouched ((voidTicket_untouched s k).trans ⟨rfl, rfl⟩)
  | void k r _ _ => exact .untouched ((voidTicket_untouched s k).trans ⟨rfl, rfl⟩)
  | expire k _ => exact .untouched (expireTicket_untouched s k)
  | setIntake x =>
    refine .untouched ?_
    unfold State.setIntake; dsimp only; split
    · exact .trans ⟨rfl, rfl⟩ (expireOverdue_untouched _)
    · exact ⟨rfl, rfl⟩

/-! ### Reports -/

/-- What holds of a LOADING berth while a report is loaded into it, before it is compared with its limit (R157). -/
structure Berth.Takes (b : Berth) : Prop where
  state : b.state = .loading
  barge : b.barge ≠ none
  spout : b.movePending = false ∧ b.currentPosition ≠ none
  positions : ∀ n, b.current = some n ∨ b.commanded = some n → 1 ≤ n ∧ n ≤ (b.plan.getD []).length
  cargo : b.cargo.q = ((b.plan.getD []).map Position.loaded).sum
  past : b.overLimit = true → b.loadLimit < b.cargo.q

theorem Berth.Stands.takes {b : Berth} (h : b.Stands) (e : b.state = .loading) : b.Takes :=
  ⟨e, fun hb => (by rw [h.vacant.2 hb] at e; cases e), h.spout e, h.positions, h.cargo, h.limit.1⟩

/-- A loaded berth that is halted or LOADING stands once it is compared with its limit. -/
theorem Berth.Takes.stands {b : Berth} (h : b.Takes) {x : BerthState} (hx : x = .loading ∨ ∃ c, x = .halted c) :
    ({ b with state := x, overLimit := b.overLimit || decide (b.loadLimit < b.cargo.q) } : Berth).Stands := by
  have h1 : x ≠ .vacant ∧ x ≠ .assigned ∧ x ≠ .ready := by
    rcases hx with rfl | ⟨c, rfl⟩ <;> exact ⟨nofun, nofun, nofun⟩
  refine Berth.Base.stands ⟨⟨fun e => absurd e h1.1, fun e => absurd e h.barge⟩, fun e => absurd e h1.1, ?_,
    fun _ => h.spout, h.positions, h.cargo⟩ h1.2.1 h1.2.2
  have := h.past
  simp only [Bool.or_eq_true, decide_eq_true_eq]
  tauto

theorem sum_loaded_modify (ps : List Position) (n kg : Nat) (h : n < ps.length) :
    ((ps.modify n fun p => { p with loaded := p.loaded + kg }).map Position.loaded).sum =
      (ps.map Position.loaded).sum + kg := by
  induction ps generalizing n with
  | nil => cases h
  | cons p ps ih =>
    cases n with
    | zero => simp; omega
    | succ n => simp [ih n (by simpa using h)]; omega

/-- A berth takes one more piece (R157). -/
theorem Berth.Takes.load {b : Berth} (h : b.Takes) (p : Portion) : (b.load p).Takes := by
  obtain ⟨ps, n, hp, hc, hn⟩ : ∃ ps n, b.plan = some ps ∧ b.current = some (n + 1) ∧ n < ps.length := by
    have hs := h.spout.2
    unfold Berth.currentPosition at hs
    cases hp : b.plan with
    | none => rw [hp] at hs; exact absurd rfl hs
    | some ps =>
      cases hc : b.current with
      | none => rw [hp, hc] at hs; exact absurd rfl hs
      | some m =>
        obtain ⟨h1, h2⟩ := h.positions m (.inl hc)
        rw [hp, Option.getD_some] at h2
        exact ⟨ps, m - 1, rfl, by rw [Nat.sub_add_cancel h1], by omega⟩
  have hplan : (b.load p).plan = some (ps.modify n fun q => { q with loaded := q.loaded + p.kg }) := by
    simpa using foldl_load_plan [p] hp hc
  have hlen : ((b.load p).plan.getD []).length = (b.plan.getD []).length := by rw [hplan, hp]; simp
  have hrest := Berth.load_frame b p
  have e1 : (b.load p).state = b.state := by rw [hrest]
  have e2 : (b.load p).barge = b.barge := by rw [hrest]
  have e3 : (b.load p).movePending = b.movePending := by rw [hrest]
  have e4 : (b.load p).current = b.current := by rw [hrest]
  have e5 : (b.load p).commanded = b.commanded := by rw [hrest]
  have e6 : (b.load p).overLimit = b.overLimit := by rw [hrest]
  have e7 : (b.load p).loadLimit = b.loadLimit := by rw [hrest]
  have e8 : (b.load p).cargo.q = b.cargo.q + p.kg := by rw [hrest]; rfl
  refine ⟨by rw [e1, h.state], by rw [e2]; exact h.barge, ⟨by rw [e3]; exact h.spout.1, ?_⟩, ?_, ?_, ?_⟩
  · rw [Berth.load_currentPosition]
    intro e
    exact h.spout.2 (Option.map_eq_none_iff.1 e)
  · rw [e4, e5, hlen]; exact h.positions
  · have hcargo := h.cargo
    rw [hp, Option.getD_some] at hcargo
    rw [e8, hplan, Option.getD_some, sum_loaded_modify _ _ _ hn, hcargo]
  · rw [e6, e7, e8]
    intro ho
    have := h.past ho
    omega

/-- What the pieces of a report do to legs and berths: nothing but to the berth they are loaded into. -/
structure Carried (t : Transfer) (s u : State) : Prop where
  legs : u.legs = s.legs
  others : ∀ j, t.berth? ≠ some j → u.berth j = s.berth j
  claim : ∀ j, (u.berth j).claim = (s.berth j).claim
  takes : ∀ j, (s.berth j).Takes → (u.berth j).Takes

theorem Carried.refl (t : Transfer) (s : State) : Carried t s s := ⟨rfl, fun _ _ => rfl, fun _ => rfl, fun _ h => h⟩

theorem Carried.trans {t : Transfer} {s u v : State} (h : Carried t s u) (k : Carried t u v) : Carried t s v :=
  ⟨k.legs.trans h.legs, fun j hj => (k.others j hj).trans (h.others j hj), fun j => (k.claim j).trans (h.claim j),
    fun j hj => k.takes j (h.takes j hj)⟩

theorem Untouched.carried (t : Transfer) {s u : State} (h : Untouched s u) : Carried t s u :=
  ⟨h.1, fun j _ => h.berth j, fun j => by rw [h.berth], fun j hj => by rw [h.berth]; exact hj⟩

theorem movePiece_carried {t : Transfer} {p : Portion} {x : Nat} {s u : State} (h : s.movePiece t p x = some u) :
    Carried t s u := by
  unfold State.movePiece at h
  dsimp only at h
  split at h
  · next k hk =>
    have hb : t.berth? = some k := by unfold Transfer.berth?; rw [hk]
    split at h
    · cases h
    · cases h
      refine ((takePiece_untouched s t x).carried t).trans ⟨by rw [loadPiece_frame], fun j hj => ?_, fun j => ?_, fun j hj => ?_⟩
      all_goals rw [berth_loadPiece]; split
      · next e => exact absurd (by rw [e]; exact hb) hj
      · rfl
      · next e => rw [e, Berth.load_frame]
      · rfl
      · next e => subst e; exact hj.load _
      · exact hj
  · obtain ⟨v, hv, rfl⟩ := Option.map_eq_some_iff.1 h
    exact (((takePiece_untouched s t x).trans (deposit_untouched _ hv)).trans (setBin_untouched _ _ _)).carried t

theorem movePieces_carried (t : Transfer) (rounds movable : Nat) (s : State) :
    Carried t s (s.movePieces t rounds movable).2 :=
  movePieces_induction (R := fun _ s u => Carried t s u) (.refl t) (fun _ _ _ _ _ _ _ _ _ h1 _ hr =>
    (movePiece_carried h1).trans hr) rounds movable s

/-- A report moves its grain, and the transfer is counted in its slot (R119). -/
theorem moveReport_carried {l : LegNo} {t : Transfer} (ha : (s.leg l).active = some t) (kg : Nat) :
    (∀ l' k', (s.moveReport l t kg).2.holds l' k' = s.holds l' k') ∧
      (∀ j, t.berth? ≠ some j → (s.moveReport l t kg).2.berth j = s.berth j) ∧
      (∀ j, ((s.moveReport l t kg).2.berth j).claim = (s.berth j).claim) ∧
      ∀ j, (s.berth j).Takes → ((s.moveReport l t kg).2.berth j).Takes := by
  unfold State.moveReport
  extract_lets movable r t1 old
  have hc : Carried t s r.2 := movePieces_carried t _ _ s
  dsimp only
  generalize hu : (r.2.setLeg l { old with active := some t1 }).raiseIf (decide (movable < kg)) flagSourceShort = u
  have hf : Untouched (r.2.setLeg l { old with active := some t1 }) u := by rw [← hu]; exact .raiseIf _ _ _
  have hb (j : BerthNo) : u.berth j = r.2.berth j := hf.berth j
  refine ⟨fun l' k' => ?_, fun j hj => by rw [hb]; exact hc.others j hj, fun j => by rw [hb]; exact hc.claim j,
    fun j hj => by rw [hb]; exact hc.takes j hj⟩
  have hleg (m : LegNo) : r.2.leg m = s.leg m := by unfold State.leg; rw [hc.legs]
  have hold : old = s.leg l := hleg l
  rw [hf.holds, holds_setLeg]
  split
  · next e =>
    subst e
    cases k'
    · simp only [State.holds, Leg.slot, ha]; rfl
    all_goals simp [State.holds, Leg.slot, hold]
  · unfold State.holds; rw [hleg]

/-- The berth that a report has loaded is compared with its limit (R158). -/
theorem overdraftCheck_effect {u : State} {k : BerthNo} (hk : (u.berth k).Takes) (live : Bool) :
    (u.overdraftCheck k live).legs = u.legs ∧ ∀ j, (u.overdraftCheck k live).berth j = if j = k then
      { u.berth k with
        overLimit := (u.berth k).overLimit || decide ((u.berth k).loadLimit < (u.berth k).cargo.q)
        state := if live = true ∧ (u.berth k).loadLimit < (u.berth k).cargo.q then .halted .overdraft else .loading }
      else u.berth j := by
  unfold State.overdraftCheck State.haltBerth
  dsimp only
  have hb (v : State) (c : Bool) (f : Flag) (j : BerthNo) : (v.raiseIf c f).berth j = v.berth j :=
    (Untouched.raiseIf v c f).berth j
  have hl (v : State) (c : Bool) (f : Flag) : (v.raiseIf c f).legs = v.legs := (Untouched.raiseIf v c f).1
  by_cases h : (u.berth k).loadLimit < (u.berth k).cargo.q
  · rw [if_pos h]
    cases live
    · refine ⟨hl _ _ _, fun j => ?_⟩
      show (State.raiseIf _ _ _).berth j = _
      rw [hb, State.berth_setBerth]
      simp [h, ← hk.state]
    · refine ⟨hl _ _ _, fun j => ?_⟩
      rw [if_pos rfl, State.berth_setBerth, hb, hb, State.berth_setBerth_same, State.berth_setBerth]
      simp only [h, and_self, if_true, decide_true, Bool.or_true]
      split <;> rfl
  · rw [if_neg h]
    refine ⟨rfl, fun j => ?_⟩
    have : (u.berth k).overLimit = false := by
      by_contra e
      exact h (hk.past (by simpa using e))
    split
    · next e => subst e; simp [h, ← hk.state]
    · rfl

/-- A flow report keeps the law: a berth it halts has its transfer ended by it (R157, R158). -/
theorem LoadsLaw.flowReport (hs : LoadsLaw s) {l : LegNo} {t : Transfer} (ha : (s.leg l).active = some t) (kg : Nat) :
    LoadsLaw (s.flowReport l t kg).1 := by
  obtain ⟨hh, hothers, hclaim, htakes⟩ := moveReport_carried ha kg
  rw [flowReport_eq]
  dsimp only
  set u := (s.moveReport l t kg).2 with hu
  clear_value u
  set t1 := t.counted kg (s.moveReport l t kg).1 with ht1
  have hb1 : t1.berth? = t.berth? := rfl
  clear_value t1
  generalize hreason : u.reportEnd t1 = reason
  have hhold : s.holds l .active = some (t.id, t.berth?) := by simp [State.holds, Leg.slot, ha]
  unfold State.closeReport
  rw [hb1]
  cases hk : t.berth? with
  | none =>
    have h1 : LoadsLaw u := hs.ext hh fun b => hothers b (by rw [hk]; exact nofun)
    dsimp only
    cases reason with
    | none => exact h1
    | some e => exact h1.endTransfers _
  | some k =>
    dsimp only
    have hstate : (s.berth k).state = .loading :=
      (hs.active l t.id k (by rw [hhold, hk])).resolve_right fun e => e.1
    have hu : (u.berth k).Takes := htakes k ((hs.stands k).takes hstate)
    obtain ⟨hlegs, hberth⟩ := overdraftCheck_effect hu (reason == some .overdraft)
    generalize hv : u.overdraftCheck k (reason == some .overdraft) = v at hlegs hberth ⊢
    have hvh (l' : LegNo) (k' : Slot) : v.holds l' k' = s.holds l' k' := by
      rw [← hh]; unfold State.holds State.leg; rw [hlegs]
    have h1 : Loads (fun b => b = k ∧ reason = some .overdraft) v := by
      refine hs.changeBerths hvh (fun b => ?_) (fun b => ?_) (fun b => ?_) (fun b hl => ?_) nofun
      all_goals rw [hberth]; split
      · next e => rw [e]; exact hclaim k
      · exact hclaim b
      · refine hu.stands ?_
        split
        · exact .inr ⟨_, rfl⟩
        · exact .inl rfl
      · next e => rw [hothers b (by rw [hk]; exact fun h => e (Option.some.inj h).symm)]; exact hs.stands b
      · next e => rw [e]; exact fun _ => hstate
      · next e => rw [hothers b (by rw [hk]; exact fun h => e (Option.some.inj h).symm)]; exact id
      · next e =>
        subst e
        dsimp only
        split
        · next hov => exact .inr ⟨⟨rfl, by simpa using hov.1⟩, _, rfl⟩
        · exact .inl rfl
      · next e => rw [hothers b (by rw [hk]; exact fun h => e (Option.some.inj h).symm)]; exact .inl hl
    cases reason with
    | none => exact h1.restrict fun b hd _ => nomatch hd.2
    | some e =>
      refine h1.endTransfers _ fun b hd l' i hi => ?_
      rw [hvh, hd.1] at hi
      obtain ⟨rfl, -⟩ := hs.unique hi (by rw [hhold, hk])
      exact ⟨_, List.mem_singleton.2 rfl, rfl, rfl⟩

end Operations

end Sys2Proof.Machine
end

section
/-! PROOFS. Every operation, every start and the clock keep the law of the transfers that load berths (R104, R114, R151,
R156 to R162, R166, R169). -/

namespace Sys2Proof.Machine

section Operations
variable {s t : State}

/-- A leg that keeps what its slots hold. -/
theorem LoadsLaw.setLeg (h : LoadsLaw s) (l : LegNo) {g : Leg}
    (hg : ∀ k, (g.slot k).map (fun x => (x.id, x.berth?)) = s.holds l k) : LoadsLaw (s.setLeg l g) := by
  refine h.ext (fun l' k' => ?_) fun _ => rfl
  rw [holds_setLeg]
  split
  · next e => rw [e, hg]
  · rfl

theorem charge_untouched (c : Charge) (tank dest : BinNo) (i : Identity) : Untouched s (s.charge c tank dest i) := by
  unfold State.charge
  extract_lets plan need r s1 s2
  have h1 : Untouched s s1 :=
    (draw_untouched s _ _).trans (.foldl (fun u (p : Portion) => modLot_untouched u p.lot Lot.addPortion) _ _)
  exact (h1.trans (reserve_untouched _ _ _ _ _ _)).trans (setDryer_untouched _ _)

theorem dryBatch_untouched (b : Batch) (reported : Nat) : Untouched s (s.dryBatch b reported) := by
  unfold State.dryBatch
  extract_lets set outlet dried s1 s2
  have h1 : Untouched s s1 := (Untouched.raiseIf s _ _).trans (.raiseIf _ _ _)
  have h2 : Untouched s1 s2 := .foldl (fun u r => modLot_untouched u _ _) _ _
  exact (h1.trans h2).trans ⟨rfl, rfl⟩

theorem LoadsLaw.launchStaged (h : LoadsLaw s) (l : LegNo) (x : Staging) : LoadsLaw (s.launchStaged l x).1 := by
  have hl := h.launch (x.request l)
  unfold State.launchStaged
  split
  · next e => rw [e] at hl; exact hl.setLeg l fun k => by cases k <;> rfl
  · next e => rw [e] at hl; exact hl.congr (.raiseIf _ _ _)

theorem LoadsLaw.cleanoutDone (h : LoadsLaw s) (l : LegNo) : LoadsLaw (s.cleanoutDone l) := by
  unfold State.cleanoutDone
  dsimp only
  split
  · next x hx =>
    split
    · refine h.setLeg l fun k => ?_
      cases k
      · simp only [Leg.slot, State.holds, hx]; rfl
      all_goals rfl
    · exact h
  · exact h

/-- The dryer's, the legs' and the schedules' operations touch no berth but through launches, ends and flow reports. -/
theorem TransferOperation.effect (h : TransferOperation s t) :
    Effect s t ∨ ∃ l x kg, (s.leg l).active = some x ∧ x.state = .running ∧ t = (s.flowReport l x kg).1 := by
  cases h
  case flowReport l x kg ha hr => exact .inr ⟨l, x, kg, ha, hr, rfl⟩
  all_goals left
  case warmUp | setStop | stopDryer | suspendDryer | clearFault | setDryerSettings | setCleanout | setRotation =>
    exact .untouched ⟨rfl, rfl⟩
  case charge st c tank dest i _ _ => exact .untouched (charge_untouched c tank dest i)
  case batchDried b reported _ _ =>
    exact .after (dryBatch_untouched b reported) (tryDischarge_quiet _) LoadsLaw.tryDischarge
  case discharge stop _ => exact .after (setDryer_untouched s _) (tryDischarge_quiet _) LoadsLaw.tryDischarge
  case faultDryer _ _ =>
    exact .after ((setDryer_untouched s _).trans (raise_untouched _ _)) (endTransfers_quiet _ _) fun hu =>
      LoadsLaw.endTransfers hu _
  case warmUpExpired =>
    refine .untouched ?_
    unfold State.warmUpExpired; split
    · split <;> exact ⟨rfl, rfl⟩
    · exact .refl s
  case dryingExpired =>
    refine .untouched ?_
    unfold State.dryingExpired; split
    · split
      · exact .refl s
      · exact ⟨rfl, rfl⟩
    · exact .refl s
  case setStaging l x => exact .after (.refl s) (.setLeg s l _) fun hu => hu.setLeg l fun k => by cases k <;> rfl
  case launchStaged l x _ => exact .after (.refl s) (launchStaged_quiet s l x) fun hu => hu.launchStaged l x
  case abort l k => exact .after (.refl s) (endTransfers_quiet s _) fun hu => hu.endTransfers _
  case markClean l _ => exact .after (.refl s) (.setLeg s l _) fun hu => hu.setLeg l fun k => by cases k <;> rfl
  case cleanoutDone l => exact .after (.refl s) (cleanoutDone_quiet s l) fun hu => hu.cleanoutDone l
  case reportTemperature b z =>
    unfold State.reportTemperature
    have h1 : Untouched s ((s.takeReading b z).freshen b) :=
      ((setBin_untouched s b _).trans (evaluateHot_untouched _ b)).trans (setBin_untouched _ _ _)
    dsimp only; split
    · exact .after h1 (examine_quiet _) LoadsLaw.examine
    · exact .untouched h1
  case setSchedule n r a b l _ _ _ =>
    exact .after (u := s.setEntry n (some (r.toEntry a b l))) ⟨rfl, rfl⟩ (examine_quiet _) LoadsLaw.examine
  case endSchedule n e abort _ =>
    unfold State.endSchedule
    extract_lets s1
    have h1 : Untouched s s1 := by
      unfold s1; split
      · exact .refl s
      · exact endEntry_untouched s _ _
    split
    · exact .after h1 (endTransfers_quiet _ _) fun hu => LoadsLaw.endTransfers hu _
    · exact .untouched h1
  case staleExpired b =>
    unfold State.staleExpired; dsimp only; split
    · exact .after ((setBin_untouched s b _).trans (raise_untouched _ _)) (examine_quiet _) LoadsLaw.examine
    · exact .untouched (.refl s)

/-! ### Berths -/

/-- An empty berth, or one just taken by a barge. -/
theorem Berth.cleared_base (b : Berth) {x : BerthState} {g : Option Barge} (hx : x = .vacant ↔ g = none)
    (hl : x ≠ .loading) : (b.cleared x g).Base :=
  ⟨hx, fun _ => rfl, by simp [Berth.cleared, Cargo.zero], fun e => absurd e hl, by simp [Berth.cleared],
    by simp [Berth.cleared, Cargo.zero]⟩

/-- What no condition of READY reads may change. -/
theorem Berth.Stands.setButton {b : Berth} (h : b.Stands) (v : Bool) : ({ b with button := v } : Berth).Stands :=
  ⟨⟨h.vacant, h.empty, h.limit, h.spout, h.positions, h.cargo⟩, h.ready, h.assigned⟩

theorem Berth.Base.setLines {b : Berth} (h : b.Base) (present moored enabled : Bool) :
    ({ b with present := present, moored := moored, enabled := enabled } : Berth).Base :=
  ⟨h.vacant, h.empty, h.limit, h.spout, h.positions, h.cargo⟩

theorem LoadsLaw.acceptBarge (hs : LoadsLaw s) {k : BerthNo} (g : Barge) (hv : (s.berth k).state = .vacant) :
    LoadsLaw (s.acceptBarge k g) := by
  have hbase : ((s.berth k).cleared .assigned (some g)).Base := Berth.cleared_base _ (by simp) nofun
  refine hs.putBerth (k := k) (x := ((s.berth k).cleared .assigned (some g)).relimited s.settings.river s.river)
    (recomputeLimit_legs _ k) (fun j => ?_) (by rw [Berth.relimited_claim]; rfl) (hbase.relimited nofun _ _) ?_
  · unfold State.acceptBarge
    rw [berth_recomputeLimit, State.berth_setBerth_same, State.berth_setBerth]
    split <;> rfl
  · rw [hv]
    refine ⟨fun e => ?_, nofun⟩
    have := (Berth.relimited_loading s.settings.river s.river ((s.berth k).cleared .assigned (some g))).1 e
    cases this

theorem releaseBarge_berth (k j : BerthNo) : (s.releaseBarge k).legs = s.legs ∧
    (s.releaseBarge k).berth j = if j = k then (s.berth k).cleared .vacant none else s.berth j := by
  unfold State.releaseBarge
  have hu : Untouched s ((s.berth k).manifest.foldl (fun t e => t.modLot e.lot Lot.dropManifest) s) :=
    .foldl (fun u (e : Manifested) => modLot_untouched u e.lot Lot.dropManifest) _ s
  exact ⟨hu.1, by rw [State.berth_setBerth, hu.berth]⟩

/-- A line of a berth has changed (R147). -/
theorem LoadsLaw.lineChanged (hs : LoadsLaw s) {k : BerthNo} {x : Berth} (hclaim : x.claim = (s.berth k).claim)
    (hstate : x.state = (s.berth k).state) (hx : x.Base) (f : Flag) (lost : Bool) (cause : HaltCause) :
    LoadsLaw (((s.setBerth k x).raise f).conditionChanged k lost cause) :=
  LoadsLaw.conditionChanged (t := (s.setBerth k x).raise f) hs rfl (s.berth_setBerth k x) hclaim hstate hx lost cause

/-- The berths' operations keep the law. -/
theorem BerthOperation.loads (h : BerthOperation s t) (hs : LoadsLaw s) : LoadsLaw t := by
  cases h with
  | acceptBarge k g hv => exact hs.acceptBarge g hv
  | setOrder k o _ _ =>
    have hb := (hs.stands k).toBase
    exact hs.reorder rfl rfl ⟨hb.vacant, hb.empty, hb.limit, hb.spout, hb.positions, hb.cargo⟩
  | setPlan k qs _ hc hd =>
    exact hs.reorder rfl rfl ((hs.stands k).toBase.setPlan (Loads.unclaimed hs hc) hd)
  | setEnable k v =>
    have hb := (hs.stands k).toBase
    exact hs.conditionChanged (x := { s.berth k with enabled := v }) (by rfl) (s.berth_setBerth k _) (by rfl) (by rfl)
      (hb.setLines (s.berth k).present (s.berth k).moored v) _ _
  | commandSpout k n select h1 h2 hl =>
    have hb := (hs.stands k).toBase
    refine hs.resettle (by rfl) (s.berth_setBerth k _) (by rfl) (by rfl)
      ⟨hb.vacant, hb.empty, hb.limit, fun e => absurd e hl, fun m hm => ?_, hb.cargo⟩
    rcases hm with hm | hm
    · exact hb.positions m (.inl hm)
    · cases hm; exact ⟨h1, h2⟩
  | spoutArrived k n hc =>
    have hb := (hs.stands k).toBase
    have hn := hb.positions n (.inr hc)
    set x : Berth := { s.berth k with current := some n, movePending := false, spoutTimer := none } with hx
    have hu : Untouched (s.setBerth k x) ((s.setBerth k x).raiseIf (s.berth k).enabled (flagSpoutDone k)) := .raiseIf _ _ _
    refine hs.resettle (x := x) hu.1 (fun j => by rw [hu.berth, State.berth_setBerth]) rfl rfl
      ⟨hb.vacant, hb.empty, hb.limit, fun _ => ⟨rfl, Berth.currentPosition_isSome (n := n) rfl hn.1 hn.2⟩,
        fun m hm => ?_, hb.cargo⟩
    rcases hm with hm | hm
    · cases hm; exact hn
    · exact hb.positions m (.inr hm)
  | spoutExpired k =>
    unfold State.spoutExpired
    dsimp only
    split
    · next hp =>
      have hb := (hs.stands k).toBase
      set x : Berth := { s.berth k with current := none, movePending := false, spoutTimer := none } with hx
      refine hs.resettle (x := x) (raise_untouched (s.setBerth k x) _).1
        (fun j => (raise_untouched (s.setBerth k x) _).berth j |>.trans (s.berth_setBerth k x j)) rfl rfl
        ⟨hb.vacant, hb.empty, hb.limit, fun e => ?_, fun m hm => ?_, hb.cargo⟩
      · rw [(hb.spout e).1] at hp; cases hp.1
      · rcases hm with hm | hm
        · cases hm
        · exact hb.positions m (.inr hm)
    · exact hs
  | resumeBerth k hh _ =>
    have hstate : (s.berth k).state ≠ .vacant ∧ (s.berth k).state ≠ .loading := by
      unfold Berth.isHalted at hh
      constructor <;> (intro e; rw [e] at hh; cases hh)
    refine hs.putBerth (completionTest_legs s k) (berth_completionTest s k) (Berth.completedTo_claim _)
      ((hs.stands k).completedTo hstate.1) ⟨fun e => absurd e (Berth.completedTo_state _), fun e => absurd e hstate.2⟩
  | releaseBarge k _ hc =>
    refine hs.putBerth (releaseBarge_berth k k).1 (fun j => (releaseBarge_berth k j).2) (by rfl)
      ((Berth.cleared_base (s.berth k) (x := .vacant) (g := none) (by simp) nofun).stands nofun nofun)
      ⟨nofun, fun e => absurd e (Loads.unclaimed hs hc)⟩
  | readStage z => exact LoadsLaw.recomputeLimits (hs.congr ⟨rfl, rfl⟩)
  | riverExpired =>
    unfold State.riverExpired; split
    · exact LoadsLaw.recomputeLimits (hs.congr ⟨rfl, rfl⟩)
    · exact hs
  | setRiver x =>
    unfold State.setRiver; dsimp only; split
    · exact hs.congr ⟨rfl, rfl⟩
    · exact LoadsLaw.recomputeLimits (hs.congr ⟨rfl, rfl⟩)
  | presentChanged k v =>
    unfold State.presentChanged; split
    · exact hs
    · exact hs.lineChanged (by rfl) (by rfl) ((hs.stands k).toBase.setLines v (s.berth k).moored (s.berth k).enabled) _ _ _
  | mooredChanged k v =>
    unfold State.mooredChanged; split
    · exact hs
    · exact hs.lineChanged (by rfl) (by rfl) ((hs.stands k).toBase.setLines (s.berth k).present v (s.berth k).enabled) _ _ _
  | buttonPressed k =>
    unfold State.buttonPressed; split
    · exact hs
    · exact hs.putBerth rfl (s.berth_setBerth k _) rfl ((hs.stands k).setButton true) Iff.rfl
  | buttonReleased k => exact hs.putBerth rfl (s.berth_setBerth k _) rfl ((hs.stands k).setButton false) Iff.rfl

end Operations

/-! ### Lines, starts and the clock -/

section System
variable {s t : State}

theorem LoadsLaw.stopLegs (h : LoadsLaw s) : LoadsLaw s.stopLegs := by
  unfold State.stopLegs
  induction allLegs generalizing s with
  | nil => exact h
  | cons l ls ih =>
    refine ih ?_
    refine Loads.congr (s := s.setLeg l { s.leg l with lastCarried := .unknown }) ?_ (.raiseIf _ _ _)
    exact h.setLeg l fun k => by cases k <;> rfl

theorem LoadsLaw.dropStagings (h : LoadsLaw s) (n : StationNo) : LoadsLaw (s.dropStagings n) := by
  unfold State.dropStagings
  induction allLegs generalizing s with
  | nil => exact h
  | cons l ls ih =>
    refine ih ?_
    dsimp only
    split
    · exact h.setLeg l fun k => by cases k <;> rfl
    · exact h

theorem setBank_untouched (b : Fin 2) (x : Bank) : Untouched s (s.setBank b x) := by
  unfold State.setBank; split <;> exact ⟨rfl, rfl⟩

theorem abandonCommit_untouched : Untouched s s.abandonCommit := by
  unfold State.abandonCommit; split
  · exact .refl s
  · dsimp only; split
    · exact .trans ⟨rfl, rfl⟩ (setBank_untouched _ _)
    · exact ⟨rfl, rfl⟩

theorem loadSettings_untouched : Untouched s s.loadSettings := by
  unfold State.loadSettings; split <;> exact ⟨rfl, rfl⟩

theorem losePower_untouched : Untouched s s.losePower := abandonCommit_untouched.trans ⟨rfl, rfl⟩

/-- The ends of every transfer leave every slot empty (R130). -/
theorem resetTransfers_holds (l : LegNo) (k : Slot) : s.resetTransfers.holds l k = none := by
  unfold State.resetTransfers
  rw [holds_foldl_endSlot]
  cases hx : (s.leg l).slot k with
  | none => simp [State.holds, hx]
  | some x =>
    rw [if_pos]
    refine List.any_eq_true.2 ⟨{ leg := l, slot := k, reason := .reset }, ?_, by simp⟩
    exact List.mem_flatMap.2 ⟨l, mem_allLegs l, List.mem_filterMap.2 ⟨k, mem_endOrder k, by simp [hx]⟩⟩

/-- The berths as a start finds their lines (R169, R193). -/
theorem berth_readLines (p : Pins) (s : State) (k : BerthNo) : (s.readLines p).berth k = { s.berth k with
    present := if k = 0 then p.presentA else p.presentB, moored := if k = 0 then p.mooredA else p.mooredB
    button := if k = 0 then p.buttonA else p.buttonB } := by
  unfold State.readLines
  extract_lets s1 old s2 old'
  revert k
  rw [Fin.forall_fin_two, State.berth_setBerth_same, State.berth_setBerth_other _ (by decide)]
  constructor
  · exact State.berth_setBerth_same _ _ _
  · have h1 : old' = s.berth 1 := s1.berth_setBerth_other (by decide) _
    simp [h1]

/-- A berth after a start's spout and line rules, before its limit is computed again (R169). -/
theorem Berth.Stands.started {b : Berth} (h : b.Stands) (hl : b.state ≠ .loading) (present moored button : Bool) :
    ({ b.warm with present := present, moored := moored, button := button } : Berth).Base := by
  unfold Berth.warm
  split
  · refine ⟨h.vacant, h.empty, h.limit, fun e => absurd e hl, fun n hn => ?_, h.cargo⟩
    rcases hn with hn | hn
    · cases hn
    · exact h.positions n (.inr hn)
  · exact ⟨h.vacant, h.empty, h.limit, fun e => absurd e hl, h.positions, h.cargo⟩

theorem Berth.warm_state (b : Berth) : b.warm.state = b.state ∧ b.warm.overLimit = b.overLimit := by
  unfold Berth.warm; split <;> exact ⟨rfl, rfl⟩

/-- The records of a warm start keep the law: no transfer is left (R130, R169). -/
theorem LoadsLaw.warmRecords (h : LoadsLaw s) (p : Pins) : LoadsLaw (s.warmRecords p) := by
  have h0 : LoadsLaw s.resetTransfers := Loads.foldl_endSlot _ h
  unfold State.warmRecords
  extract_lets s1 sized s2
  have hu1 : Untouched s.resetTransfers s1 := setDryer_untouched _ _
  have hleg (l : LegNo) : s2.leg l = (s1.leg l).warm := by simp [s2, State.leg, Vector.get]
  have hberth (k : BerthNo) : s2.berth k = (s1.berth k).warm := by simp [s2, State.berth, Vector.get]
  have hempty (l : LegNo) (k : Slot) : s2.holds l k = none := by
    have := resetTransfers_holds (s := s) l k
    rw [← hu1.holds] at this
    unfold State.holds at this ⊢
    rw [hleg]
    cases k <;> exact this
  generalize hv : allBerths.foldl (fun t k => t.recomputeLimit k) (s2.readLines p) = v
  have hvh (l : LegNo) (k : Slot) : v.holds l k = none := by
    rw [← hempty l k, ← hv]
    unfold State.holds State.leg
    rw [relimited_legs]
    rfl
  have hnot (k : BerthNo) : (s.resetTransfers.berth k).state ≠ .loading := by
    intro e
    obtain ⟨l, i, hi⟩ := h0.loading k e
    rw [resetTransfers_holds] at hi; cases hi
  have hvb (k : BerthNo) : (v.berth k).Stands ∧ (v.berth k).state ≠ .loading := by
    rw [← hv, berth_relimited]
    rw [berth_readLines, hberth, hu1.berth]
    have hst := h0.stands k
    obtain ⟨e1, e2⟩ := (s.resetTransfers.berth k).warm_state
    refine ⟨(hst.started (hnot k) _ _ _).relimited (fun hr => ?_) _ _, fun hl => ?_⟩
    · have hr' : (s.resetTransfers.berth k).state = .ready := e1 ▸ hr
      exact e2.trans (hst.ready_within hr')
    · have := (Berth.relimited_loading _ _ _).1 hl
      exact hnot k (e1 ▸ this)
  exact ⟨fun l k _ _ x _ hx => by (rw [hvh] at hx; cases hx), fun l k i b hx => by (rw [hvh] at hx; cases hx),
    fun l i b hx => by (rw [hvh] at hx; cases hx), fun b hb => absurd hb (hvb b).2, fun b => (hvb b).1⟩

theorem LoadsLaw.warmStart (h : LoadsLaw s) (p : Pins) : LoadsLaw (s.warmStart p) := by
  unfold State.warmStart
  extract_lets s2 s3 s5
  have h3 : LoadsLaw s3 :=
    (LoadsLaw.warmRecords (h.congr (abandonCommit_untouched.trans loadSettings_untouched)) p).congr ⟨rfl, rfl⟩
  have h5 : LoadsLaw s5 := (h3.congr (t := s3.clearAllFlags.raise flagStartWarm) ⟨rfl, rfl⟩).congr (.raiseIf _ _ _)
  unfold State.completeWarm
  refine LoadsLaw.examine (h5.congr (((expireOverdue_untouched s5).trans (.foldl (fun u b => ?_) _ _)).trans
    (.foldl (fun u k => raise_untouched u _) _ _)))
  exact ⟨rfl, rfl⟩

/-- A cold start leaves the legs and the berths empty (R131, R170). -/
theorem coldStart_berth (p : Pins) (k : BerthNo) : (s.coldStart p).legs = State.reset.legs ∧
    (s.coldStart p).berth k = Berth.cold (if k = 0 then p.presentA else p.presentB)
      (if k = 0 then p.mooredA else p.mooredB) (if k = 0 then p.buttonA else p.buttonB) := by
  unfold State.coldStart
  extract_lets s2 old s3
  have hu : Untouched (s3.readLines p)
      (((s3.readLines p).clearAllFlags.enableAll.raise flagStartCold).raiseIf s3.defaulted flagSettingsDefaulted) :=
    .trans ⟨rfl, rfl⟩ (.raiseIf _ _ _)
  have hk : s3.berth k = Berth.cold false false false := by
    show State.reset.berth k = _
    revert k; decide
  refine ⟨hu.1, ?_⟩
  rw [hu.berth, berth_readLines, hk]
  rfl

theorem coldStart_loads (p : Pins) : LoadsLaw (s.coldStart p) := by
  have hh (l : LegNo) (k : Slot) : (s.coldStart p).holds l k = none := by
    unfold State.holds State.leg
    rw [(coldStart_berth p 0).1]
    revert l
    cases k <;> decide
  have hs (k : BerthNo) : ((s.coldStart p).berth k).Stands ∧ ((s.coldStart p).berth k).state ≠ .loading := by
    rw [(coldStart_berth p k).2]
    exact ⟨⟨⟨by simp [Berth.cold], fun _ => rfl, by simp [Berth.cold, Cargo.zero], nofun, by simp [Berth.cold],
      by simp [Berth.cold, Cargo.zero]⟩, nofun, nofun⟩, nofun⟩
  exact ⟨fun l k _ _ x _ hx => by (rw [hh] at hx; cases hx), fun l k i b hx => by (rw [hh] at hx; cases hx),
    fun l i b hx => by (rw [hh] at hx; cases hx), fun b hb => absurd hb (hs b).2, fun b => (hs b).1⟩

theorem LoadsLaw.tick (h : LoadsLaw s) : LoadsLaw s.tick := by
  unfold State.tick
  split
  · have hleg (l : LegNo) : s.countDown.leg l = (s.leg l).countDown := by simp [State.countDown, State.leg, Vector.get]; rfl
    have hberth (k : BerthNo) : s.countDown.berth k = (s.berth k).countDown := by
      simp [State.countDown, State.berth, Vector.get]; rfl
    have hh (l : LegNo) (k : Slot) : s.countDown.holds l k = s.holds l k := by
      unfold State.holds
      rw [hleg]
      cases k
      · unfold Leg.slot Leg.countDown
        dsimp only
        rw [Option.map_map]
        refine congrArg (Option.map · (s.leg l).active) (funext fun x => ?_)
        dsimp only [Function.comp]
        split <;> rfl
      · rfl
      · rfl
    refine Loads.congr (s := s.countDown) ?_ ⟨rfl, rfl⟩
    refine h.changeBerths hh (fun b => by rw [hberth]; rfl) (fun b => ?_) (fun b => by rw [hberth]; exact id)
      (fun b hb => .inl (by rw [hberth]; exact hb)) nofun
    have hb := h.stands b
    rw [hberth]
    exact ⟨⟨hb.vacant, hb.empty, hb.limit, hb.spout, hb.positions, hb.cargo⟩, hb.ready, hb.assigned⟩
  · exact h.congr ⟨rfl, rfl⟩

theorem SystemOperation.loads (h : SystemOperation s t) (hs : LoadsLaw s) : LoadsLaw t := by
  cases h with
  | unchanged => exact hs
  | raise | lower | setEnables | setStation | beginCommit | setTime | resetPart | releaseEstop | releaseReset
  | setBackupLost => exact hs.congr ⟨rfl, rfl⟩
  | dropStation n x _ => exact LoadsLaw.dropStagings (s := s.setStation n x) (hs.congr ⟨rfl, rfl⟩) n
  | commitEnds =>
    refine hs.congr ?_
    unfold State.commitEnds; split
    · exact .refl s
    · exact (setBank_untouched _ _).trans ⟨rfl, rfl⟩
  | commitFails =>
    refine hs.congr ?_
    unfold State.commitFails; split
    · exact .refl s
    · exact (setBank_untouched _ _).trans ⟨rfl, rfl⟩
  | assertEstop =>
    unfold State.assertEstop; split
    · exact hs
    · have h0 : LoadsLaw { s with estop := true, dryer := s.dryer.stopped } := hs.congr ⟨rfl, rfl⟩
      exact h0.stopLegs.endTransfers _
  | losePower => exact hs.congr losePower_untouched
  | warmStart p => exact hs.warmStart p
  | warmReturn p => exact LoadsLaw.warmStart (hs.congr losePower_untouched) p
  | coldReturn p => exact coldStart_loads p

theorem Operation.loads (h : Operation s t) (hs : LoadsLaw s) : LoadsLaw t := by
  cases h with
  | intake h => exact h.effect.loads hs
  | transfer h =>
    rcases h.effect with h | ⟨l, x, kg, ha, -, rfl⟩
    · exact h.loads hs
    · exact hs.flowReport ha kg
  | berth h => exact h.loads hs
  | system h => exact h.loads hs

/-- Every step keeps unique ids, and the berths standing as they must with their transfers' claims. -/
theorem step_loads (h : step s = .next t) : LoadsLaw s → LoadsLaw t :=
  step_keeps h (fun _ hs => hs.congr ⟨rfl, rfl⟩) LoadsLaw.tick (fun _ _ _ hu => hu.congr ⟨rfl, rfl⟩)
    fun _ _ ho hu => ho.loads hu

end System

end Sys2Proof.Machine
end

section
/-! PROOFS. Every step keeps each berth's cargo the sum of its manifest (R157, "The berth record"). -/

namespace Sys2Proof.Machine

/-- Every berth holds the cargo and the manifest it held. -/
def SameLoad (s t : State) : Prop :=
  ∀ k, (t.berth k).cargo = (s.berth k).cargo ∧ (t.berth k).manifest = (s.berth k).manifest

section Same
variable {s t u : State}

theorem SameLoad.trans (h : SameLoad s t) (k : SameLoad t u) : SameLoad s u := fun b =>
  ⟨(k b).1.trans (h b).1, (k b).2.trans (h b).2⟩

theorem Quiet.sameLoad (h : Quiet s t) : SameLoad s t := fun k => ⟨(h.berths k).1, (h.berths k).2.1⟩

theorem Untouched.sameLoad (h : Untouched s t) : SameLoad s t := fun k => by rw [h.berth]; exact ⟨rfl, rfl⟩

theorem Effect.sameLoad (h : Effect s t) : SameLoad s t := by
  obtain ⟨u, hu, hq, -⟩ := h
  exact hu.sameLoad.trans hq.sameLoad

/-- A berth that is set with the cargo and the manifest it had. -/
theorem setBerth_sameLoad {k : BerthNo} {x : Berth} (h : x.cargo = (s.berth k).cargo ∧ x.manifest = (s.berth k).manifest) :
    SameLoad s (s.setBerth k x) := fun j => by
  rw [State.berth_setBerth]; split
  · next e => rw [e]; exact h
  · exact ⟨rfl, rfl⟩

theorem ManifestLaw.congr (hs : ManifestLaw s) (h : SameLoad s t) : ManifestLaw t := fun k => by
  obtain ⟨h1, h2⟩ := h k
  unfold Berth.manifestAgrees
  rw [h1, h2]; exact hs k

end Same

/-! ### Pieces -/

theorem addManifest_sum (lot kg : Nat) {m : List Manifested} (h : (m.map Manifested.lot).Nodup) :
    ((addManifest lot kg m).map Manifested.kg).sum = (m.map Manifested.kg).sum + kg := by
  unfold addManifest
  split
  · next ha =>
    induction m with
    | nil => cases ha
    | cons e m ih =>
      obtain ⟨hn, hm⟩ := List.nodup_cons.1 h
      by_cases he : e.lot = lot
      · have hrest : (m.map fun e => if e.lot = lot then { e with kg := e.kg + kg } else e) = m := by
          refine (List.map_congr_left fun x hx => ?_).trans (List.map_id m)
          exact if_neg fun e' => hn (List.mem_map.2 ⟨x, hx, e'.trans he.symm⟩)
        simp [hrest, he]; omega
      · have := ih hm (by simpa [he] using ha)
        simp only [List.map_cons, List.sum_cons, if_neg he, this]; omega
  · simp

/-- A piece that a berth does not refuse is in its cargo and its manifest alike (R157). -/
theorem Berth.manifestAgrees.load {b : Berth} (h : b.manifestAgrees) {p : Portion} (hr : b.refusesPiece p = false) :
    (b.load p).manifestAgrees := by
  obtain ⟨h1, h2, h3⟩ := h
  rw [Berth.load_frame]
  refine ⟨?_, addManifest_nodup h2 _ _, ?_⟩
  · show b.cargo.q + p.kg = _
    rw [addManifest_sum _ _ h2, h1]
  · show (addManifest p.lot p.kg b.manifest).length ≤ _
    unfold Berth.refusesPiece at hr
    unfold addManifest
    split
    · simpa using h3
    · next hn =>
      rw [Bool.eq_false_iff.2 hn] at hr
      simp only [Bool.not_false, Bool.true_and, decide_eq_false_iff_not, not_le] at hr
      simpa using hr

theorem movePiece_manifests {t : Transfer} {p : Portion} {x : Nat} {s u : State} (h : s.movePiece t p x = some u)
    (hs : ManifestLaw s) : ManifestLaw u := by
  unfold State.movePiece at h
  dsimp only at h
  have ht : ManifestLaw (s.takePiece t x) := hs.congr (takePiece_untouched s t x).sameLoad
  split at h
  · next k _ =>
    split at h
    · cases h
    · next hr =>
      cases h
      intro j
      rw [berth_loadPiece]
      split
      · refine (ht k).load ?_
        rw [(takePiece_untouched s t x).berth]
        simpa using hr
      · exact ht j
  · obtain ⟨v, hv, rfl⟩ := Option.map_eq_some_iff.1 h
    exact ht.congr ((deposit_untouched _ hv).trans (setBin_untouched _ _ _)).sameLoad

theorem flowReport_manifests {s : State} (l : LegNo) (t : Transfer) (kg : Nat) (hs : ManifestLaw s) :
    ManifestLaw (s.flowReport l t kg).1 := by
  rw [flowReport_eq]
  dsimp only
  refine ManifestLaw.congr ?_ (closeReport_quiet _ _ _ _).sameLoad
  obtain ⟨-, hf, -⟩ := moveReport_frame s l t kg
  have hp : ManifestLaw (s.movePieces t (s.sourceRounds t.source) (min kg (s.supply t))).2 :=
    movePieces_induction (R := fun _ s u => ManifestLaw s → ManifestLaw u) (fun _ => id)
      (fun _ _ _ _ _ _ _ _ _ h1 _ hr hs => hr (movePiece_manifests h1 hs)) _ _ s hs
  refine hp.congr fun k => ?_
  unfold State.berth
  rw [hf]
  exact ⟨rfl, rfl⟩

/-! ### Operations -/

section Operations
variable {s t : State}

theorem lineChanged_sameLoad {k : BerthNo} {x : Berth} (h : x.cargo = (s.berth k).cargo ∧ x.manifest = (s.berth k).manifest)
    (f : Flag) (lost : Bool) (cause : HaltCause) :
    SameLoad s (((s.setBerth k x).raise f).conditionChanged k lost cause) :=
  ((setBerth_sameLoad h).trans (Quiet.raise _ f).sameLoad).trans (conditionChanged_quiet _ k lost cause).sameLoad

/-- What the berths' operations do to cargo and manifest: nothing, but when a barge comes or leaves (R149, R162). -/
theorem BerthOperation.sameLoad (h : BerthOperation s t) : SameLoad s t ∨
    (∃ k g, (s.berth k).state = .vacant ∧ t = s.acceptBarge k g) ∨
    ∃ k, (s.berth k).state ≠ .vacant ∧ (s.berth k).claim = none ∧ t = s.releaseBarge k := by
  cases h
  case acceptBarge k g hv => exact .inr (.inl ⟨k, g, hv, rfl⟩)
  case releaseBarge k h1 h2 => exact .inr (.inr ⟨k, h1, h2, rfl⟩)
  all_goals left
  case setOrder k o _ _ => exact (setBerth_sameLoad ⟨by rfl, by rfl⟩).trans (orderChanged_quiet _ k).sameLoad
  case setPlan k qs _ _ _ => exact (setBerth_sameLoad ⟨by rfl, by rfl⟩).trans (orderChanged_quiet _ k).sameLoad
  case setEnable k v => exact (setBerth_sameLoad ⟨by rfl, by rfl⟩).trans (conditionChanged_quiet _ k _ _).sameLoad
  case commandSpout k n select _ _ _ => exact (setBerth_sameLoad ⟨by rfl, by rfl⟩).trans (settleReady_quiet _ k).sameLoad
  case spoutArrived k n _ =>
    exact ((setBerth_sameLoad ⟨by rfl, by rfl⟩).trans (Quiet.raiseIf _ _ _).sameLoad).trans (settleReady_quiet _ k).sameLoad
  case spoutExpired k =>
    unfold State.spoutExpired; dsimp only; split
    · exact ((setBerth_sameLoad ⟨by rfl, by rfl⟩).trans (Quiet.raise _ _).sameLoad).trans (settleReady_quiet _ k).sameLoad
    · exact (Quiet.refl s).sameLoad
  case resumeBerth k _ _ => exact (completionTest_quiet s k).sameLoad
  case readStage z => exact SameLoad.trans (fun _ => ⟨by rfl, by rfl⟩) (recomputeLimits_quiet _).sameLoad
  case riverExpired =>
    unfold State.riverExpired; split
    · exact SameLoad.trans (fun _ => ⟨by rfl, by rfl⟩) (recomputeLimits_quiet _).sameLoad
    · exact (Quiet.refl s).sameLoad
  case setRiver x =>
    unfold State.setRiver; dsimp only; split
    · exact fun _ => ⟨rfl, rfl⟩
    · exact SameLoad.trans (fun _ => ⟨by rfl, by rfl⟩) (recomputeLimits_quiet _).sameLoad
  case presentChanged k v =>
    unfold State.presentChanged; split
    · exact (Quiet.refl s).sameLoad
    · exact lineChanged_sameLoad ⟨by rfl, by rfl⟩ _ _ _
  case mooredChanged k v =>
    unfold State.mooredChanged; split
    · exact (Quiet.refl s).sameLoad
    · exact lineChanged_sameLoad ⟨by rfl, by rfl⟩ _ _ _
  case buttonPressed k =>
    unfold State.buttonPressed; split
    · exact (Quiet.refl s).sameLoad
    · exact (setBerth_sameLoad ⟨by rfl, by rfl⟩).trans (Quiet.raise _ _).sameLoad
  case buttonReleased k => exact setBerth_sameLoad ⟨by rfl, by rfl⟩

/-- A berth without grain. -/
theorem Berth.manifestAgrees_empty {b : Berth} (h1 : b.cargo = Cargo.zero) (h2 : b.manifest = []) : b.manifestAgrees := by
  unfold Berth.manifestAgrees; rw [h1, h2]; simp [Cargo.zero]

theorem BerthOperation.manifests (h : BerthOperation s t) (hs : ManifestLaw s) : ManifestLaw t := by
  rcases h.sameLoad with h | ⟨k, g, _, rfl⟩ | ⟨k, _, _, rfl⟩
  · exact hs.congr h
  · unfold State.acceptBarge
    refine ManifestLaw.congr (s := s.setBerth k ((s.berth k).cleared .assigned (some g))) (fun j => ?_)
      (recomputeLimit_quiet _ k).sameLoad
    rw [State.berth_setBerth]; split
    · exact Berth.manifestAgrees_empty rfl rfl
    · exact hs j
  · intro j
    rw [(releaseBarge_berth k j).2]; split
    · exact Berth.manifestAgrees_empty rfl rfl
    · exact hs j

theorem warmRecords_sameLoad (p : Pins) : SameLoad s (s.warmRecords p) := by
  unfold State.warmRecords
  extract_lets s1 sized s2
  have h1 : SameLoad s s1 := (resetTransfers_quiet s).sameLoad.trans (setDryer_untouched _ _).sameLoad
  have h2 : SameLoad s1 s2 := fun k => by
    have : s2.berth k = (s1.berth k).warm := by simp [s2, State.berth, Vector.get]
    rw [this]; unfold Berth.warm; split <;> exact ⟨rfl, rfl⟩
  have h3 : SameLoad s2 (s2.readLines p) := fun k => by rw [berth_readLines]; exact ⟨rfl, rfl⟩
  exact ((h1.trans h2).trans h3).trans (Quiet.foldl (fun t k => recomputeLimit_quiet t k) _ _).sameLoad

theorem warmStart_sameLoad (p : Pins) : SameLoad s (s.warmStart p) := by
  unfold State.warmStart
  extract_lets s2 s3 s5
  have h3 : SameLoad s s3 :=
    ((abandonCommit_untouched.trans loadSettings_untouched).sameLoad.trans (warmRecords_sameLoad p)).trans fun _ => ⟨rfl, rfl⟩
  have h5 : SameLoad s3 s5 := SameLoad.trans (t := s3.clearAllFlags.raise flagStartWarm) (fun _ => ⟨rfl, rfl⟩)
    (Quiet.raiseIf _ _ _).sameLoad
  unfold State.completeWarm
  refine (h3.trans h5).trans (SameLoad.trans (Untouched.sameLoad ?_) (examine_quiet _).sameLoad)
  exact ((expireOverdue_untouched s5).trans (.foldl (fun u b => ⟨by rfl, by rfl⟩) _ _)).trans
    (.foldl (fun u k => raise_untouched u _) _ _)

theorem SystemOperation.manifests (h : SystemOperation s t) (hs : ManifestLaw s) : ManifestLaw t := by
  cases h with
  | unchanged => exact hs
  | raise | lower | setEnables | setStation | beginCommit | setTime | resetPart | releaseEstop | releaseReset
  | setBackupLost => exact hs.congr fun _ => ⟨rfl, rfl⟩
  | dropStation n x _ =>
    exact hs.congr (SameLoad.trans (t := s.setStation n x) (fun _ => ⟨rfl, rfl⟩) (dropStagings_quiet _ n).sameLoad)
  | commitEnds =>
    refine hs.congr (Untouched.sameLoad ?_)
    unfold State.commitEnds; split
    · exact .refl s
    · exact (setBank_untouched _ _).trans ⟨rfl, rfl⟩
  | commitFails =>
    refine hs.congr (Untouched.sameLoad ?_)
    unfold State.commitFails; split
    · exact .refl s
    · exact (setBank_untouched _ _).trans ⟨rfl, rfl⟩
  | assertEstop =>
    unfold State.assertEstop; split
    · exact hs
    · have h0 : SameLoad s { s with estop := true, dryer := s.dryer.stopped } := fun _ => ⟨rfl, rfl⟩
      exact hs.congr ((h0.trans (stopLegs_quiet _).sameLoad).trans (endTransfers_quiet _ _).sameLoad)
  | losePower => exact hs.congr losePower_untouched.sameLoad
  | warmStart p => exact hs.congr (warmStart_sameLoad p)
  | warmReturn p => exact hs.congr (losePower_untouched.sameLoad.trans (warmStart_sameLoad p))
  | coldReturn p => exact fun k => by rw [(coldStart_berth p k).2]; exact Berth.manifestAgrees_empty rfl rfl

theorem tick_sameLoad : SameLoad s s.tick := by
  unfold State.tick
  split
  · intro k
    have : s.countDown.berth k = (s.berth k).countDown := by simp [State.countDown, State.berth, Vector.get]; rfl
    show (s.countDown.berth k).cargo = _ ∧ (s.countDown.berth k).manifest = _
    rw [this]; exact ⟨rfl, rfl⟩
  · exact fun _ => ⟨rfl, rfl⟩

/-- Every step keeps the manifests. -/
theorem step_manifests (h : step s = .next t) : ManifestLaw s → ManifestLaw t := by
  refine step_keeps h (fun _ hs => hs.congr fun _ => ⟨rfl, rfl⟩) (fun hs => hs.congr tick_sameLoad)
    (fun _ _ _ hu => hu.congr fun _ => ⟨rfl, rfl⟩) fun u v ho hu => ?_
  cases ho with
  | intake h => exact hu.congr h.effect.sameLoad
  | transfer h =>
    rcases h.effect with h | ⟨l, x, kg, -, -, rfl⟩
    · exact hu.congr h.sameLoad
    · exact flowReport_manifests l x kg hu
  | berth h => exact h.manifests hu
  | system h => exact h.manifests hu

end Operations

end Sys2Proof.Machine
end

section
/-! PROOFS. The lots' books: what stands under each number, summed over bins, portions, tickets and berths, and the
account law as what every number finds in the lot table against what stands under it (R3, R5, R6, R10, R11). -/

namespace Sys2Proof.Machine

/-! ### What stands under a number -/

/-- The kilograms of a lot in a stack, and how many of its layers are the lot's. -/
def layerKg (n : Nat) (ls : List Layer) : Nat := ((ls.filter fun x => x.lot == n).map Layer.kg).sum
def layerNo (n : Nat) (ls : List Layer) : Nat := (ls.filter fun x => x.lot == n).length

/-- The kilograms of a lot in a list of portions, and how many are the lot's. -/
def portionKg (n : Nat) (ps : List Portion) : Nat := ((ps.filter fun p => p.lot == n).map Portion.kg).sum
def portionNo (n : Nat) (ps : List Portion) : Nat := (ps.filter fun p => p.lot == n).length

/-- A ticket bound to a lot, counted, and its estimate. -/
def Ticket.bindsTo (n : Nat) (t : Ticket) : Bool := t.assignment.map Assignment.lot == some n
def ticketNo (n : Nat) (ts : List Ticket) : Nat := (ts.filter (Ticket.bindsTo n)).length
def ticketKg (n : Nat) (ts : List Ticket) : Nat :=
  ((ts.filter (Ticket.bindsTo n)).map fun t => (t.assignment.map Assignment.estimate).getD 0).sum

/-- A berth's manifest names a lot. -/
def Berth.lists (n : Nat) (b : Berth) : Bool := b.manifest.any fun e => e.lot == n

/-- What stands under a lot's number. -/
structure Tally where
  layerKg : Nat
  layers : Nat
  portionKg : Nat
  portions : Nat
  tickets : Nat
  estimate : Nat
  manifests : Nat

def State.tally (s : State) (n : Nat) : Tally where
  layerKg := (allBins.map fun b => Machine.layerKg n (s.bin b).layers).sum
  layers := (allBins.map fun b => layerNo n (s.bin b).layers).sum
  portionKg := Machine.portionKg n s.portions
  portions := portionNo n s.portions
  tickets := ticketNo n s.tickets
  estimate := ticketKg n s.tickets
  manifests := (allBerths.map fun k => ((s.berth k).lists n).toNat).sum

/-- Nothing stands under a number. -/
structure Tally.Empty (T : Tally) : Prop where
  layerKg : T.layerKg = 0
  layers : T.layers = 0
  portionKg : T.portionKg = 0
  portions : T.portions = 0
  tickets : T.tickets = 0
  estimate : T.estimate = 0
  manifests : T.manifests = 0

/-- A lot's record agrees with what stands under its number. -/
structure Lot.Fits (l : Lot) (T : Tally) : Prop where
  accounts : l.received = l.standing + l.waterLoss + l.handlingLoss + l.shipped + l.writtenOff
  standing : l.standing = T.layerKg + T.portionKg
  layers : l.layerCount = T.layers
  portions : l.portionCount = T.portions
  tickets : l.pendingTickets = T.tickets
  estimate : l.pendingEstimate = T.estimate
  manifests : l.manifestRefs = T.manifests

/-- Every number's lot agrees with what stands under it, and nothing stands under a number without a lot. -/
def Ledger (s : State) : Prop :=
  ∀ n, (∀ l, s.lot? n = some l → l.Fits (s.tally n)) ∧ (s.lot? n = none → (s.tally n).Empty)

/-- Tickets and reservations agree (R29, R74). -/
structure Bookings (s : State) : Prop where
  bound : ∀ t ∈ s.tickets, t.assignment.isSome = true ↔ t.state = .assigned ∨ t.state = .dumped
  reserved : ∀ t ∈ s.tickets, ∀ a ∈ t.assignment, ∃ h ∈ (s.bin a.dest).held (.ticket t.number), 1 ≤ h.slots
  holders : ∀ b, ∀ h ∈ (s.bin b).holders, ∀ n, h.who = .ticket n →
    ∃ t ∈ s.tickets, t.number = n ∧ t.assignment.map Assignment.dest = some b

/-- The handling shrink lies in its range wherever settings stand (R100). -/
def HandlingLaw (s : State) : Prop :=
  s.settings.handlingFits ∧ s.bank0.image.handlingFits ∧ s.bank1.image.handlingFits ∧
    ∀ b g x, s.commit = .writing b g x → x.handlingFits

/-! ### Sums -/

section Sums
variable (n : Nat)

@[simp] theorem layerKg_nil : layerKg n [] = 0 := rfl
@[simp] theorem layerNo_nil : layerNo n [] = 0 := rfl
@[simp] theorem portionKg_nil : portionKg n [] = 0 := rfl
@[simp] theorem portionNo_nil : portionNo n [] = 0 := rfl

@[simp] theorem layerKg_cons (x : Layer) (ls : List Layer) :
    layerKg n (x :: ls) = (if x.lot = n then x.kg else 0) + layerKg n ls := by
  unfold layerKg; by_cases h : x.lot = n <;> simp [h]

@[simp] theorem layerNo_cons (x : Layer) (ls : List Layer) :
    layerNo n (x :: ls) = (if x.lot = n then 1 else 0) + layerNo n ls := by
  unfold layerNo; by_cases h : x.lot = n <;> simp [h, Nat.add_comm]

@[simp] theorem portionKg_cons (x : Portion) (ps : List Portion) :
    portionKg n (x :: ps) = (if x.lot = n then x.kg else 0) + portionKg n ps := by
  unfold portionKg; by_cases h : x.lot = n <;> simp [h]

@[simp] theorem portionNo_cons (x : Portion) (ps : List Portion) :
    portionNo n (x :: ps) = (if x.lot = n then 1 else 0) + portionNo n ps := by
  unfold portionNo; by_cases h : x.lot = n <;> simp [h, Nat.add_comm]

@[simp] theorem layerKg_append (ls ms : List Layer) : layerKg n (ls ++ ms) = layerKg n ls + layerKg n ms := by
  simp [layerKg]

@[simp] theorem layerNo_append (ls ms : List Layer) : layerNo n (ls ++ ms) = layerNo n ls + layerNo n ms := by
  simp [layerNo]

theorem layerKg_pos_of {ls : List Layer} (h : layerNo n ls = 0) : layerKg n ls = 0 := by
  unfold layerNo at h; unfold layerKg; rw [List.eq_nil_of_length_eq_zero h]; rfl

theorem portionKg_of_none {ps : List Portion} (h : portionNo n ps = 0) : portionKg n ps = 0 := by
  unfold portionNo at h; unfold portionKg; rw [List.eq_nil_of_length_eq_zero h]; rfl

theorem ticketKg_of_none {ts : List Ticket} (h : ticketNo n ts = 0) : ticketKg n ts = 0 := by
  unfold ticketNo at h; unfold ticketKg; rw [List.eq_nil_of_length_eq_zero h]; rfl

theorem layerNo_eq_zero {ls : List Layer} : layerNo n ls = 0 ↔ ∀ x ∈ ls, x.lot ≠ n := by
  simp [layerNo]

theorem portionNo_eq_zero {ps : List Portion} : portionNo n ps = 0 ↔ ∀ x ∈ ps, x.lot ≠ n := by
  simp [portionNo]

theorem ticketNo_eq_zero {ts : List Ticket} : ticketNo n ts = 0 ↔ ∀ t ∈ ts, t.assignment.map Assignment.lot ≠ some n := by
  simp [ticketNo, Ticket.bindsTo]

end Sums

/-- A sum over a list of lists, joined. -/
theorem sum_map_flatMap {α β : Type} (xs : List α) (f : α → List β) (g : β → Nat) :
    ((xs.flatMap f).map g).sum = (xs.map fun x => ((f x).map g).sum).sum := by
  induction xs with
  | nil => rfl
  | cons x xs ih => simp [ih]

theorem mem_allBins (b : BinNo) : b ∈ allBins := List.mem_finRange b

section Law
variable {s : State}

/-- The sums of the law are those of the tally. -/
theorem State.tally_eq (s : State) (n : Nat) :
    ((s.layersOf n).map Layer.kg).sum = (s.tally n).layerKg ∧ (s.layersOf n).length = (s.tally n).layers ∧
      (s.manifestsOf n).length = (s.tally n).manifests := by
  refine ⟨sum_map_flatMap _ _ _, List.length_flatMap, ?_⟩
  show (s.manifestsOf n).length = ((s.berth 0).lists n).toNat + (((s.berth 1).lists n).toNat + 0)
  unfold State.manifestsOf allBerths
  show (List.filter (fun k => (s.berth k).lists n) [0, 1]).length = _
  cases h0 : (s.berth 0).lists n <;> cases h1 : (s.berth 1).lists n <;> simp [h0, h1]

theorem balanced_iff (l : Lot) : s.Balanced l ↔ l.Fits (s.tally l.no) := by
  obtain ⟨e1, e2, e3⟩ := s.tally_eq l.no
  constructor
  · rintro ⟨h1, h2, h3, h4, h5, h6, h7⟩
    rw [e1] at h2; rw [e2] at h3; rw [e3] at h7
    exact ⟨h1, h2, h3, h4, h5, h6, h7⟩
  · rintro ⟨h1, h2, h3, h4, h5, h6, h7⟩
    rw [← e1] at h2; rw [← e2] at h3; rw [← e3] at h7
    exact ⟨h1, h2, h3, h4, h5, h6, h7⟩

/-- A lot of the table is found under its number. -/
theorem TableLaw.lot?_of_mem (h : TableLaw s) {l : Lot} (hl : l ∈ s.lots) : s.lot? l.no = some l := by
  cases hf : s.lot? l.no with
  | none => exact absurd (by simp) (List.find?_eq_none.1 hf l hl)
  | some m =>
    obtain ⟨hm, e⟩ := State.lot?_mem hf
    rw [h.lot_unique hm hl e]

theorem sum_eq_zero_of_mem {α : Type} {xs : List α} {f : α → Nat} (h : (xs.map f).sum = 0) {a : α} (ha : a ∈ xs) :
    f a = 0 := by
  have := List.le_sum_of_mem (List.mem_map.2 ⟨a, ha, rfl⟩ : f a ∈ xs.map f)
  omega

/-- The account law is the ledger with the bookings and the handling shrink. -/
theorem accountLaw_iff (ht : TableLaw s) : AccountLaw s ↔ Ledger s ∧ Bookings s ∧ HandlingLaw s := by
  constructor
  · intro h
    refine ⟨fun n => ⟨fun l hl => ?_, fun hn => ?_⟩, ⟨h.bound, h.reserved, h.holders⟩, h.handling⟩
    · obtain ⟨hm, rfl⟩ := State.lot?_mem hl
      exact (balanced_iff l).1 (h.lots l hm)
    · have absent {m : Nat} (hs : (s.lot? m).isSome = true) : m ≠ n := by rintro rfl; rw [hn] at hs; cases hs
      have hlayer (b : BinNo) : layerNo n (s.bin b).layers = 0 :=
        (layerNo_eq_zero n).2 fun x hx => absent (h.layers b x hx)
      have hport : portionNo n s.portions = 0 := (portionNo_eq_zero n).2 fun p hp => absent (h.portions p hp)
      have htick : ticketNo n s.tickets = 0 := (ticketNo_eq_zero n).2 fun t ht e => by
        obtain ⟨a, ha, e⟩ := Option.map_eq_some_iff.1 e
        exact absent (h.tickets t ht a ha) e
      have hman (k : BerthNo) : (s.berth k).lists n = false := by
        rw [Bool.eq_false_iff]
        intro e
        obtain ⟨x, hx, e⟩ := List.any_eq_true.1 e
        exact absent (h.manifests k x hx) (by simpa using e)
      exact ⟨List.sum_eq_zero (by simpa using fun b _ => layerKg_pos_of n (hlayer b)),
        List.sum_eq_zero (by simpa using fun b _ => hlayer b), portionKg_of_none n hport, hport, htick,
        ticketKg_of_none n htick,
        List.sum_eq_zero fun x hx => by obtain ⟨k, -, rfl⟩ := List.mem_map.1 hx; rw [hman k]; rfl⟩
  · rintro ⟨hl, hb, hh⟩
    have found {n : Nat} (h : ¬ (s.tally n).Empty) : (s.lot? n).isSome = true := by
      cases hn : s.lot? n with
      | none => exact absurd ((hl n).2 hn) h
      | some l => rfl
    refine ⟨fun l hm => (balanced_iff l).2 ((hl l.no).1 l (ht.lot?_of_mem hm)), fun b x hx => found fun e => ?_,
      fun p hp => found fun e => ?_, fun k x hx => found fun e => ?_, fun t ht a ha => found fun e => ?_, hb.bound,
      hb.reserved, hb.holders, hh⟩
    · exact (layerNo_eq_zero _).1 (sum_eq_zero_of_mem e.layers (mem_allBins b)) x hx rfl
    · exact (portionNo_eq_zero _).1 e.portions p hp rfl
    · have h0 := sum_eq_zero_of_mem e.manifests (mem_allBerths k)
      have : (s.berth k).lists x.lot = true := List.any_eq_true.2 ⟨x, hx, by simp⟩
      rw [this] at h0; cases h0
    · exact (ticketNo_eq_zero _).1 e.tickets t ht (by rw [ha]; rfl)

end Law

/-! ### Changes of one kind of record -/

section Changes
variable {s t : State}

/-- The law of the ledger through a change of every lot's record and of what stands under its number. -/
theorem Ledger.post (h : Ledger s) (g : Nat → Lot → Lot) (hl : ∀ n, t.lot? n = (s.lot? n).map (g n))
    (hf : ∀ n l, s.lot? n = some l → l.Fits (s.tally n) → (g n l).Fits (t.tally n))
    (he : ∀ n, s.lot? n = none → (s.tally n).Empty → (t.tally n).Empty) : Ledger t := by
  intro n
  rw [hl]
  refine ⟨fun l e => ?_, fun e => ?_⟩
  · obtain ⟨m, hm, rfl⟩ := Option.map_eq_some_iff.1 e
    exact hf n m hm ((h n).1 m hm)
  · have hn := Option.map_eq_none_iff.1 e
    exact he n hn ((h n).2 hn)

/-- What stands under the numbers is as it was. -/
structure SameTally (s t : State) : Prop where
  layers : ∀ b, (t.bin b).layers = (s.bin b).layers
  portions : t.portions = s.portions
  tickets : ∀ n, ticketNo n t.tickets = ticketNo n s.tickets ∧ ticketKg n t.tickets = ticketKg n s.tickets
  manifests : ∀ k, (t.berth k).manifest = (s.berth k).manifest

/-- The tickets' sums are of their assignments alone. -/
theorem ticket_sums_congr {ts us : List Ticket} (h : us.map Ticket.assignment = ts.map Ticket.assignment) (n : Nat) :
    ticketNo n us = ticketNo n ts ∧ ticketKg n us = ticketKg n ts := by
  have no (ts : List Ticket) :
      ticketNo n ts = ((ts.map Ticket.assignment).filter fun a => a.map Assignment.lot == some n).length := by
    unfold ticketNo; rw [List.filter_map, List.length_map]; rfl
  have kg (ts : List Ticket) : ticketKg n ts = (((ts.map Ticket.assignment).filter fun a =>
      a.map Assignment.lot == some n).map fun a => (a.map Assignment.estimate).getD 0).sum := by
    unfold ticketKg; rw [List.filter_map, List.map_map]; rfl
  rw [no, no, kg, kg, h]
  exact ⟨rfl, rfl⟩

theorem SameTally.tally (h : SameTally s t) (n : Nat) : t.tally n = s.tally n := by
  obtain ⟨e1, e2⟩ := h.tickets n
  have e3 (k : BerthNo) : (t.berth k).lists n = (s.berth k).lists n := by unfold Berth.lists; rw [h.manifests]
  unfold State.tally
  simp only [h.layers, h.portions, e1, e2, e3]

/-- The figures of a lot that the law reads. -/
def Lot.SameFigures (l m : Lot) : Prop :=
  m.received = l.received ∧ m.standing = l.standing ∧ m.waterLoss = l.waterLoss ∧ m.handlingLoss = l.handlingLoss ∧
    m.shipped = l.shipped ∧ m.writtenOff = l.writtenOff ∧ m.layerCount = l.layerCount ∧
    m.portionCount = l.portionCount ∧ m.pendingTickets = l.pendingTickets ∧ m.pendingEstimate = l.pendingEstimate ∧
    m.manifestRefs = l.manifestRefs

theorem Lot.Fits.congr {l m : Lot} {T : Tally} (h : l.Fits T) (e : l.SameFigures m) : m.Fits T := by
  obtain ⟨e1, e2, e3, e4, e5, e6, e7, e8, e9, e10, e11⟩ := e
  exact ⟨by rw [e1, e2, e3, e4, e5, e6]; exact h.accounts, by rw [e2]; exact h.standing, by rw [e7]; exact h.layers,
    by rw [e8]; exact h.portions, by rw [e9]; exact h.tickets, by rw [e10]; exact h.estimate, by rw [e11]; exact h.manifests⟩

/-- Nothing that the law reads has changed. -/
theorem Ledger.congr (h : Ledger s) (ht : SameTally s t) (g : Nat → Lot → Lot)
    (hl : ∀ n, t.lot? n = (s.lot? n).map (g n)) (hg : ∀ n, ∀ l : Lot, l.SameFigures (g n l)) : Ledger t :=
  h.post g hl (fun n l _ hf => by rw [ht.tally]; exact hf.congr (hg n l)) fun n _ he => by rw [ht.tally]; exact he

theorem Ledger.same (h : Ledger s) (ht : SameTally s t) (hl : t.lots = s.lots) : Ledger t :=
  h.congr ht (fun _ => id) (fun n => by rw [State.lot?_congr hl, Option.map_id]; rfl) fun _ _ =>
    ⟨rfl, rfl, rfl, rfl, rfl, rfl, rfl, rfl, rfl, rfl, rfl⟩

/-- A change of one bin's stack. -/
theorem tally_bin (n : Nat) {b : BinNo} (hb : ∀ c, c ≠ b → (t.bin c).layers = (s.bin c).layers) :
    (t.tally n).layerKg + layerKg n (s.bin b).layers = (s.tally n).layerKg + layerKg n (t.bin b).layers ∧
      (t.tally n).layers + layerNo n (s.bin b).layers = (s.tally n).layers + layerNo n (t.bin b).layers := by
  refine ⟨?_, ?_⟩
  · exact sum_map_change (List.nodup_finRange 42) (List.mem_finRange b) (f := fun c => layerKg n (s.bin c).layers)
      (g := fun c => layerKg n (t.bin c).layers) fun c hc => by rw [hb c hc]
  · exact sum_map_change (List.nodup_finRange 42) (List.mem_finRange b) (f := fun c => layerNo n (s.bin c).layers)
      (g := fun c => layerNo n (t.bin c).layers) fun c hc => by rw [hb c hc]

/-- Manifests that stand count as they did. -/
theorem tally_manifests (n : Nat) (hm : ∀ k, (t.berth k).manifest = (s.berth k).manifest) :
    (t.tally n).manifests = (s.tally n).manifests := by
  have e (k : BerthNo) : (t.berth k).lists n = (s.berth k).lists n := by unfold Berth.lists; rw [hm]
  unfold State.tally
  simp only [e]

end Changes

/-! ### Bookings and settings that stand -/

section Bookings
variable {s t : State}

/-- A ticket's reservation is found among the tickets' reservations. -/
theorem Bin.held_ticketHolders (x : Bin) (n : Nat) :
    x.held (.ticket n) = x.ticketHolders.find? fun h => h.who == .ticket n := by
  unfold Bin.held Bin.ticketHolders
  rw [List.find?_filter]
  refine congrArg (List.find? · x.holders) (funext fun h => ?_)
  by_cases e : h.who = .ticket n
  · simp [e, HolderRef.isTicket]
  · simp [e]

theorem Bin.mem_ticketHolders {x : Bin} {h : Holder} {n : Nat} (hw : h.who = .ticket n) :
    h ∈ x.ticketHolders ↔ h ∈ x.holders := by
  unfold Bin.ticketHolders
  rw [List.mem_filter, hw]
  exact and_iff_left rfl

/-- A ticket in one of the states in which a ticket is bound. -/
def Ticket.inBound (t : Ticket) : Prop := t.state = .assigned ∨ t.state = .dumped

/-- What the bookings read of a ticket. -/
def Ticket.booking (t : Ticket) : Nat × Prop × Option Assignment := (t.number, t.inBound, t.assignment)

/-- The bookings are of the tickets' numbers, states and assignments, and of the tickets' reservations. -/
theorem Bookings.congr (h : Bookings s) (ht : t.tickets.map Ticket.booking = s.tickets.map Ticket.booking)
    (hb : ∀ b, (t.bin b).ticketHolders = (s.bin b).ticketHolders) : Bookings t := by
  have back {u : Ticket} (hu : u ∈ t.tickets) : ∃ v ∈ s.tickets, v.number = u.number ∧ v.inBound = u.inBound ∧
      v.assignment = u.assignment := by
    have : u.booking ∈ s.tickets.map Ticket.booking := by rw [← ht]; exact List.mem_map_of_mem hu
    obtain ⟨v, hv, e⟩ := List.mem_map.1 this
    simp only [Ticket.booking, Prod.mk.injEq] at e
    exact ⟨v, hv, e⟩
  refine ⟨fun u hu => ?_, fun u hu a ha => ?_, fun b x hx n hn => ?_⟩
  · obtain ⟨v, hv, -, e2, e3⟩ := back hu
    show _ ↔ u.inBound
    rw [← e2, ← e3]; exact h.bound v hv
  · obtain ⟨v, hv, e1, -, e3⟩ := back hu
    rw [← e3] at ha
    rw [← e1, Bin.held_ticketHolders, hb, ← Bin.held_ticketHolders]
    exact h.reserved v hv a ha
  · have hx' : x ∈ (s.bin b).holders := by
      rw [← Bin.mem_ticketHolders hn, ← hb, Bin.mem_ticketHolders hn]; exact hx
    obtain ⟨v, hv, hvn, hvd⟩ := h.holders b x hx' n hn
    have : v.booking ∈ t.tickets.map Ticket.booking := by rw [ht]; exact List.mem_map_of_mem hv
    obtain ⟨u, hu, e⟩ := List.mem_map.1 this
    simp only [Ticket.booking, Prod.mk.injEq] at e
    exact ⟨u, hu, e.1.trans hvn, by rw [e.2.2]; exact hvd⟩

theorem HandlingLaw.congr (h : HandlingLaw s) (h1 : t.settings.dryer.handling = s.settings.dryer.handling)
    (h2 : t.bank0 = s.bank0) (h3 : t.bank1 = s.bank1) (h4 : t.commit = s.commit) : HandlingLaw t := by
  obtain ⟨k1, k2, k3, k4⟩ := h
  unfold HandlingLaw Settings.handlingFits at *
  rw [h1, h2, h3, h4]
  exact ⟨k1, k2, k3, k4⟩

/-- The books of the part: the ledger, the bookings, and the handling shrink in its range. -/
structure Books (s : State) : Prop where
  ledger : Ledger s
  bookings : Bookings s
  handling : HandlingLaw s

theorem Quiet.sameTally (h : Quiet s t) : SameTally s t :=
  ⟨fun b => (h.bins b).1, h.portions, fun n => by rw [h.frame]; exact ⟨rfl, rfl⟩, fun k => (h.berths k).2.1⟩

/-- What moves no grain and changes no ticket's reservation keeps the books. -/
theorem Books.quiet (h : Books s) (q : Quiet s t) : Books t :=
  ⟨h.ledger.same q.sameTally (by rw [q.frame]), h.bookings.congr (by rw [q.frame]) q.tickets,
    h.handling.congr (by rw [q.frame]) (by rw [q.frame]) (by rw [q.frame]) (by rw [q.frame])⟩

/-- What the books read stands as it stood. -/
structure SameBooks (s t : State) : Prop where
  lots : t.lots = s.lots
  bins : ∀ b, (t.bin b).layers = (s.bin b).layers ∧ (t.bin b).holders = (s.bin b).holders
  portions : t.portions = s.portions
  manifests : ∀ k, (t.berth k).manifest = (s.berth k).manifest
  tickets : t.tickets.map Ticket.booking = s.tickets.map Ticket.booking
  handling : HandlingLaw s → HandlingLaw t

theorem assignments_of_bookings (h : t.tickets.map Ticket.booking = s.tickets.map Ticket.booking) :
    t.tickets.map Ticket.assignment = s.tickets.map Ticket.assignment := by
  have := congrArg (List.map fun x : Nat × Prop × Option Assignment => x.2.2) h
  rw [List.map_map, List.map_map] at this; exact this

theorem Books.same (h : Books s) (k : SameBooks s t) : Books t :=
  ⟨h.ledger.same ⟨fun b => (k.bins b).1, k.portions, ticket_sums_congr (assignments_of_bookings k.tickets), k.manifests⟩ k.lots,
    h.bookings.congr k.tickets fun b => by unfold Bin.ticketHolders; rw [(k.bins b).2], k.handling h.handling⟩

/-- A change of the lots' records that leaves their figures keeps the books. -/
theorem Books.relabel (h : Books s) (g : Nat → Lot → Lot) (hl : ∀ n, t.lot? n = (s.lot? n).map (g n))
    (hg : ∀ n, ∀ l : Lot, l.SameFigures (g n l)) (he : t = { s with lots := t.lots, settings := t.settings })
    (hh : t.settings.dryer.handling = s.settings.dryer.handling) : Books t := by
  refine ⟨h.ledger.congr ⟨fun b => ?_, ?_, fun n => ?_, fun k => ?_⟩ g hl hg, h.bookings.congr ?_ fun b => ?_,
    h.handling.congr hh ?_ ?_ ?_⟩
  all_goals rw [he]
  exacts [rfl, rfl, ⟨rfl, rfl⟩, rfl, rfl]

end Bookings

end Sys2Proof.Machine
end

section
/-! PROOFS. The books through the ticket table: openings, bindings, dumps, and the end of a binding by a close, a void
or a bin hold (R5, R7, R39, R70, R74, R78, R80). -/

namespace Sys2Proof.Machine

/-! ### A ticket's part of the sums -/

/-- What one ticket counts under a lot's number. -/
def Assignment.counts (n : Nat) (a : Option Assignment) : Nat := if a.map Assignment.lot = some n then 1 else 0
def Assignment.books (n : Nat) (a : Option Assignment) : Nat :=
  if a.map Assignment.lot = some n then (a.map Assignment.estimate).getD 0 else 0

section Sums
variable (n : Nat)

theorem ticketNo_eq_sum (ts : List Ticket) : ticketNo n ts = (ts.map fun t => Assignment.counts n t.assignment).sum := by
  induction ts with
  | nil => rfl
  | cons t ts ih =>
    rw [List.map_cons, List.sum_cons, ← ih]
    unfold ticketNo Assignment.counts Ticket.bindsTo
    by_cases h : t.assignment.map Assignment.lot = some n <;> simp [h, Nat.add_comm]

theorem ticketKg_eq_sum (ts : List Ticket) : ticketKg n ts = (ts.map fun t => Assignment.books n t.assignment).sum := by
  induction ts with
  | nil => rfl
  | cons t ts ih =>
    rw [List.map_cons, List.sum_cons, ← ih]
    unfold ticketKg Assignment.books Ticket.bindsTo
    by_cases h : t.assignment.map Assignment.lot = some n <;> simp [h]

@[simp] theorem Assignment.counts_none : Assignment.counts n none = 0 := rfl
@[simp] theorem Assignment.books_none : Assignment.books n none = 0 := rfl

theorem Assignment.counts_some (a : Assignment) : Assignment.counts n (some a) = if a.lot = n then 1 else 0 := by
  unfold Assignment.counts; by_cases h : a.lot = n <;> simp [h]

theorem Assignment.books_some (a : Assignment) : Assignment.books n (some a) = if a.lot = n then a.estimate else 0 := by
  unfold Assignment.books; by_cases h : a.lot = n <;> simp [h]

/-- A sum over the tickets without one of them. -/
theorem sum_without {ts : List Ticket} (hd : ts.Pairwise fun t u => t.number ≠ u.number) {t : Ticket} (ht : t ∈ ts)
    (g : Ticket → Nat) : ((ts.filter fun u => u.number != t.number).map g).sum + g t = (ts.map g).sum := by
  induction ts with
  | nil => cases ht
  | cons u us ih =>
    obtain ⟨hu, hd⟩ := List.pairwise_cons.1 hd
    rcases List.mem_cons.1 ht with rfl | ht
    · have : us.filter (fun u => u.number != t.number) = us :=
        List.filter_eq_self.2 fun v hv => by simpa using (hu v hv).symm
      simp [this, Nat.add_comm]
    · have hne : (u.number != t.number) = true := by simpa using hu t ht
      simp [hne, ← ih hd ht, Nat.add_assoc]

/-- A sum over the tickets with one of them changed. -/
theorem sum_changed {ts : List Ticket} (hd : ts.Pairwise fun t u => t.number ≠ u.number) {t : Ticket} (ht : t ∈ ts)
    (f : Ticket → Ticket) (g : Ticket → Nat) :
    ((ts.map fun u => if u.number = t.number then f u else u).map g).sum + g t = (ts.map g).sum + g (f t) := by
  induction ts with
  | nil => cases ht
  | cons u us ih =>
    obtain ⟨hu, hd⟩ := List.pairwise_cons.1 hd
    rcases List.mem_cons.1 ht with rfl | ht
    · have : us.map (fun u => if u.number = t.number then f u else u) = us := by
        refine (List.map_congr_left fun v hv => if_neg (hu v hv).symm).trans (List.map_id us)
      simp only [List.map_cons, if_true, List.sum_cons, this]
      omega
    · have := ih hd ht
      simp only [List.map_cons, List.sum_cons, if_neg (hu t ht)]
      omega

theorem sum_insertTicket (t : Ticket) (ts : List Ticket) (g : Ticket → Nat) :
    ((insertTicket t ts).map g).sum = g t + (ts.map g).sum := by
  induction ts with
  | nil => rfl
  | cons u us ih =>
    unfold insertTicket
    split
    · rfl
    · simp only [List.map_cons, List.sum_cons, ih]; omega

end Sums

theorem TableLaw.tickets_distinct {s : State} (h : TableLaw s) : s.tickets.Pairwise fun t u => t.number ≠ u.number := by
  obtain ⟨-, h⟩ := h
  exact (List.pairwise_map.1 h).imp fun hlt => Nat.ne_of_lt hlt

/-! ### The end of a binding -/

/-- What the ticket table is after the binding of ticket `n` has ended. -/
structure Freed (n : Nat) (ts us : List Ticket) : Prop where
  numbers : ∀ m, ticketNo m us = ticketNo m (ts.filter fun u => u.number != n)
  estimates : ∀ m, ticketKg m us = ticketKg m (ts.filter fun u => u.number != n)
  kept : ∀ v ∈ ts, v.number ≠ n → v ∈ us
  found : ∀ v ∈ us, v.number ≠ n ∧ v ∈ ts ∨ v.number = n ∧ v.assignment = none ∧ ¬ v.inBound

theorem Freed.removed (n : Nat) (ts : List Ticket) : Freed n ts (ts.filter fun u => u.number != n) where
  numbers _ := rfl
  estimates _ := rfl
  kept v hv hn := List.mem_filter.2 ⟨hv, by simpa using hn⟩
  found v hv := .inl ⟨by simpa using (List.mem_filter.1 hv).2, (List.mem_filter.1 hv).1⟩

theorem Freed.returned (n : Nat) (ts : List Ticket) : Freed n ts
    (ts.map fun u => if u.number = n then { u with state := .graded, assignment := none } else u) := by
  have sums (g : Option Assignment → Nat) (h0 : g none = 0) :
      ((ts.map fun u => if u.number = n then { u with state := .graded, assignment := none } else u).map
        fun u => g u.assignment).sum = ((ts.filter fun u => u.number != n).map fun u => g u.assignment).sum := by
    induction ts with
    | nil => rfl
    | cons u us ih => by_cases h : u.number = n <;> simp_all
  refine ⟨fun m => ?_, fun m => ?_, fun v hv hn => ?_, fun v hv => ?_⟩
  · rw [ticketNo_eq_sum, ticketNo_eq_sum]; exact sums _ rfl
  · rw [ticketKg_eq_sum, ticketKg_eq_sum]; exact sums _ rfl
  · exact List.mem_map.2 ⟨v, hv, if_neg hn⟩
  · obtain ⟨u, hu, rfl⟩ := List.mem_map.1 hv
    by_cases h : u.number = n
    · rw [if_pos h]; exact .inr ⟨h, rfl, by simp [Ticket.inBound]⟩
    · rw [if_neg h]; exact .inl ⟨h, hu⟩

section Ends
variable {s t : State}

/-- A reservation of a ticket stands at the ticket's destination alone. -/
theorem Bookings.elsewhere (h : Bookings s) (ht : TableLaw s) {u : Ticket} (hu : u ∈ s.tickets) {b : BinNo}
    (hb : u.assignment.map Assignment.dest ≠ some b) : ∀ x ∈ (s.bin b).holders, x.who ≠ .ticket u.number := by
  intro x hx hw
  obtain ⟨v, hv, hn, hd⟩ := h.holders b x hx _ hw
  rw [ht.ticket_unique hv hu hn] at hd
  exact hb hd

/-- Of the reservations without those of another holder, a holder's are found. -/
theorem find?_filter_who (hs : List Holder) {who other : HolderRef} (hne : who ≠ other) :
    (hs.filter fun h => h.who != other).find? (fun h => h.who == who) = hs.find? fun h => h.who == who := by
  rw [List.find?_filter]
  refine congrArg (List.find? · hs) (funext fun h => ?_)
  by_cases e : h.who = who
  · simp [e, hne]
  · simp [e]

/-- The bookings after the end of a binding: the ticket is out of the table or unbound, and its reservation is gone. -/
theorem Bookings.free (h : Bookings s) {i : Nat} (hf : Freed i s.tickets t.tickets)
    (hold : ∀ b, (t.bin b).holders = (s.bin b).holders.filter fun x => x.who != .ticket i) : Bookings t := by
  refine ⟨fun v hv => ?_, fun v hv a ha => ?_, fun b x hx n hn => ?_⟩
  · rcases hf.found v hv with ⟨-, hm⟩ | ⟨-, e, hn⟩
    · exact h.bound v hm
    · rw [e]; exact Iff.intro (fun k => nomatch k) fun k => absurd k hn
  · rcases hf.found v hv with ⟨hne, hm⟩ | ⟨-, e, -⟩
    · have := h.reserved v hm a ha
      unfold Bin.held at this ⊢
      rw [hold, find?_filter_who _ (by simpa using hne)]
      exact this
    · rw [e] at ha; cases ha
  · rw [hold] at hx
    obtain ⟨hx, hw⟩ := List.mem_filter.1 hx
    obtain ⟨v, hv, hvn, hd⟩ := h.holders b x hx n hn
    refine ⟨v, hf.kept v hv ?_, hvn, hd⟩
    rintro e
    rw [hn, ← hvn, e] at hw
    simp at hw

/-- The figures of a lot after a binding to it has ended with a credit of `q` kilograms and `k` new layers. -/
def Lot.settledBy (q k estimate : Nat) (l : Lot) : Lot :=
  { l with
    received := l.received + q, standing := l.standing + q, layerCount := l.layerCount + k
    pendingTickets := l.pendingTickets - 1, pendingEstimate := l.pendingEstimate - estimate }

/-- The ledger after the end of a binding. -/
theorem Ledger.free (h : Ledger s) (ht : TableLaw s) {u : Ticket} (hu : u ∈ s.tickets) {a : Assignment}
    (ha : u.assignment = some a) (hf : Freed u.number s.tickets t.tickets) {q k : Nat} {g : Lot → Lot}
    (hg : ∀ l : Lot, (l.settledBy q k a.estimate).SameFigures (g l))
    (hl : ∀ n, t.lot? n = (s.lot? n).map fun l => if n = a.lot then g l else l)
    (hb : ∀ c, c ≠ a.dest → (t.bin c).layers = (s.bin c).layers)
    (hkg : ∀ n, layerKg n (t.bin a.dest).layers = layerKg n (s.bin a.dest).layers + if n = a.lot then q else 0)
    (hno : ∀ n, layerNo n (t.bin a.dest).layers = layerNo n (s.bin a.dest).layers + if n = a.lot then k else 0)
    (hp : t.portions = s.portions) (hm : ∀ k, (t.berth k).manifest = (s.berth k).manifest) : Ledger t := by
  have h1 (n : Nat) : (t.tally n).layerKg = (s.tally n).layerKg + if n = a.lot then q else 0 := by
    have := (tally_bin n hb).1; rw [hkg] at this; omega
  have h2 (n : Nat) : (t.tally n).layers = (s.tally n).layers + if n = a.lot then k else 0 := by
    have := (tally_bin n hb).2; rw [hno] at this; omega
  have h3 (n : Nat) : (t.tally n).portionKg = (s.tally n).portionKg ∧ (t.tally n).portions = (s.tally n).portions := by
    unfold State.tally; rw [hp]; exact ⟨rfl, rfl⟩
  have h4 (n : Nat) : (t.tally n).tickets + (if a.lot = n then 1 else 0) = (s.tally n).tickets := by
    have := sum_without ht.tickets_distinct hu fun v => Assignment.counts n v.assignment
    rw [← ticketNo_eq_sum, ← ticketNo_eq_sum, ha, Assignment.counts_some, ← hf.numbers] at this
    exact this
  have h5 (n : Nat) : (t.tally n).estimate + (if a.lot = n then a.estimate else 0) = (s.tally n).estimate := by
    have := sum_without ht.tickets_distinct hu fun v => Assignment.books n v.assignment
    rw [← ticketKg_eq_sum, ← ticketKg_eq_sum, ha, Assignment.books_some, ← hf.estimates] at this
    exact this
  have h6 (n : Nat) := tally_manifests n hm
  refine h.post _ hl (fun n l _ f => ?_) fun n hn e => ?_
  · obtain ⟨f1, f2, f3, f4, f5, f6, f7⟩ := f
    have e1 := h1 n; have e2 := h2 n; have e4 := h4 n; have e5 := h5 n
    obtain ⟨e3, e3'⟩ := h3 n
    have e6 := h6 n
    by_cases hn : n = a.lot
    · rw [if_pos hn] at e1 e2 ⊢
      rw [if_pos hn.symm] at e4 e5
      refine Lot.Fits.congr (l := l.settledBy q k a.estimate) ⟨?_, ?_, ?_, ?_, ?_, ?_, ?_⟩ (hg l) <;>
        simp only [Lot.settledBy] <;> omega
    · rw [if_neg hn] at e1 e2 ⊢
      rw [if_neg (Ne.symm hn)] at e4 e5
      exact ⟨f1, by omega, by omega, by omega, by omega, by omega, by omega⟩
  · have e4 := h4 n; have e5 := h5 n; have e1 := h1 n; have e2 := h2 n
    obtain ⟨e3, e3'⟩ := h3 n
    have e6 := h6 n
    obtain ⟨k1, k2, k3, k4, k5, k6, k7⟩ := e
    have hne : n ≠ a.lot := by
      rintro rfl
      rw [if_pos rfl] at e4; omega
    rw [if_neg hne] at e1 e2
    exact ⟨by omega, by omega, by omega, by omega, by omega, by omega, by omega⟩

/-- At every other bin the release of a ticket's reservation changes nothing. -/
theorem filter_elsewhere (h : Bookings s) (ht : TableLaw s) {u : Ticket} (hu : u ∈ s.tickets) {b : BinNo}
    (hb : u.assignment.map Assignment.dest ≠ some b) :
    (s.bin b).holders.filter (fun x => x.who != .ticket u.number) = (s.bin b).holders :=
  List.filter_eq_self.2 fun x hx => by simpa using h.elsewhere ht hu hb x hx

/-- A change of a holder is of no other holder. -/
theorem filter_modFirst (who : HolderRef) (f : Holder → Holder) (hf : ∀ h, (f h).who = h.who) (hs : List Holder) :
    (modFirst who f hs).filter (fun h => h.who != who) = hs.filter fun h => h.who != who := by
  induction hs with
  | nil => rfl
  | cons h rest ih =>
    unfold modFirst
    by_cases e : h.who = who
    · simp [e, hf]
    · simp [e, ih]

/-- A deposit adds its kilograms to its own lot, in one new layer or none, and takes slots of its own holder alone. -/
theorem deposit_books {b : BinNo} {who : HolderRef} {p : Portion} {fromTop : Bool} {u : State}
    (h : s.deposit b who p fromTop = some u) :
    (∀ n, layerKg n (u.bin b).layers = layerKg n (s.bin b).layers + if n = p.lot then p.kg else 0) ∧
      (∀ n, layerNo n (u.bin b).layers = layerNo n (s.bin b).layers +
        if n = p.lot then (u.bin b).layers.length - (s.bin b).layers.length else 0) ∧
      (u.bin b).holders.filter (fun x => x.who != who) = (s.bin b).holders.filter fun x => x.who != who := by
  have full (v : State) (c : Bool) : (v.noteOverfull c b).bin b = v.bin b := by
    unfold State.noteOverfull State.raiseIf; split <;> rfl
  rcases deposit_cases s h with ⟨rest, top, hl, hm, -, rfl⟩ | ⟨x, -, -, rfl⟩
  · obtain ⟨e, -, -⟩ := Layer.merges_iff.1 hm
    rw [full, State.bin_setBin_same, hl]
    refine ⟨fun n => ?_, fun n => ?_, rfl⟩
    · simp only [Bin.merge, layerKg_append, layerKg_cons, layerKg_nil, e, eq_comm (a := n)]
      split <;> omega
    · simp [Bin.merge]
  · rw [full]
    show (∀ n, layerKg n ((s.setBin b _).bin b).layers = _) ∧ (∀ n, layerNo n ((s.setBin b _).bin b).layers = _ +
      if n = p.lot then ((s.setBin b _).bin b).layers.length - _ else 0) ∧
      ((s.setBin b _).bin b).holders.filter _ = _
    rw [State.bin_setBin_same]
    refine ⟨fun n => ?_, fun n => ?_, ?_⟩
    · simp [Bin.stack, Portion.layer, eq_comm]
    · simp [Bin.stack, Portion.layer, eq_comm]
    · exact filter_modFirst _ _ (fun _ => by rfl) _

end Ends

section Tickets
variable {s : State}

/-- A ticket of a number out of the table, unbound as it is, changes no booking. -/
theorem Books.remove (h : Books s) (ht : TableLaw s) {u t : Ticket} (hu : u ∈ s.tickets) (hn : u.number = t.number)
    (ha : u.assignment = none) : Books (s.removeTicket t) := by
  have hf : Freed u.number s.tickets (s.removeTicket t).tickets := by rw [hn]; exact .removed _ _
  refine ⟨h.ledger.same ⟨fun _ => by rfl, by rfl, fun n => ?_, fun _ => by rfl⟩ (by rfl), h.bookings.free hf fun b => ?_,
    h.handling⟩
  · have e1 := sum_without ht.tickets_distinct hu fun v => Assignment.counts n v.assignment
    have e2 := sum_without ht.tickets_distinct hu fun v => Assignment.books n v.assignment
    rw [hf.numbers, hf.estimates, ticketNo_eq_sum, ticketNo_eq_sum, ticketKg_eq_sum, ticketKg_eq_sum, ← e1, ← e2, ha]
    exact ⟨rfl, rfl⟩
  · exact (filter_elsewhere h.bookings ht hu (by rw [ha]; exact nofun)).symm

/-- The state before a binding ends: the grain of a close deposited, or nothing done. -/
structure Brought (s w : State) (a : Assignment) (i q k : Nat) : Prop where
  frame : w = { s with lots := w.lots, bins := w.bins, events := w.events }
  lots : ∀ n, w.lot? n = (s.lot? n).map fun l => if n = a.lot then { l with layerCount := l.layerCount + k } else l
  others : ∀ c, c ≠ a.dest → w.bin c = s.bin c
  kg : ∀ n, layerKg n (w.bin a.dest).layers = layerKg n (s.bin a.dest).layers + if n = a.lot then q else 0
  no : ∀ n, layerNo n (w.bin a.dest).layers = layerNo n (s.bin a.dest).layers + if n = a.lot then k else 0
  holders : (w.bin a.dest).holders.filter (fun x => x.who != .ticket i) =
    (s.bin a.dest).holders.filter fun x => x.who != .ticket i

theorem Brought.nothing (s : State) (a : Assignment) (i : Nat) : Brought s s a i 0 0 where
  frame := rfl
  lots n := by simp
  others _ _ := rfl
  kg n := by simp
  no n := by simp
  holders := rfl

/-- The books after a binding has ended: the lot credited, the reservation released, the ticket out or unbound. -/
theorem Books.settle (h : Books s) (ht : TableLaw s) {u : Ticket} (hu : u ∈ s.tickets) {a : Assignment}
    (ha : u.assignment = some a) {w : State} {q k : Nat} (hw : Brought s w a u.number q k) {g : Lot → Lot}
    (hg : ∀ l : Lot, (l.settledBy q k a.estimate).SameFigures (g { l with layerCount := l.layerCount + k }))
    (hgn : ∀ l, (g l).no = l.no) {t : State} (hf : Freed u.number s.tickets t.tickets)
    (he : t = { (w.modLot a.lot g).release a.dest (.ticket u.number) with
      tickets := t.tickets, vehicles := t.vehicles, events := t.events }) : Books t := by
  have hbin (c : BinNo) : t.bin c = if c = a.dest then
      { w.bin a.dest with holders := (w.bin a.dest).holders.filter fun x => x.who != HolderRef.ticket u.number }.reevaluate
      else w.bin c := by
    rw [he]; exact bin_release (w.modLot a.lot g) a.dest (.ticket u.number) c
  have hdest : (t.bin a.dest).layers = (w.bin a.dest).layers := by rw [hbin, if_pos rfl, Bin.reevaluate_layers]
  refine ⟨h.ledger.free ht hu ha hf (q := q) (k := k) (g := fun l => g { l with layerCount := l.layerCount + k }) hg
    (fun n => ?_) (fun c hc => ?_) (fun n => ?_) (fun n => ?_) ?_ fun b => ?_, h.bookings.free hf fun b => ?_, ?_⟩
  · have : t.lot? n = (w.modLot a.lot g).lot? n := by rw [he]; rfl
    rw [this, State.lot?_modLot _ _ _ hgn, hw.lots, Option.map_map]
    refine congrArg (Option.map · _) (funext fun l => ?_)
    by_cases e : n = a.lot <;> simp [e]
  · rw [hbin, if_neg hc, hw.others c hc]
  · rw [hdest]; exact hw.kg n
  · rw [hdest]; exact hw.no n
  · rw [he, hw.frame]; rfl
  · rw [he, hw.frame]; rfl
  · rw [hbin]
    split
    · next e => rw [Bin.reevaluate_holders, e]; exact hw.holders
    · next e =>
      rw [hw.others b e]
      exact (filter_elsewhere h.bookings ht hu (by rw [ha]; exact fun k => e (Option.some.inj k).symm)).symm
  · rw [he, hw.frame]; exact h.handling

theorem Lot.unbind_settles (e : Nat) (l : Lot) :
    (l.settledBy 0 0 e).SameFigures (Lot.unbind e { l with layerCount := l.layerCount + 0 }) :=
  ⟨rfl, rfl, rfl, rfl, rfl, rfl, rfl, rfl, rfl, rfl, rfl⟩

theorem Lot.credit_settles (q k m i e size : Nat) (l : Lot) :
    (l.settledBy q k e).SameFigures (Lot.credit q m i e size { l with layerCount := l.layerCount + k }) := by
  unfold Lot.credit
  rw [Lot.sizeCheck_eq]
  exact ⟨rfl, rfl, rfl, rfl, rfl, rfl, rfl, rfl, rfl, rfl, rfl⟩

theorem Books.voidTicket (h : Books s) (ht : TableLaw s) {u t : Ticket} (hu : u ∈ s.tickets) (hn : u.number = t.number)
    (ha : u.assignment = t.assignment) : Books (s.voidTicket t) := by
  cases e : t.assignment with
  | none => rw [voidTicket_unassigned s e]; exact h.remove ht hu hn (ha.trans e)
  | some a =>
    rw [voidTicket_assigned s e]
    exact h.settle ht hu (ha.trans e) (.nothing s a _) (Lot.unbind_settles _) (fun _ => by rfl)
      (by rw [hn]; exact .removed _ _) (by rw [hn]; rfl)

theorem Books.returnTicket (h : Books s) (ht : TableLaw s) {u t : Ticket} (hu : u ∈ s.tickets) (hn : u.number = t.number)
    (ha : u.assignment = t.assignment) : Books (s.returnTicket t) := by
  unfold State.returnTicket
  cases e : t.assignment with
  | none => exact h
  | some a =>
    exact h.settle ht hu (ha.trans e) (.nothing s a _) (Lot.unbind_settles _) (fun _ => by rfl)
      (by rw [hn]; exact .returned _ _) (by rw [hn]; rfl)

/-- The deposit of a bound ticket is made, since the ticket holds a slot at its destination (R29, R33). -/
theorem Bookings.brought (h : Bookings s) {u : Ticket} (hu : u ∈ s.tickets) {a : Assignment}
    (ha : u.assignment = some a) (p : Portion) (hp : p.lot = a.lot) (c : Bool) :
    ∃ v k, s.deposit a.dest (.ticket u.number) p false = some v ∧
      Brought s (v.raiseIf c flagHeldDeposit) a u.number p.kg k := by
  obtain ⟨x, hx, h1⟩ := h.reserved u hu a ha
  obtain ⟨v, hv⟩ := deposit_isSome s hx h1 p false
  have d := (deposited s hv).raiseIf s c flagHeldDeposit
  obtain ⟨e1, e2, e3⟩ := deposit_books hv
  have hb (b : BinNo) : (v.raiseIf c flagHeldDeposit).bin b = v.bin b := by rw [raiseIf_frame]; rfl
  rw [hp] at e1 e2
  refine ⟨v, _, hv, d.frame, fun n => ?_, d.others, fun n => by rw [hb]; exact e1 n, fun n => by rw [hb]; exact e2 n,
    by rw [hb]; exact e3⟩
  rw [d.lots, hp, hb]

theorem Books.closeTicket (h : Books s) (ht : TableLaw s) {u t : Ticket} (hu : u ∈ s.tickets) (hn : u.number = t.number)
    (ha : u.assignment = t.assignment) (tare : Nat) : Books (s.closeTicket t tare) := by
  cases e : t.assignment with
  | none =>
    have : s.closeTicket t tare = s.removeTicket t := by unfold State.closeTicket; rw [e]
    rw [this]; exact h.remove ht hu hn (ha.trans e)
  | some a =>
    by_cases hq : t.net tare = 0
    · rw [closeTicket_empty s e hq]
      exact h.settle ht hu (ha.trans e) (.nothing s a _) (fun l => Lot.credit_settles 0 0 _ _ _ _ l)
        (Lot.credit_no _ _ _ _ _) (by rw [hn]; exact .removed _ _) (by rw [hn]; rfl)
    · obtain ⟨v, k, hv, hb⟩ := h.bookings.brought hu (ha.trans e) (t.grain a.lot (t.net tare)) rfl
        (s.bin a.dest).hold.isSome
      rw [closeTicket_deposits s e hq (hn ▸ hv)]
      have htk := congrArg State.tickets hb.frame
      have hf := Freed.removed t.number s.tickets
      exact h.settle ht hu (ha.trans e) hb (fun l => Lot.credit_settles _ _ _ _ _ _ l)
        (Lot.credit_no _ _ _ _ _) (by rw [hn]; exact (show _ = s.tickets from htk) ▸ hf) (by rw [hn]; rfl)

theorem Books.expireTicket (h : Books s) (ht : TableLaw s) {t : Ticket} (hm : t ∈ s.tickets) : Books (s.expireTicket t) := by
  unfold State.expireTicket
  dsimp only
  refine Books.quiet ?_ (.raise _ _)
  split
  · exact (h.closeTicket ht hm rfl rfl _).same ⟨by rfl, fun _ => ⟨by rfl, by rfl⟩, by rfl, fun _ => by rfl, by rfl, id⟩
  · exact (h.voidTicket ht hm rfl rfl).same ⟨by rfl, fun _ => ⟨by rfl, by rfl⟩, by rfl, fun _ => by rfl, by rfl, id⟩

theorem Books.expireOverdue (h : Books s) (ht : TableLaw s) : Books s.expireOverdue :=
  (expireOverdue_induction (P := fun s => TableLaw s ∧ Books s)
    (fun _ _ hm ⟨k, hb⟩ => ⟨(expireTicket_tables (registry := False) hm ⟨k, nofun⟩).1, hb.expireTicket k hm⟩) ht
    ⟨ht, h⟩).2

end Tickets

end Sys2Proof.Machine
end

section
/-! PROOFS. The books through the rest of the intake: a weigh-in, a grade, an assignment, a dump, a bin hold, a sweep and
the requests of the lot table (R1 to R4, R13 to R20, R37 to R42, R71 to R77). -/

namespace Sys2Proof.Machine

section Tickets
variable {s : State}

/-- A change of a ticket that keeps its booking. -/
theorem SameBooks.modTicket (ht : TableLaw s) {u : Ticket} (hu : u ∈ s.tickets) {f : Ticket → Ticket}
    (hf : (f u).booking = u.booking) : SameBooks s (s.modTicket u.number f) where
  lots := rfl
  bins _ := ⟨rfl, rfl⟩
  portions := rfl
  manifests _ := rfl
  tickets := by
    refine (List.map_map ..).trans (List.map_congr_left fun v hv => ?_)
    by_cases e : v.number = u.number
    · rw [ht.ticket_unique hv hu e]; simpa using hf
    · simp [e]
  handling h := h

/-- A grade given to a ticket that is not bound (R72). -/
theorem SameBooks.grade (ht : TableLaw s) {u : Ticket} (hu : u ∈ s.tickets) (h1 : u.state ≠ .assigned)
    (h2 : u.state ≠ .dumped) (g : Grade) :
    SameBooks s (s.modTicket u.number fun u => { u with state := .graded, grade := some g }) :=
  .modTicket ht hu (by simp [Ticket.booking, Ticket.inBound, h1, h2])

/-- A dump of a bound ticket (R76). -/
theorem SameBooks.dump (ht : TableLaw s) {u : Ticket} (hu : u ∈ s.tickets) (h : u.state = .assigned) :
    SameBooks s (s.modTicket u.number fun u => { u with state := .dumped }) :=
  .modTicket ht hu (by simp [Ticket.booking, Ticket.inBound, h])

/-- A ticket opened unbound changes no booking (R71). -/
theorem Books.openTicket (h : Books s) (c : ChannelNo) (cls : Fin 4) (w : WeighIn) : Books (s.openTicket c cls w) := by
  have reg : (s.register w.tag cls) = { s with vehicles := (s.register w.tag cls).vehicles } := by
    unfold State.register; split <;> rfl
  have he : (s.openTicket c cls w) = { s with
      vehicles := (s.openTicket c cls w).vehicles, tickets := insertTicket (s.newTicket c w) s.tickets
      nextTicket := (s.openTicket c cls w).nextTicket } := by
    unfold State.openTicket; rw [reg]; rfl
  have htk : (s.openTicket c cls w).tickets = insertTicket (s.newTicket c w) s.tickets := by rw [he]
  have hbin (b : BinNo) : (s.openTicket c cls w).bin b = s.bin b := by rw [he]; rfl
  refine ⟨h.ledger.same ⟨fun b => by rw [hbin], by rw [he]; rfl, fun n => ?_, fun k => by rw [he]; rfl⟩ (by rw [he]),
    ⟨fun t hm => ?_, fun t hm a ha => ?_, fun b x hx n hn => ?_⟩, by rw [he]; exact h.handling⟩
  · rw [htk, ticketNo_eq_sum, ticketNo_eq_sum, ticketKg_eq_sum, ticketKg_eq_sum, sum_insertTicket, sum_insertTicket]
    exact ⟨Nat.zero_add _, Nat.zero_add _⟩
  · rw [htk, mem_insertTicket] at hm
    rcases hm with rfl | hm
    · simp [State.newTicket]
    · exact h.bookings.bound t hm
  · rw [htk, mem_insertTicket] at hm
    rw [hbin]
    rcases hm with rfl | hm
    · cases ha
    · exact h.bookings.reserved t hm a ha
  · rw [hbin] at hx
    obtain ⟨t, hm, e⟩ := h.bookings.holders b x hx n hn
    exact ⟨t, by rw [htk, mem_insertTicket]; exact .inr hm, e⟩

/-! ### An assignment -/

theorem State.bindCheck_found {g : Grade} {kg n : Nat} (h : s.bindCheck g kg = .found n) : (s.lot? n).isSome = true := by
  unfold State.bindCheck at h
  split at h
  · split at h
    · next l hl =>
      split at h
      · cases h
      · split at h
        · cases h
        · cases h
          exact List.find?_isSome.2 ⟨l, List.mem_of_find?_eq_some hl, by simp⟩
    · split at h <;> cases h
  · split at h
    · next l hl =>
      split at h
      · cases h
      · split at h
        · cases h
        · split at h
          · cases h
          · split at h
            · cases h
            · cases h; rw [hl]; rfl
    · split at h <;> cases h

theorem newLot_fits (n : Nat) (k : LotKind) (c : GrainClass) {T : Tally} (h : T.Empty) : (newLot n k c).Fits T := by
  obtain ⟨h1, h2, h3, h4, h5, h6, h7⟩ := h
  exact ⟨rfl, by rw [h1, h3]; rfl, h2.symm, h4.symm, h5.symm, h6.symm, h7.symm⟩

/-- The lot a ticket is bound to agrees with what stands under its number before the binding. -/
theorem Ledger.base (h : Ledger s) {g : Grade} {kg : Nat} {r : BindResult} (hr : s.bindCheck g kg = r)
    (hne : ∀ code, r ≠ .refused code) (c : GrainClass) : ∃ l, r.base s c = some l ∧ l.Fits (s.tally r.lot) := by
  cases r with
  | refused code => exact absurd rfl (hne code)
  | found n =>
    obtain ⟨l, hl⟩ := Option.isSome_iff_exists.1 (State.bindCheck_found hr)
    exact ⟨l, hl, (h n).1 l hl⟩
  | created n k => exact ⟨_, rfl, newLot_fits n k c ((h n).2 (State.bindCheck_created hr))⟩

theorem Lot.bind_fits {l : Lot} {T U : Tally} (kg size : Nat) (h : l.Fits T) (hno : U.tickets = T.tickets + 1)
    (hkg : U.estimate = T.estimate + kg)
    (hr : U = { T with tickets := U.tickets, estimate := U.estimate }) : (l.bind kg size).Fits U := by
  unfold Lot.bind
  rw [Lot.sizeCheck_eq, hr]
  obtain ⟨h1, h2, h3, h4, h5, h6, h7⟩ := h
  exact ⟨h1, h2, h3, h4, by simp only [h5, hno], by simp only [h6, hkg], h7⟩

/-- What an assignment of ticket `n` does to tickets and bins (R74). -/
structure Assigned (s v : State) (n : Nat) (a : Assignment) : Prop where
  tickets : v.tickets = s.tickets.map fun u =>
    if u.number = n then { u with state := .assigned, assignment := some a } else u
  holders : ∀ c, (v.bin c).holders =
    if c = a.dest then (s.bin c).holders ++ [{ who := .ticket n, kg := a.estimate, slots := 1 }] else (s.bin c).holders
  layers : ∀ c, (v.bin c).layers = (s.bin c).layers
  portions : v.portions = s.portions
  manifests : ∀ k, (v.berth k).manifest = (s.berth k).manifest

theorem assigned {st : StationNo} {t : Ticket} {g : Grade} {b : BinNo} (r : BindResult)
    (hb : s.TakesDump st g (s.estimate t) b) :
    Assigned s (s.assign t g b r) t.number { dest := b, lot := r.lot, estimate := s.estimate t } := by
  rw [assign_eq s r hb, bindTo_frame]
  refine ⟨rfl, fun c => ?_, fun c => ?_, rfl, fun _ => rfl⟩
  all_goals
    refine Eq.trans (congrArg _ (State.bin_setBin _ b _ c)) ?_
    by_cases e : c = b
  · subst e; simp
  · simp [e, State.bin]
  · subst e; simp
  · simp [e, State.bin]

/-- The bookings after an assignment of a ticket that was not bound: it holds the slot just reserved. -/
theorem Bookings.assign (h : Bookings s) (ht : TableLaw s) {u : Ticket} (hu : u ∈ s.tickets)
    (ha : u.assignment = none) {a : Assignment} {v : State} (hv : Assigned s v u.number a) : Bookings v := by
  refine ⟨fun y hy => ?_, fun y hy c hc => ?_, fun c y hy n hyn => ?_⟩
  · rw [hv.tickets] at hy
    obtain ⟨z, hz, rfl⟩ := List.mem_map.1 hy
    split
    · simp
    · exact h.bound z hz
  · rw [hv.tickets] at hy
    obtain ⟨z, hz, rfl⟩ := List.mem_map.1 hy
    unfold Bin.held
    rw [hv.holders]
    by_cases e : z.number = u.number
    · rw [if_pos e] at hc ⊢
      cases hc
      have absent : (s.bin a.dest).holders.find? (fun h => h.who == .ticket u.number) = none :=
        List.find?_eq_none.2 fun y hy => by simpa using h.elsewhere ht hu (b := a.dest) (by rw [ha]; exact nofun) y hy
      rw [if_pos rfl, List.find?_append, e, absent]
      exact ⟨_, by simp; rfl, Nat.le_refl 1⟩
    · rw [if_neg e] at hc ⊢
      obtain ⟨y, hy, h1⟩ := h.reserved z hz c hc
      unfold Bin.held at hy
      refine ⟨y, ?_, h1⟩
      split
      · rw [List.find?_append, Option.mem_def.1 hy]; rfl
      · exact hy
  · have hy' : c = a.dest ∧ n = u.number ∨ y ∈ (s.bin c).holders := by
      rw [hv.holders] at hy
      split at hy
      · next ec =>
        rcases List.mem_append.1 hy with hy | hy
        · exact .inr hy
        · rw [List.mem_singleton.1 hy] at hyn
          exact .inl ⟨ec, (HolderRef.ticket.inj hyn).symm⟩
      · exact .inr hy
    rw [hv.tickets]
    rcases hy' with ⟨rfl, rfl⟩ | hy'
    · exact ⟨_, List.mem_map.2 ⟨u, hu, if_pos rfl⟩, rfl, rfl⟩
    · obtain ⟨z, hz, e1, e2⟩ := h.holders c y hy' n hyn
      have hne : z.number ≠ u.number := by
        intro e
        rw [ht.ticket_unique hz hu e, ha] at e2
        cases e2
      exact ⟨z, List.mem_map.2 ⟨z, hz, if_neg hne⟩, e1, e2⟩

/-- What stands under the numbers after an assignment: the ticket and its estimate under its lot. -/
theorem Assigned.tally (ht : TableLaw s) {u : Ticket} (hu : u ∈ s.tickets) (ha : u.assignment = none) {a : Assignment}
    {v : State} (hv : Assigned s v u.number a) (n : Nat) : v.tally n = { s.tally n with
      tickets := (s.tally n).tickets + if a.lot = n then 1 else 0
      estimate := (s.tally n).estimate + if a.lot = n then a.estimate else 0 } := by
  have hno := sum_changed ht.tickets_distinct hu (fun u => { u with state := .assigned, assignment := some a })
    fun v => Assignment.counts n v.assignment
  have hkg := sum_changed ht.tickets_distinct hu (fun u => { u with state := .assigned, assignment := some a })
    fun v => Assignment.books n v.assignment
  rw [← hv.tickets, ← ticketNo_eq_sum, ← ticketNo_eq_sum, ha, Assignment.counts_some, Assignment.counts_none,
    Nat.add_zero] at hno
  rw [← hv.tickets, ← ticketKg_eq_sum, ← ticketKg_eq_sum, ha, Assignment.books_some, Assignment.books_none,
    Nat.add_zero] at hkg
  have hm (k : BerthNo) : (v.berth k).lists n = (s.berth k).lists n := by unfold Berth.lists; rw [hv.manifests]
  unfold State.tally
  simp only [hv.layers, hv.portions, hm, hno, hkg]

/-- The books after an assignment to a bin that takes the dump (R74). -/
theorem Books.assign (h : Books s) (ht : TableLaw s) {u t : Ticket} (hu : u ∈ s.tickets) (hn : u.number = t.number)
    (ha : u.assignment = none) {st : StationNo} {g : Grade} {b : BinNo} {r : BindResult}
    (hb : s.TakesDump st g (s.estimate t) b) (hr : s.bindCheck g (s.estimate t) = r)
    (hne : ∀ code, r ≠ .refused code) : Books (s.assign t g b r) := by
  have hv := assigned r hb
  rw [← hn] at hv
  have hlot (n : Nat) : (s.assign t g b r).lot? n =
      if n = r.lot then (r.base s g.cls).map (Lot.bind (s.estimate t) s.settings.lotSize) else s.lot? n := by
    rw [assign_eq s r hb]; exact lot?_bindTo s g.cls hr n
  refine ⟨fun n => ?_, h.bookings.assign ht hu ha hv, ?_⟩
  · rw [hlot, hv.tally ht hu ha]
    by_cases e : n = r.lot
    · subst e
      obtain ⟨l, hl, hf⟩ := h.ledger.base hr hne g.cls
      rw [if_pos rfl, hl]
      refine ⟨fun m hm => ?_, fun hm => by cases hm⟩
      cases hm
      exact Lot.bind_fits _ _ hf (by simp) (by simp) rfl
    · simpa only [if_neg e, if_neg (Ne.symm e), Nat.add_zero] using h.ledger n
  · rw [assign_eq s r hb, bindTo_frame]; exact h.handling

end Tickets

/-! ### The lot table's requests -/

section Lots
variable {s : State}

theorem Books.modLot (h : Books s) (n : Nat) {g : Lot → Lot} (hn : ∀ l, (g l).no = l.no)
    (hg : ∀ l : Lot, l.SameFigures (g l)) : Books (s.modLot n g) :=
  h.relabel (fun m l => if m = n then g l else l) (s.lot?_modLot n g hn)
    (fun m l => by split; exacts [hg l, ⟨rfl, rfl, rfl, rfl, rfl, rfl, rfl, rfl, rfl, rfl, rfl⟩]) rfl rfl

theorem Books.mapLots (h : Books s) {g : Lot → Lot} (hn : ∀ l, (g l).no = l.no) (hg : ∀ l : Lot, l.SameFigures (g l))
    (x : Settings) (hx : x.dryer.handling = s.settings.dryer.handling) :
    Books { s with lots := s.lots.map g, settings := x } :=
  h.relabel (fun _ => g) (fun n => State.lot?_mapLots s g hn (by rfl) n) (fun _ => hg) (by rfl) hx

theorem Lot.sizeCheck_figures (size : Nat) (l : Lot) : l.SameFigures (l.sizeCheck size) := by
  rw [Lot.sizeCheck_eq]; exact ⟨rfl, rfl, rfl, rfl, rfl, rfl, rfl, rfl, rfl, rfl, rfl⟩

/-- A lot that may be retired has nothing standing under its number (R20). -/
theorem Lot.Fits.empty {l : Lot} {n : Nat} (h : l.Fits (s.tally n)) (hr : l.retirable = true) : (s.tally n).Empty := by
  obtain ⟨-, hs, ht, hy, hp, hm, -⟩ := (Lot.retirable_iff l).1 hr
  have tickets : (s.tally n).tickets = 0 := by rw [← h.tickets, ht]
  have total : 0 = (s.tally n).layerKg + (s.tally n).portionKg := by rw [← h.standing, hs]
  exact ⟨by omega, by rw [← h.layers, hy], by omega, by rw [← h.portions, hp], tickets, ticketKg_of_none n tickets,
    by rw [← h.manifests, hm]⟩

theorem State.lot?_filter (n m : Nat) :
    State.lot? { s with lots := s.lots.filter fun l => l.no != n } m = if m = n then none else s.lot? m := by
  unfold State.lot?
  rw [List.find?_filter]
  split
  · next e => subst e; exact List.find?_eq_none.2 fun l _ => by simp
  · next e =>
    refine congrArg (List.find? · s.lots) (funext fun l => ?_)
    by_cases k : l.no = m
    · simp [k, e]
    · simp [k]

theorem Books.retireLot (h : Books s) {n : Nat} {l : Lot} (hl : s.lot? n = some l) (hr : l.retirable = true) :
    Books { s with lots := s.lots.filter fun m => m.no != n } := by
  refine ⟨fun m => ?_, h.bookings.congr (by rfl) fun _ => by rfl, h.handling⟩
  rw [State.lot?_filter]
  split
  · next e => subst e; exact ⟨nofun, fun _ => ((h.ledger m).1 l hl).empty hr⟩
  · exact h.ledger m

end Lots

/-! ### The bins' requests -/

section Bins
variable {s : State}

theorem foldl_writeOff (ls : List Layer) (l : Lot) : ls.foldl (fun m (x : Layer) => m.writeOff x.kg) l = { l with
    writtenOff := l.writtenOff + (ls.map Layer.kg).sum
    standing := l.standing - (ls.map Layer.kg).sum
    layerCount := l.layerCount - ls.length } := by
  induction ls generalizing l with
  | nil => rfl
  | cons x xs ih => rw [List.foldl_cons, ih]; simp [Lot.writeOff, Nat.add_assoc, Nat.sub_sub, Nat.add_comm 1]

/-- A sweep writes every layer off to its lot (R42). -/
theorem Books.sweep (h : Books s) (b : BinNo) : Books (s.sweep b) := by
  unfold State.sweep
  set s1 := (s.bin b).layers.foldl (fun u (l : Layer) => u.modLot l.lot (Lot.writeOff l.kg)) s with hs1
  have hframe : s1 = { s with lots := s1.lots } :=
    foldl_modLot_frame (s.bin b).layers Layer.lot (fun l : Layer => Lot.writeOff l.kg) s
  have hlot (n : Nat) : s1.lot? n = (s.lot? n).map fun l => { l with
      writtenOff := l.writtenOff + layerKg n (s.bin b).layers
      standing := l.standing - layerKg n (s.bin b).layers
      layerCount := l.layerCount - layerNo n (s.bin b).layers } := by
    rw [hs1, State.lot?_foldl_modLot s _ Layer.lot (fun l : Layer => Lot.writeOff l.kg) fun _ _ => rfl]
    simp only [foldl_writeOff]
    rfl
  dsimp only
  generalize hu : s1.setBin b _ = u
  have hbin (c : BinNo) : u.bin c =
      if c = b then { s.bin b with layers := [] }.reevaluate else s.bin c := by
    rw [← hu, State.bin_setBin, hframe]; rfl
  have hempty : (u.bin b).layers = [] := by rw [hbin, if_pos rfl, Bin.reevaluate_layers]
  have hother (c : BinNo) (hc : c ≠ b) : (u.bin c).layers = (s.bin c).layers := by rw [hbin, if_neg hc]
  have hrest : u = { s with lots := u.lots, bins := u.bins } := by rw [← hu, hframe]; rfl
  have h1 (n : Nat) : (u.tally n).layerKg + layerKg n (s.bin b).layers = (s.tally n).layerKg := by
    simpa [hempty] using (tally_bin n hother).1
  have h2 (n : Nat) : (u.tally n).layers + layerNo n (s.bin b).layers = (s.tally n).layers := by
    simpa [hempty] using (tally_bin n hother).2
  have h3 (n : Nat) : u.tally n = { s.tally n with layerKg := (u.tally n).layerKg, layers := (u.tally n).layers } := by
    rw [hrest]; rfl
  refine ⟨h.ledger.post (fun n l => { l with
      writtenOff := l.writtenOff + layerKg n (s.bin b).layers
      standing := l.standing - layerKg n (s.bin b).layers
      layerCount := l.layerCount - layerNo n (s.bin b).layers }) (fun n => ?_) (fun n l _ f => ?_) (fun n _ e => ?_),
    h.bookings.congr (by rw [hrest]) fun c => ?_, by rw [hrest]; exact h.handling⟩
  · rw [← hlot, ← hu]; rfl
  · have e1 := h1 n; have e2 := h2 n
    rw [h3]
    obtain ⟨f1, f2, f3, f4, f5, f6, f7⟩ := f
    exact ⟨by simp only; omega, by simp only; omega, by simp only; omega, f4, f5, f6, f7⟩
  · have e1 := h1 n; have e2 := h2 n
    rw [h3]
    obtain ⟨k1, k2, k3, k4, k5, k6, k7⟩ := e
    exact ⟨by simp only; omega, by simp only; omega, k3, k4, k5, k6, k7⟩
  · unfold Bin.ticketHolders
    rw [hbin]
    split
    · next e => rw [Bin.reevaluate_holders, e]
    · rfl

theorem Books.setHold (h : Books s) (b : BinNo) (x : Option BinHold) : Books (s.setBin b { s.bin b with hold := x }) := by
  refine h.same ⟨by rfl, fun c => ?_, by rfl, fun _ => by rfl, by rfl, id⟩
  rw [State.bin_setBin]
  split
  · next e => rw [e]; exact ⟨rfl, rfl⟩
  · exact ⟨rfl, rfl⟩

/-- Tickets returned one by one (R39). -/
theorem Books.returnTickets (h : Books s) (ht : TableLaw s) {ts : List Ticket}
    (hd : ts.Pairwise fun t u => t.number ≠ u.number) (hm : ∀ t ∈ ts, t ∈ s.tickets) :
    Books (ts.foldl (fun u t => u.returnTicket t) s) := by
  induction ts generalizing s with
  | nil => exact h
  | cons t ts ih =>
    obtain ⟨hne, hd⟩ := List.pairwise_cons.1 hd
    have htm := hm t List.mem_cons_self
    refine ih (h.returnTicket ht htm rfl rfl) (ht.congr (returnTicket_sameTables s t)) hd fun u hu => ?_
    have hus := hm u (List.mem_cons_of_mem _ hu)
    show u ∈ (s.returnTicket t).tickets
    unfold State.returnTicket
    split
    · exact hus
    · exact List.mem_map.2 ⟨u, hus, if_neg (hne u hu).symm⟩

theorem Books.imposeHold (h : Books s) (ht : TableLaw s) (b : BinNo) (x : BinHold) : Books (s.imposeHold b x) := by
  unfold State.imposeHold
  extract_lets old s1 s2
  have q := holdEntries_quiet (s.setBin b { s.bin b with hold := some x }) b
  have hsame : SameTables s s1 := (setBin_sameTickets s b _).sameTables.trans q.sameTables
  have htk : s1.tickets = s.tickets := q.sameTickets.tickets
  refine Books.quiet ?_ (endTransfers_quiet _ _)
  refine ((h.setHold b _).quiet q).returnTickets (ht.congr hsame) (ht.tickets_distinct.filter _) fun t hm => ?_
  rw [htk]
  exact (List.mem_filter.1 hm).1

theorem Books.liftHold (h : Books s) (b : BinNo) : Books (s.liftHold b) := by
  unfold State.liftHold
  dsimp only
  split
  · exact (h.setHold b none).quiet (tryDischarge_quiet _)
  · exact h.setHold b none

end Bins

/-- Every request of the intake keeps the books. -/
theorem IntakeOperation.books {s t : State} (h : IntakeOperation s t) (ht : TableLaw s) (hs : Books s) : Books t := by
  have keep {u : State} (h1 : u.lots = s.lots) (h2 : u.bins = s.bins) (h3 : u.dryer = s.dryer)
      (h4 : u.berths = s.berths) (h5 : u.tickets = s.tickets)
      (h6 : u.settings.dryer.handling = s.settings.dryer.handling)
      (h7 : u.bank0 = s.bank0 ∧ u.bank1 = s.bank1 ∧ u.commit = s.commit) : Books u :=
    hs.same ⟨h1, fun b => by unfold State.bin; rw [h2]; exact ⟨rfl, rfl⟩, by unfold State.portions; rw [h3],
      fun k => by unfold State.berth; rw [h4], by rw [h5], fun h => h.congr h6 h7.1 h7.2.1 h7.2.2⟩
  cases h with
  | closeReceivingLots =>
    exact hs.mapLots (fun l => by split <;> rfl)
      (fun l => by split <;> exact ⟨rfl, rfl, rfl, rfl, rfl, rfl, rfl, rfl, rfl, rfl, rfl⟩) s.settings rfl
  | closeLot n =>
    exact hs.modLot n (fun _ => by rfl) fun _ => ⟨rfl, rfl, rfl, rfl, rfl, rfl, rfl, rfl, rfl, rfl, rfl⟩
  | holdLot n h =>
    exact hs.modLot n (fun _ => by rfl) fun _ => ⟨rfl, rfl, rfl, rfl, rfl, rfl, rfl, rfl, rfl, rfl, rfl⟩
  | amendLot a =>
    exact hs.modLot _ (fun _ => by rfl) fun _ => ⟨rfl, rfl, rfl, rfl, rfl, rfl, rfl, rfl, rfl, rfl, rfl⟩
  | retireLot n l hl hr => exact hs.retireLot hl hr
  | setLotSize size => exact hs.mapLots (Lot.sizeCheck_no _) (Lot.sizeCheck_figures _) _ rfl
  | setBinSettings b x =>
    exact (keep (u := s.setBinSet b x) rfl rfl rfl rfl rfl rfl ⟨rfl, rfl, rfl⟩).quiet (.raiseIf _ _ _)
  | replaceHold b h _ => exact hs.setHold b _
  | imposeHold b h _ => exact hs.imposeHold ht b h
  | liftHold b => exact hs.liftHold b
  | sweep b _ _ => exact hs.sweep b
  | setChannel c x p =>
    exact (keep (u := s.setChannel c x) rfl rfl rfl rfl rfl rfl ⟨rfl, rfl, rfl⟩).quiet (.raiseIf _ _ _)
  | setScale c y x => exact keep (by rfl) (by rfl) (by rfl) (by rfl) (by rfl) (by rfl) ⟨by rfl, by rfl, by rfl⟩
  | openTicket c cls w _ _ => exact hs.openTicket c cls w
  | gradeTicket t g hm h1 h2 => exact hs.same (.grade ht hm h1 h2 g)
  | gradeNoSpace t g p hm h1 h2 => exact (hs.same (.grade ht hm h1 h2 g)).quiet (.raiseIf _ _ _)
  | gradeAndAssign st t g b r u hm h1 h2 hu hb hr hne =>
    have ha : t.assignment = none := by
      have := hs.bookings.bound t hm
      cases e : t.assignment with
      | none => rfl
      | some a => rw [e] at this; exact absurd (this.1 rfl) (by simp [h1, h2])
    have hmu : ({ t with state := .graded, grade := some g } : Ticket) ∈ u.tickets := by
      rw [hu]; exact List.mem_map.2 ⟨t, hm, if_pos rfl⟩
    have htu : TableLaw u := by
      rw [hu]; exact ht.congr (modTicket_sameTables s _ _ (fun _ => by rfl) fun _ => by rfl)
    exact Books.assign (hu ▸ hs.same (.grade ht hm h1 h2 g)) htu hmu rfl ha hb hr hne
  | assign st t g b r hm h1 _ hb hr hne =>
    have ha : t.assignment = none := by
      have := hs.bookings.bound t hm
      cases e : t.assignment with
      | none => rfl
      | some a => rw [e, h1] at this; exact absurd (this.1 rfl) (by simp)
    exact hs.assign ht hm rfl ha hb hr hne
  | dump t hm h1 => exact hs.same (.dump ht hm h1)
  | dumpAndClose t tare r hm h1 =>
    have htd : TableLaw (s.modTicket t.number fun u => { u with state := .dumped }) :=
      ht.congr (modTicket_sameTables s _ _ (fun _ => by rfl) fun _ => by rfl)
    have hmd : ({ t with state := .dumped } : Ticket) ∈
        (s.modTicket t.number fun u => { u with state := .dumped }).tickets := List.mem_map.2 ⟨t, hm, if_pos rfl⟩
    exact ((hs.same (.dump ht hm h1)).closeTicket htd hmd rfl rfl tare).same
      ⟨by rfl, fun _ => ⟨by rfl, by rfl⟩, by rfl, fun _ => by rfl, by rfl, id⟩
  | storeTare tag kg => exact keep (by rfl) (by rfl) (by rfl) (by rfl) (by rfl) (by rfl) ⟨by rfl, by rfl, by rfl⟩
  | weighOut tag t kg r hm _ =>
    exact (hs.closeTicket ht hm rfl rfl kg).same
      ⟨by rfl, fun _ => ⟨by rfl, by rfl⟩, by rfl, fun _ => by rfl, by rfl, id⟩
  | reject tag t r hm _ =>
    exact (hs.voidTicket ht hm rfl rfl).same ⟨by rfl, fun _ => ⟨by rfl, by rfl⟩, by rfl, fun _ => by rfl, by rfl, id⟩
  | void t r hm _ =>
    exact (hs.voidTicket ht hm rfl rfl).same ⟨by rfl, fun _ => ⟨by rfl, by rfl⟩, by rfl, fun _ => by rfl, by rfl, id⟩
  | forgetVehicle v _ _ => exact keep (by rfl) (by rfl) (by rfl) (by rfl) (by rfl) (by rfl) ⟨by rfl, by rfl, by rfl⟩
  | expire t hm => exact hs.expireTicket ht hm
  | setIntake x =>
    unfold State.setIntake
    extract_lets old s1
    have h1 : Books s1 := keep (by rfl) (by rfl) (by rfl) (by rfl) (by rfl) (by rfl) ⟨by rfl, by rfl, by rfl⟩
    have ht1 : TableLaw s1 := ht.congr ⟨by rfl, by rfl, by rfl⟩
    cases x with
    | ticketTimeout _ => exact h1.expireOverdue ht1
    | _ => exact h1

end Sys2Proof.Machine
end

section
/-! PROOFS. The books through the movement of grain: grain aloft between its source and its destination, draws, deposits,
loads, and the reports and batches made of them (R8, R9, R10, R11, R89, R91, R94, R119). -/

namespace Sys2Proof.Machine

/-! ### Draws, lot by lot -/

section Draws
variable (n : Nat)

theorem layerNo_eq_lots (ls : List Layer) : layerNo n ls = ((ls.map Layer.lot).filter fun m => m == n).length := by
  unfold layerNo; rw [List.filter_map, List.length_map]; rfl

theorem drawLayers_length_le (ls : List Layer) (q : Nat) : (drawLayers ls q).2.length ≤ ls.length := by
  induction ls generalizing q with
  | nil => exact Nat.le_refl 0
  | cons l rest ih =>
    unfold drawLayers
    split
    · exact Nat.le_refl _
    · split
      · exact Nat.le_succ_of_le (ih _)
      · exact Nat.le_refl _

/-- The stack a draw leaves is the upper part of the stack, but for the kilograms of its bottom layer. -/
theorem drawLayers_lots (ls : List Layer) (q : Nat) :
    (drawLayers ls q).2.map Layer.lot = (ls.drop (ls.length - (drawLayers ls q).2.length)).map Layer.lot := by
  induction ls generalizing q with
  | nil => rfl
  | cons l rest ih =>
    unfold drawLayers
    split
    · simp
    · split
      · have := drawLayers_length_le rest (q - l.kg)
        dsimp only
        rw [ih, List.length_cons, Nat.succ_sub this, List.drop_succ_cons]
      · simp

/-- The layers of a lot that a draw takes out of the stack, and those it leaves. -/
theorem layerNo_draw (ls : List Layer) (q : Nat) :
    layerNo n (ls.take (ls.length - (drawLayers ls q).2.length)) + layerNo n (drawLayers ls q).2 = layerNo n ls := by
  rw [layerNo_eq_lots n (drawLayers ls q).2, drawLayers_lots, ← layerNo_eq_lots, ← layerNo_append,
    List.take_append_drop]

/-- The kilograms of a lot that a draw takes, and those it leaves. -/
theorem layerKg_draw (ls : List Layer) (q : Nat) :
    portionKg n (drawLayers ls q).1 + layerKg n (drawLayers ls q).2 = layerKg n ls := by
  induction ls generalizing q with
  | nil => rfl
  | cons l rest ih =>
    unfold drawLayers
    split
    · simp
    · split
      · have := ih (q - l.kg)
        simp only [portionKg_cons, layerKg_cons]
        omega
      · simp only [portionKg_cons, layerKg_cons, portionKg_nil]
        split <;> omega

theorem drawLayers_pieces {ls : List Layer} {q : Nat} {p : Portion} (h : p ∈ (drawLayers ls q).1) :
    ∃ l ∈ ls, l.lot = p.lot := by
  induction ls generalizing q with
  | nil => cases h
  | cons l rest ih =>
    unfold drawLayers at h
    split at h
    · cases h
    · split at h
      · rcases List.mem_cons.1 h with rfl | h
        · exact ⟨l, List.mem_cons_self, rfl⟩
        · obtain ⟨m, hm, e⟩ := ih h
          exact ⟨m, List.mem_cons_of_mem _ hm, e⟩
      · rw [List.mem_singleton.1 h]
        exact ⟨l, List.mem_cons_self, rfl⟩

end Draws

/-! ### Grain aloft -/

/-- A tally with portions aloft: grain that has left its source and not come to its destination. -/
def Tally.with (T : Tally) (n : Nat) (ps : List Portion) : Tally := { T with portionKg := T.portionKg + Machine.portionKg n ps }

/-- The ledger with portions aloft. -/
structure Aloft (ps : List Portion) (s : State) : Prop where
  lots : ∀ n l, s.lot? n = some l → l.Fits ((s.tally n).with n ps)
  absent : ∀ n, s.lot? n = none → (s.tally n).Empty ∧ portionNo n ps = 0

section Aloft
variable {s t u : State} {ps : List Portion}

theorem Aloft.ledger (h : Aloft [] s) : Ledger s := fun n => ⟨h.lots n, fun e => (h.absent n e).1⟩

theorem Ledger.aloft (h : Ledger s) : Aloft [] s := ⟨fun n => (h n).1, fun n e => ⟨(h n).2 e, rfl⟩⟩

theorem Aloft.quiet (h : Aloft ps s) (q : Quiet s t) : Aloft ps t := by
  refine ⟨fun n l hl => ?_, fun n hn => ?_⟩
  · rw [q.sameTally.tally]; exact h.lots n l (by rw [← q.lot?]; exact hl)
  · rw [q.sameTally.tally]; exact h.absent n (by rw [← q.lot?]; exact hn)

/-- What a draw takes is aloft (R36). -/
theorem Ledger.draw (h : Ledger s) (b : BinNo) (q : Nat) :
    Aloft (drawLayers (s.bin b).layers q).1 (s.draw b q).2 := by
  have hf := draw_frame s b q
  have hother (c : BinNo) (hc : c ≠ b) : ((s.draw b q).2.bin c).layers = (s.bin c).layers := by
    rw [bin_draw, if_neg hc]
  have h1 (n : Nat) := (tally_bin n hother).1
  have h2 (n : Nat) := (tally_bin n hother).2
  have hrest (n : Nat) : (s.draw b q).2.tally n = { s.tally n with
      layerKg := ((s.draw b q).2.tally n).layerKg, layers := ((s.draw b q).2.tally n).layers } := by rw [hf]; rfl
  simp only [layers_draw] at h1 h2
  refine ⟨fun n m hm => ?_, fun n hn => ?_⟩
  · rw [lot?_draw] at hm
    obtain ⟨l, hl, rfl⟩ := Option.map_eq_some_iff.1 hm
    obtain ⟨f1, f2, f3, f4, f5, f6, f7⟩ := (h n).1 l hl
    have e1 := h1 n; have e2 := h2 n
    have k1 := layerKg_draw n (s.bin b).layers q
    have k2 := layerNo_draw n (s.bin b).layers q
    rw [hrest]
    refine ⟨f1, ?_, ?_, f4, f5, f6, f7⟩
    · simp only [Tally.with]; omega
    · simp only [Tally.with]; unfold layerNo at *; omega
  · rw [lot?_draw, Option.map_eq_none_iff] at hn
    obtain ⟨f1, f2, f3, f4, f5, f6, f7⟩ := (h n).2 hn
    have e1 := h1 n; have e2 := h2 n
    have k1 := layerKg_draw n (s.bin b).layers q
    have k2 := layerNo_draw n (s.bin b).layers q
    have hz : layerNo n (s.bin b).layers = 0 := sum_eq_zero_of_mem f2 (mem_allBins b)
    have hk := layerKg_pos_of n hz
    refine ⟨?_, (portionNo_eq_zero n).2 fun p hp e => ?_⟩
    · rw [hrest]
      exact ⟨by simp only; omega, by simp only; omega, f3, f4, f5, f6, f7⟩
    · obtain ⟨l, hl, el⟩ := drawLayers_pieces hp
      exact (layerNo_eq_zero n).1 hz l hl (el.trans e)

/-- A piece of the bottom layer is aloft when it has been drawn. -/
theorem Ledger.drawPiece (h : Ledger s) {b : BinNo} {l : Layer} {rest : List Layer} (hl : (s.bin b).layers = l :: rest)
    {x : Nat} (hx : x ≤ l.kg) : Aloft [l.piece x] (s.draw b x).2 := by
  have hd := h.draw b x
  have hn (n : Nat) : portionKg n (drawLayers (s.bin b).layers x).1 = portionKg n [l.piece x] ∧
      (portionNo n (drawLayers (s.bin b).layers x).1 = portionNo n [l.piece x] ∨ x = 0) := by
    rw [hl]
    unfold drawLayers
    split
    · next e => rw [e]; exact ⟨by simp [Layer.piece], .inr rfl⟩
    · split
      · have : x = l.kg := by omega
        rw [this, Nat.sub_self, drawLayers_zero]
        exact ⟨rfl, .inl rfl⟩
      · exact ⟨rfl, .inl rfl⟩
  refine ⟨fun n m hm => ?_, fun n e => ?_⟩
  · have := hd.lots n m hm
    unfold Tally.with at this ⊢
    rwa [(hn n).1] at this
  · obtain ⟨h1, h2⟩ := hd.absent n e
    refine ⟨h1, ?_⟩
    rcases (hn n).2 with e' | e'
    · rw [← e']; exact h2
    · have hz : layerNo n (s.bin b).layers = 0 := by
        rw [lot?_draw, Option.map_eq_none_iff] at e
        exact sum_eq_zero_of_mem ((h n).2 e).layers (mem_allBins b)
      rw [hl] at hz
      exact (portionNo_eq_zero n).2 fun p hp ep =>
        (layerNo_eq_zero n).1 hz l List.mem_cons_self (by rw [List.mem_singleton.1 hp] at ep; exact ep)

theorem State.portions_eq {b : Batch} (h : s.dryer.batch = some b) : s.portions = b.portions := by
  unfold State.portions; rw [h]; rfl

/-- A change of the batch's portions alone. -/
theorem tally_portions (hb : t.bins = s.bins) (ht : t.tickets = s.tickets) (hk : t.berths = s.berths) (n : Nat) :
    t.tally n = { s.tally n with portionKg := portionKg n t.portions, portions := portionNo n t.portions } := by
  unfold State.tally State.bin State.berth
  rw [hb, ht, hk]

/-- Portions taken from the batch are aloft: `d n` of the lot's portions are gone. -/
theorem Ledger.take (h : Ledger s) (d : Nat → Nat)
    (hl : ∀ n, t.lot? n = (s.lot? n).map fun l => { l with portionCount := l.portionCount - d n })
    (hb : t.bins = s.bins) (ht : t.tickets = s.tickets) (hk : t.berths = s.berths)
    (hkg : ∀ n, portionKg n t.portions + portionKg n ps = portionKg n s.portions)
    (hno : ∀ n, portionNo n t.portions + d n = portionNo n s.portions)
    (hps : ∀ n, portionNo n s.portions = 0 → portionNo n ps = 0) : Aloft ps t := by
  refine ⟨fun n m hm => ?_, fun n hn => ?_⟩
  · rw [hl] at hm
    obtain ⟨l, hl, rfl⟩ := Option.map_eq_some_iff.1 hm
    obtain ⟨f1, f2, f3, f4, f5, f6, f7⟩ := (h n).1 l hl
    rw [tally_portions hb ht hk]
    have e1 : (s.tally n).portionKg = portionKg n s.portions := rfl
    have e2 : (s.tally n).portions = portionNo n s.portions := rfl
    have e3 := hkg n; have e4 := hno n
    refine ⟨f1, ?_, f3, ?_, f5, f6, f7⟩
    · simp only [Tally.with]; omega
    · simp only [Tally.with]; omega
  · rw [hl, Option.map_eq_none_iff] at hn
    obtain ⟨f1, f2, f3, f4, f5, f6, f7⟩ := (h n).2 hn
    rw [tally_portions hb ht hk]
    have e1 : portionKg n s.portions = 0 := f3
    have e2 : portionNo n s.portions = 0 := f4
    have e3 := hkg n; have e4 := hno n
    exact ⟨⟨f1, f2, by simp only; omega, by simp only; omega, f5, f6, f7⟩, hps n e2⟩

/-- A piece of the batch's first portion is aloft when it has been taken (R94). -/
theorem Ledger.drawPortion (h : Ledger s) {p : Portion} (hp : s.portions.head? = some p) {x : Nat} (hx : x ≤ p.kg) :
    Aloft [{ p with kg := x }] (s.drawPortion x) := by
  unfold State.drawPortion
  split
  · next hb => unfold State.portions at hp; rw [hb] at hp; cases hp
  next b hb =>
  rw [State.portions_eq hb] at hp
  split
  · next hn => rw [hn] at hp; cases hp
  next q rest hq =>
  obtain rfl : q = p := by rw [hq] at hp; exact Option.some.inj hp
  have hs : s.portions = q :: rest := (State.portions_eq hb).trans hq
  have gone (n : Nat) (hn : portionNo n s.portions = 0) : portionNo n [{ q with kg := x }] = 0 := by
    rw [hs, portionNo_cons] at hn
    rw [portionNo_cons, portionNo_nil]; dsimp only; omega
  split
  · have hxe : x = q.kg := by omega
    refine h.take (fun n => if q.lot = n then 1 else 0) (fun n => ?_) rfl rfl rfl (fun n => ?_) (fun n => ?_) gone
    · rw [State.lot?_modLot _ _ _ fun _ => by rfl]
      refine congrArg (Option.map · (s.lot? n)) (funext fun l => ?_)
      by_cases e : n = q.lot
      · simp [e, Lot.dropPortion]
      · simp [e, Ne.symm e]
    · show portionKg n rest + _ = _
      rw [hs, portionKg_cons, portionKg_cons, portionKg_nil, hxe]; dsimp only; omega
    · show portionNo n rest + _ = _
      rw [hs, portionNo_cons]; omega
  · refine h.take (fun _ => 0) (fun n => ?_) rfl rfl rfl (fun n => ?_) (fun n => ?_) gone
    · exact (congrFun (Option.map_id (α := Lot)) (s.lot? n)).symm
    · show portionKg n ({ q with kg := q.kg - x } :: rest) + _ = _
      rw [hs, portionKg_cons, portionKg_cons, portionKg_cons, portionKg_nil]; dsimp only; split <;> omega
    · show portionNo n ({ q with kg := q.kg - x } :: rest) + 0 = _
      rw [hs, portionNo_cons, portionNo_cons]; dsimp only; omega

theorem Ledger.takePiece (h : Ledger s) {x : Transfer} {p : Portion} (hp : s.nextPiece x.source = some p) {kg : Nat}
    (hx : kg ≤ p.kg) : Aloft [{ p with kg := kg }] (s.takePiece x kg) := by
  unfold State.takePiece
  cases hs : x.source with
  | dryer => rw [hs] at hp; exact h.drawPortion hp hx
  | bin b =>
    obtain ⟨l, rest, hl, rfl⟩ := nextPiece_bin s hs hp
    have hd : Aloft [l.piece kg] (s.draw b kg).2 := h.drawPiece hl hx
    dsimp only
    split
    · exact hd.quiet (.setBin _ (Bin.modHolder_quiet _ (by rfl) fun _ => by rfl))
    · exact hd

/-- Grain aloft that has come to a bin stands in the books again (R33). -/
theorem Aloft.deposit {p : Portion} (h : Aloft [p] s) {b : BinNo} {who : HolderRef} {fromTop : Bool}
    (hd : s.deposit b who p fromTop = some u) : Ledger u := by
  have d := deposited s hd
  obtain ⟨hkg, hno, -⟩ := deposit_books hd
  have hother (c : BinNo) (hc : c ≠ b) : (u.bin c).layers = (s.bin c).layers := by rw [d.others c hc]
  have h1 (n : Nat) := (tally_bin n hother).1
  have h2 (n : Nat) := (tally_bin n hother).2
  have hrest (n : Nat) : u.tally n = { s.tally n with
      layerKg := (u.tally n).layerKg, layers := (u.tally n).layers } := by rw [d.frame]; rfl
  have e3 (n : Nat) : portionKg n [p] = if n = p.lot then p.kg else 0 := by simp [eq_comm]
  refine fun n => ⟨fun m hm => ?_, fun hn => ?_⟩
  · rw [d.lots] at hm
    obtain ⟨l, hl, rfl⟩ := Option.map_eq_some_iff.1 hm
    obtain ⟨f1, f2, f3, f4, f5, f6, f7⟩ := h.lots n l hl
    have e1 := h1 n; have e2 := h2 n; have e3 := e3 n
    rw [hkg] at e1; rw [hno] at e2
    simp only [Tally.with] at f2 f3
    rw [hrest]
    split
    · next e =>
      rw [if_pos e] at e1 e2 e3
      exact ⟨f1, by simp only; omega, by simp only; omega, f4, f5, f6, f7⟩
    · next e =>
      rw [if_neg e] at e1 e2 e3
      exact ⟨f1, by simp only; omega, by simp only; omega, f4, f5, f6, f7⟩
  · rw [d.lots, Option.map_eq_none_iff] at hn
    obtain ⟨⟨f1, f2, f3, f4, f5, f6, f7⟩, hp⟩ := h.absent n hn
    have hne : n ≠ p.lot := by rintro rfl; simp at hp
    have e1 := h1 n; have e2 := h2 n
    rw [hkg, if_neg hne] at e1; rw [hno, if_neg hne] at e2
    rw [hrest]
    exact ⟨by simp only; omega, by simp only; omega, f3, f4, f5, f6, f7⟩

theorem Berth.lists_iff {b : Berth} {n : Nat} : b.lists n = true ↔ n ∈ b.manifest.map Manifested.lot := by
  simp [Berth.lists]

/-- A lot is in the manifest after a load when it was there or is the piece's own (R157). -/
theorem Berth.lists_load (b : Berth) (p : Portion) (n : Nat) :
    ((b.load p).lists n).toNat = (b.lists n).toNat + newRefs n [p] b.manifest := by
  have hl : (b.load p).lists n = true ↔ b.lists n = true ∨ p.lot = n := by
    rw [Berth.lists_iff, Berth.lists_iff, show (b.load p).manifest = addManifest p.lot p.kg b.manifest from rfl,
      addManifest_lots]
    split
    · next e => exact ⟨.inl, fun h => h.elim id fun h => h ▸ e⟩
    · simp [eq_comm]
  have hr : newRefs n [p] b.manifest = if p.lot = n ∧ ¬ b.lists n = true then 1 else 0 := by
    unfold newRefs
    refine if_congr ?_ rfl rfl
    rw [← Berth.lists_iff]
    by_cases e : p.lot = n <;> simp [e]
  rw [hr]
  cases h0 : b.lists n <;> cases h1 : (b.load p).lists n <;> simp_all

/-- Grain aloft that has come into a barge is shipped (R9, R157). -/
theorem Aloft.load {p : Portion} (h : Aloft [p] s) (k : BerthNo) : Ledger (s.loadPiece k p) := by
  have hman (n : Nat) : ((s.loadPiece k p).tally n).manifests =
      (s.tally n).manifests + newRefs n [p] (s.berth k).manifest := by
    have := sum_map_change (l := allBerths) (by decide) (mem_allBerths k) (f := fun j => ((s.berth j).lists n).toNat)
      (g := fun j => (((s.loadPiece k p).berth j).lists n).toNat) fun j hj => by rw [berth_loadPiece, if_neg hj]
    have at_k : ((s.loadPiece k p).berth k).lists n = ((s.berth k).load p).lists n := by rw [berth_loadPiece, if_pos rfl]
    rw [at_k, Berth.lists_load] at this
    show (allBerths.map fun j => (((s.loadPiece k p).berth j).lists n).toNat).sum =
      (allBerths.map fun j => ((s.berth j).lists n).toNat).sum + _
    omega
  have hrest (n : Nat) : (s.loadPiece k p).tally n = { s.tally n with
      manifests := ((s.loadPiece k p).tally n).manifests } := by rw [loadPiece_frame]; rfl
  have e3 (n : Nat) : portionKg n [p] = if p.lot = n then p.kg else 0 := by simp
  refine fun n => ⟨fun m hm => ?_, fun hn => ?_⟩
  · rw [lot?_loadPiece] at hm
    obtain ⟨l, hl, rfl⟩ := Option.map_eq_some_iff.1 hm
    obtain ⟨f1, f2, f3, f4, f5, f6, f7⟩ := h.lots n l hl
    simp only [Tally.with, e3] at f2 f3 f7
    rw [hrest, hman]
    refine ⟨?_, ?_, f3, f4, f5, f6, ?_⟩ <;> simp only [Lot.shipOut] <;> omega
  · rw [lot?_loadPiece, Option.map_eq_none_iff] at hn
    obtain ⟨⟨f1, f2, f3, f4, f5, f6, f7⟩, hp⟩ := h.absent n hn
    have hne : p.lot ≠ n := by rintro rfl; simp at hp
    rw [hrest, hman]
    exact ⟨f1, f2, f3, f4, f5, f6, by simp [newRefs, hne, f7]⟩

end Aloft

end Sys2Proof.Machine
end

section
/-! PROOFS. The books through reports, charges, dried batches and every other operation of the dryer, the legs and the
schedules (R8, R88 to R94, R118 to R121). -/

namespace Sys2Proof.Machine

/-- Neither tickets, nor their reservations, nor settings change. -/
structure SameBookings (s t : State) : Prop where
  tickets : t.tickets = s.tickets
  holders : ∀ b, (t.bin b).ticketHolders = (s.bin b).ticketHolders
  settings : t.settings = s.settings
  banks : t.bank0 = s.bank0 ∧ t.bank1 = s.bank1
  commit : t.commit = s.commit

section Same
variable {s t u : State}

theorem SameBookings.refl (s : State) : SameBookings s s := ⟨rfl, fun _ => rfl, rfl, ⟨rfl, rfl⟩, rfl⟩

theorem SameBookings.trans (h : SameBookings s t) (k : SameBookings t u) : SameBookings s u := by
  obtain ⟨h1, h2, h3, ⟨h4, h5⟩, h6⟩ := h
  obtain ⟨k1, k2, k3, ⟨k4, k5⟩, k6⟩ := k
  exact ⟨k1.trans h1, fun b => (k2 b).trans (h2 b), k3.trans h3, ⟨k4.trans h4, k5.trans h5⟩, k6.trans h6⟩

theorem Quiet.sameBookings (h : Quiet s t) : SameBookings s t := by
  refine ⟨?_, h.tickets, ?_, ⟨?_, ?_⟩, ?_⟩ <;> rw [h.frame]

theorem Books.rebook (h : Books s) (k : SameBookings s t) (hl : Ledger t) : Books t := by
  obtain ⟨k1, k2, k3, ⟨k4, k5⟩, k6⟩ := k
  exact ⟨hl, h.bookings.congr (by rw [k1]) k2, h.handling.congr (by rw [k3]) k4 k5 k6⟩

theorem draw_sameBookings (b : BinNo) (q : Nat) : SameBookings s (s.draw b q).2 := by
  refine ⟨by rw [draw_frame], fun c => ?_, by rw [draw_frame], ⟨by rw [draw_frame], by rw [draw_frame]⟩, by rw [draw_frame]⟩
  rw [bin_draw]
  split
  · next e => unfold Bin.ticketHolders; rw [Bin.reevaluate_holders, e]
  · rfl

theorem drawPortion_sameBookings (x : Nat) : SameBookings s (s.drawPortion x) := by
  unfold State.drawPortion
  split
  · exact .refl s
  · split
    · exact .refl s
    · split <;> exact ⟨rfl, fun _ => rfl, rfl, ⟨rfl, rfl⟩, rfl⟩

theorem takePiece_sameBookings (x : Transfer) (kg : Nat) : SameBookings s (s.takePiece x kg) := by
  unfold State.takePiece
  split
  · exact drawPortion_sameBookings kg
  · dsimp only
    split
    · exact (draw_sameBookings _ _).trans
        (Quiet.setBin _ (Bin.modHolder_quiet _ (by rfl) fun _ => by rfl)).sameBookings
    · exact draw_sameBookings _ _

theorem Bin.ticketHolders_of_filter {x y : Bin} {who : HolderRef} (hw : who.isTicket = false)
    (h : y.holders.filter (fun h => h.who != who) = x.holders.filter fun h => h.who != who) :
    y.ticketHolders = x.ticketHolders := by
  have key (z : Bin) : z.ticketHolders = (z.holders.filter fun h => h.who != who).filter fun h => h.who.isTicket := by
    unfold Bin.ticketHolders
    rw [List.filter_filter]
    refine List.filter_congr fun h _ => ?_
    by_cases e : h.who = who
    · simp [e, hw]
    · simp [e]
  rw [key, key, h]

theorem deposit_sameBookings {b : BinNo} {who : HolderRef} (hw : who.isTicket = false) {p : Portion} {fromTop : Bool}
    (h : s.deposit b who p fromTop = some u) : SameBookings s u := by
  have d := deposited s h
  refine ⟨by rw [d.frame], fun c => ?_, by rw [d.frame], ⟨by rw [d.frame], by rw [d.frame]⟩, by rw [d.frame]⟩
  by_cases e : c = b
  · rw [e]; exact Bin.ticketHolders_of_filter hw (deposit_books h).2.2
  · rw [d.others c e]

end Same

section Reports
variable {s u : State}

/-- A piece moved leaves the books as they must be (R119). -/
theorem movePiece_books {x : Transfer} {p : Portion} {kg : Nat} (hp : s.nextPiece x.source = some p) (hx : kg ≤ p.kg)
    (hm : s.movePiece x p kg = some u) (h : Books s) : Books u := by
  have ha := h.ledger.takePiece hp hx
  have hb := takePiece_sameBookings (s := s) x kg
  unfold State.movePiece at hm
  dsimp only at hm
  split at hm
  · next k _ =>
    split at hm
    · cases hm
    · cases hm
      refine h.rebook (hb.trans ?_) (ha.load k)
      rw [loadPiece_frame]
      exact ⟨rfl, fun _ => rfl, rfl, ⟨rfl, rfl⟩, rfl⟩
  · next d _ =>
    obtain ⟨v, hv, rfl⟩ := Option.map_eq_some_iff.1 hm
    exact (h.rebook (hb.trans (deposit_sameBookings (by rfl) hv)) (ha.deposit hv)).quiet
      (.setBin _ (Bin.modHolder_quiet _ (by rfl) fun _ => by rfl))

theorem Books.flowReport (h : Books s) (l : LegNo) (x : Transfer) (kg : Nat) : Books (s.flowReport l x kg).1 := by
  rw [flowReport_eq]
  dsimp only
  refine Books.quiet ?_ (closeReport_quiet _ _ _ _)
  have hp : Books (s.movePieces x (s.sourceRounds x.source) (min kg (s.supply x))).2 :=
    movePieces_induction (R := fun _ s u => Books s → Books u) (fun _ => id)
      (fun _ _ _ _ _ _ hn hx _ h1 _ hr hs => hr (movePiece_books hn hx h1 hs)) _ _ s h
  exact (hp.quiet (.setLeg _ l _)).quiet (.raiseIf _ _ _)

end Reports

/-! ### A charge -/

section Charge
variable {s t : State} {ps : List Portion}

/-- Grain aloft that makes the batch of an empty dryer (R89). -/
theorem Aloft.charge (h : Aloft ps s) (h0 : s.portions = []) (hp : t.portions = ps)
    (hl : ∀ n, t.lot? n = (s.lot? n).map fun l => { l with portionCount := l.portionCount + portionNo n ps })
    (hb : ∀ b, (t.bin b).layers = (s.bin b).layers) (ht : t.tickets = s.tickets) (hk : t.berths = s.berths) :
    Ledger t := by
  have hrest (n : Nat) : t.tally n = { s.tally n with portionKg := portionKg n ps, portions := portionNo n ps } := by
    unfold State.tally State.berth
    simp only [hb, ht, hk, hp]
  have e1 (n : Nat) : (s.tally n).portionKg = 0 := by show portionKg n s.portions = 0; rw [h0]; rfl
  have e2 (n : Nat) : (s.tally n).portions = 0 := by show portionNo n s.portions = 0; rw [h0]; rfl
  refine fun n => ⟨fun m hm => ?_, fun hn => ?_⟩
  · rw [hl] at hm
    obtain ⟨l, hl, rfl⟩ := Option.map_eq_some_iff.1 hm
    obtain ⟨f1, f2, f3, f4, f5, f6, f7⟩ := h.lots n l hl
    have e1 := e1 n; have e2 := e2 n
    simp only [Tally.with] at f2 f4
    rw [hrest]
    exact ⟨f1, by simp only; omega, f3, by simp only; omega, f5, f6, f7⟩
  · rw [hl, Option.map_eq_none_iff] at hn
    obtain ⟨⟨f1, f2, f3, f4, f5, f6, f7⟩, hz⟩ := h.absent n hn
    rw [hrest]
    exact ⟨f1, f2, portionKg_of_none n hz, hz, f5, f6, f7⟩

theorem Books.charge (h : Books s) (hd : s.portions = []) (c : Charge) (tank dest : BinNo) (i : Identity) :
    Books (s.charge c tank dest i) := by
  unfold State.charge
  extract_lets plan need r s1 s2
  have hf : s1 = { r.2 with lots := s1.lots } := foldl_modLot_frame r.1 Portion.lot (fun _ => Lot.addPortion) r.2
  have hlot (n : Nat) : s1.lot? n = (r.2.lot? n).map fun l => { l with portionCount := l.portionCount + portionNo n r.1 } := by
    unfold s1
    rw [State.lot?_foldl_modLot r.2 _ Portion.lot (fun _ => Lot.addPortion) fun _ _ => rfl]
    simp only [foldl_addPortion]
    rfl
  have q : Quiet s1 s2 := reserve_quiet s1 dest (by rfl) _ _ _
  have hbin (b : BinNo) : s1.bin b = r.2.bin b := by rw [hf]; rfl
  have a : Aloft r.1 r.2 := h.ledger.draw tank plan.granted
  have hr : r.2 = { s with lots := r.2.lots, bins := r.2.bins } := draw_frame s tank plan.granted
  refine h.rebook (t := s2.setDryer _) ?_ (a.charge ?_ rfl (fun n => ?_) (fun b => ?_) ?_ ?_)
  · have k : SameBookings r.2 s1 := by rw [hf]; exact ⟨rfl, fun _ => rfl, rfl, ⟨rfl, rfl⟩, rfl⟩
    exact (((draw_sameBookings tank plan.granted).trans k).trans q.sameBookings).trans
      ⟨rfl, fun _ => rfl, rfl, ⟨rfl, rfl⟩, rfl⟩
  · unfold State.portions at hd ⊢; rw [hr]; exact hd
  · rw [← hlot, ← q.lot?]; rfl
  · rw [← hbin, ← (q.bins b).1]; rfl
  · show s2.tickets = _; rw [q.frame, hf]
  · show s2.berths = _
    rw [(reserve_untouched s1 dest .batch i need r.1.length).2, hf]

end Charge

/-! ### A batch dried -/

/-- Dry kilograms and losses make up the wet kilograms, for a handling shrink within its range (R53, R100). -/
theorem shrink_sum (w inlet outlet : Nat) {h : Nat} (hh : h ≤ 100) :
    (shrink w inlet outlet h).dry + ((shrink w inlet outlet h).water + (shrink w inlet outlet h).handling) = w := by
  unfold shrink
  extract_lets me d1 loss
  have hd : d1 ≤ w := by
    refine Nat.div_le_of_le_mul ?_
    rw [Nat.mul_comm]
    refine Nat.mul_le_mul_right w ?_
    have : me ≤ inlet := by unfold me effectiveMoisture; split <;> omega
    omega
  have hl : loss ≤ d1 := by
    have : d1 * h ≤ d1 * 100 := Nat.mul_le_mul_left d1 hh
    unfold loss
    omega
  simp only
  omega

section Dried
variable {s : State}

/-- Portions of which each keeps `dry` kilograms and loses the rest, those that keep none taken out, lot by lot. -/
theorem dried_sums (n : Nat) {f : Portion → Portion} {dry loss : Portion → Nat} (hl : ∀ p, (f p).lot = p.lot)
    (hk : ∀ p, (f p).kg = dry p) (hs : ∀ p, dry p + loss p = p.kg) (ps : List Portion) :
    portionKg n ((ps.map f).filter fun p => p.kg != 0) + ((ps.filter fun p => p.lot == n).map loss).sum =
        portionKg n ps ∧
      portionNo n ((ps.map f).filter fun p => p.kg != 0) +
        ((ps.filter fun p => p.lot == n).filter fun p => dry p == 0).length = portionNo n ps := by
  induction ps with
  | nil => exact ⟨rfl, rfl⟩
  | cons p ps ih =>
    obtain ⟨ih1, ih2⟩ := ih
    have hp := hs p
    rw [portionKg_cons, portionNo_cons, List.map_cons, List.filter_cons, List.filter_cons, hk]
    by_cases e : p.lot = n <;> by_cases hz : dry p = 0 <;> simp [e, hz, hl, hk, -List.filter_filter] <;> omega

/-- The batch's portions dried: their losses are posted and what is left stands (R8, R91). -/
theorem Books.dryBatch (h : Books s) {b : Batch} (hb : s.dryer.batch = some b) (reported : Nat) :
    Books (s.dryBatch b reported) := by
  have he := dryBatch_eq s b reported
  extract_lets outlet u at he
  rw [he]
  refine Books.quiet ?_ (.raise _ _)
  set H := s.settings.dryer.handling with hH
  have hh : H ≤ 100 := h.handling.1
  have hf : u = { s with lots := u.lots, events := u.events } := by
    unfold u; rw [foldl_modLot_frame, driedFlags_frame]
  set v := u.setDryer { s.dryer with
    state := .dischargeWait, autoDischarge := true, drying := none, batch := some (b.driedTo outlet H) } with hv
  have hlot (n : Nat) : v.lot? n = (s.lot? n).map fun l => (b.portions.filter fun p => p.lot == n).foldl
      (fun m p => m.postShrink (shrink p.kg p.moisture outlet H)) l := by
    have h0 : (s.driedFlags b reported).lot? n = s.lot? n := State.lot?_congr (by rw [driedFlags_frame]) n
    rw [← h0]
    exact State.lot?_foldl_modLot (s.driedFlags b reported) b.portions Portion.lot
      (fun p => Lot.postShrink (shrink p.kg p.moisture outlet H)) (fun _ => Lot.postShrink_no _) n
  have sums (n : Nat) := dried_sums n (f := fun p => { p with
      kg := (shrink p.kg p.moisture outlet H).dry, moisture := (shrink p.kg p.moisture outlet H).moisture })
    (dry := fun p => (shrink p.kg p.moisture outlet H).dry)
    (loss := fun p => (shrink p.kg p.moisture outlet H).water + (shrink p.kg p.moisture outlet H).handling)
    (fun _ => rfl) (fun _ => rfl) (fun p => shrink_sum p.kg p.moisture outlet hh) b.portions
  have htally (n : Nat) := tally_portions (s := s) (t := v) (by rw [hv, hf]; rfl) (by rw [hv, hf]; rfl)
    (by rw [hv, hf]; rfl) n
  have hbefore (n : Nat) : (s.tally n).portionKg = portionKg n b.portions ∧
      (s.tally n).portions = portionNo n b.portions := by rw [← State.portions_eq hb]; exact ⟨rfl, rfl⟩
  have hafter : v.portions = (b.driedTo outlet H).portions := rfl
  refine h.rebook ?_ (h.ledger.post _ hlot (fun n l _ f => ?_) fun n _ e => ?_)
  · rw [hv, hf]; exact ⟨rfl, fun _ => rfl, rfl, ⟨rfl, rfl⟩, rfl⟩
  · obtain ⟨f1, f2, f3, f4, f5, f6, f7⟩ := f
    obtain ⟨k1, k2⟩ := sums n
    obtain ⟨b1, b2⟩ := hbefore n
    rw [htally, hafter, foldl_postShrink]
    have add := List.sum_map_add (l := b.portions.filter fun p => p.lot == n)
      (f := fun p : Portion => (shrink p.kg p.moisture outlet H).water)
      (g := fun p : Portion => (shrink p.kg p.moisture outlet H).handling)
    unfold Batch.driedTo
    refine ⟨?_, ?_, f3, ?_, f5, f6, f7⟩ <;> simp only <;> omega
  · obtain ⟨f1, f2, f3, f4, f5, f6, f7⟩ := e
    obtain ⟨k1, k2⟩ := sums n
    obtain ⟨b1, b2⟩ := hbefore n
    rw [htally, hafter]
    unfold Batch.driedTo
    exact ⟨f1, f2, by simp only; omega, by simp only; omega, f5, f6, f7⟩

end Dried

section Operations
variable {s t : State}

/-- A change of the dryer's record that keeps the batch's portions. -/
theorem Books.setDryer (h : Books s) {d : Dryer} (hd : (d.batch.map Batch.portions).getD [] = s.portions) :
    Books (s.setDryer d) := h.quiet (.setDryer s hd)

theorem Books.setDryerRaise (h : Books s) {d : Dryer} (hd : (d.batch.map Batch.portions).getD [] = s.portions)
    (f : Flag) : Books ((s.setDryer d).raise f) := (h.setDryer hd).quiet (.raise _ f)

/-- A change of settings other than the handling shrink. -/
theorem Books.setSettings (h : Books s) {x : Settings} (hx : x.handlingFits) : Books { s with settings := x } :=
  h.same ⟨rfl, fun _ => ⟨rfl, rfl⟩, rfl, fun _ => rfl, rfl, fun ⟨_, k⟩ => ⟨hx, k⟩⟩

theorem Books.setTemp (h : Books s) (b : BinNo) (x : TempFields) : Books (s.setBin b { s.bin b with temp := x }) :=
  h.quiet (setTemp_quiet s b x)

/-- A ready dryer holds no portions. -/
theorem DryerLaw.ready (h : DryerLaw s) (hs : s.dryer.state = .ready) : s.portions = [] := by
  unfold DryerLaw Dryer.agrees at h
  rw [hs] at h
  unfold State.portions
  rw [show s.dryer.batch = none from h]
  rfl

/-- A dryer setting in its range leaves the handling shrink in its range (R100). -/
theorem DryerSetting.handling_le {d : DryerSettings} {x : DryerSetting} (hx : x.inRange = true) (hd : d.handling ≤ 100) :
    (d.apply x).handling ≤ 100 := by
  cases x with
  | handling n =>
    have : 0 ≤ n ∧ n ≤ 100 := by simpa [DryerSetting.inRange, within] using hx
    exact this.2
  | dischargeLeg n => unfold DryerSettings.apply; dsimp only; split <;> exact hd
  | warmUp n | batchMax n | maxDrying n | floor n | tolerance n => exact hd

/-- Every operation of the dryer, the legs and the schedules keeps the books. -/
theorem TransferOperation.books (h : TransferOperation s t) (hd : DryerLaw s) (hs : Books s) : Books t := by
  cases h
  case warmUp | setStop | stopDryer | suspendDryer => exact hs.setDryer rfl
  case clearFault =>
    split
    · exact hs.setDryer rfl
    · exact hs.setDryer rfl
  case charge st c tank dest i hc _ =>
    have := hc (s.dryer.state != .ready, .state) (by simp [State.chargeChecks])
    exact hs.charge (hd.ready (by simpa using this)) c tank dest i
  case batchDried b reported _ hb => exact (hs.dryBatch hb reported).quiet (tryDischarge_quiet _)
  case discharge stop _ =>
    have h1 : Books (s.setDryer { s.dryer with state := .dischargeWait, autoDischarge := true, stopPending := stop }) :=
      hs.setDryer rfl
    exact h1.quiet (tryDischarge_quiet _)
  case faultDryer _ _ =>
    have h1 : Books ((s.setDryer { s.dryer with
        state := .fault, warmUp := none, returnMark := false, autoDischarge := false }).raise flagDryerFault) :=
      hs.setDryerRaise (by rfl) _
    exact h1.quiet (endTransfers_quiet _ _)
  case setDryerSettings x hx =>
    exact hs.setSettings (DryerSetting.handling_le hx hs.handling.1)
  case setCleanout | setRotation => exact hs.setSettings hs.handling.1
  case warmUpExpired =>
    unfold State.warmUpExpired
    split
    · split
      · exact hs.setDryer rfl
      · exact hs.setDryerRaise (by rfl) _
    · exact hs
  case dryingExpired =>
    unfold State.dryingExpired
    split
    · split
      · exact hs
      · exact hs.setDryerRaise (by rfl) _
    · exact hs
  case setStaging l x => exact hs.quiet (.setLeg s l _)
  case launchStaged l x _ => exact hs.quiet (launchStaged_quiet s l x)
  case flowReport l x kg _ _ => exact hs.flowReport l x kg
  case abort l k => exact hs.quiet (endTransfers_quiet s _)
  case markClean l _ => exact hs.quiet (.setLeg s l _)
  case cleanoutDone l => exact hs.quiet (cleanoutDone_quiet s l)
  case reportTemperature b z =>
    unfold State.reportTemperature
    have h1 : Books ((s.takeReading b z).freshen b) :=
      ((hs.setTemp b _).quiet (evaluateHot_quiet _ b)).setTemp b _
    dsimp only
    split
    · exact h1.quiet (examine_quiet _)
    · exact h1
  case setSchedule n r a b l _ _ _ => exact (hs.quiet (.setEntry s n _)).quiet (examine_quiet _)
  case endSchedule n e abort _ => exact hs.quiet (endSchedule_quiet s n e abort)
  case staleExpired b =>
    unfold State.staleExpired
    dsimp only
    split
    · exact ((hs.setTemp b _).quiet (.raise _ _)).quiet (examine_quiet _)
    · exact hs

end Operations

end Sys2Proof.Machine
end

section
/-! PROOFS. The books through the berths' operations, the starts and the clock, and with them the account law through every
step (R6, R10, R11, R149, R162, R193). -/

namespace Sys2Proof.Machine

section Berths
variable {s t : State}

/-- A change of a berth that keeps its manifest. -/
theorem Books.setBerth (h : Books s) {k : BerthNo} {x : Berth} (hx : x.manifest = (s.berth k).manifest) :
    Books (s.setBerth k x) := by
  refine h.same ⟨by rfl, fun _ => ⟨by rfl, by rfl⟩, by rfl, fun j => ?_, by rfl, id⟩
  rw [State.berth_setBerth]
  split
  · next e => rw [e]; exact hx
  · rfl

theorem Books.setRiver (h : Books s) {r : River} : Books { s with river := r } :=
  h.same ⟨rfl, fun _ => ⟨rfl, rfl⟩, rfl, fun _ => rfl, rfl, id⟩

/-- A barge that comes finds no manifest, and brings none (R149). -/
theorem Books.acceptBarge (h : Books s) {k : BerthNo} (g : Barge) (hk : (s.berth k).manifest = []) :
    Books (s.acceptBarge k g) := by
  unfold State.acceptBarge
  exact Books.quiet (h.setBerth (k := k) (x := (s.berth k).cleared .assigned (some g)) hk.symm) (recomputeLimit_quiet _ k)

/-- A manifest without a lot twice lists a lot once or not at all. -/
theorem Berth.lists_length {b : Berth} (h : (b.manifest.map Manifested.lot).Nodup) (n : Nat) :
    (b.manifest.filter fun e => e.lot == n).length = (b.lists n).toNat := by
  have hc : (b.manifest.filter fun e => e.lot == n).length = (b.manifest.map Manifested.lot).count n := by
    rw [List.count_eq_length_filter, List.filter_map, List.length_map]; rfl
  rw [hc]
  cases hl : b.lists n with
  | true => exact List.count_eq_one_of_mem h (Berth.lists_iff.1 hl)
  | false => exact List.count_eq_zero.2 fun hm => by rw [Berth.lists_iff.2 hm] at hl; cases hl

/-- A barge that leaves takes its lots' manifest references with it (R11, R162). -/
theorem Books.releaseBarge (h : Books s) {k : BerthNo} (hn : ((s.berth k).manifest.map Manifested.lot).Nodup) :
    Books (s.releaseBarge k) := by
  have hf : s.releaseBarge k = { s with lots := (s.releaseBarge k).lots, berths := (s.releaseBarge k).berths } := by
    unfold State.releaseBarge
    rw [foldl_modLot_frame]; rfl
  have hman (n : Nat) : ((s.releaseBarge k).tally n).manifests + ((s.berth k).lists n).toNat = (s.tally n).manifests := by
    have := sum_map_change (l := allBerths) (by decide) (mem_allBerths k) (f := fun j => ((s.berth j).lists n).toNat)
      (g := fun j => (((s.releaseBarge k).berth j).lists n).toNat) fun j hj => by
        rw [(releaseBarge_berth k j).2, if_neg hj]
    have hz : ((s.releaseBarge k).berth k).lists n = false := by rw [(releaseBarge_berth k k).2, if_pos rfl]; rfl
    rw [hz] at this
    exact this
  have hrest (n : Nat) : (s.releaseBarge k).tally n = { s.tally n with
      manifests := ((s.releaseBarge k).tally n).manifests } := by rw [hf]; rfl
  refine ⟨h.ledger.post _ (releaseBarge_lot? s k) (fun n l _ f => ?_) fun n _ e => ?_, ?_, ?_⟩
  · obtain ⟨f1, f2, f3, f4, f5, f6, f7⟩ := f
    have e1 := hman n
    rw [hrest, Berth.lists_length hn]
    exact ⟨f1, f2, f3, f4, f5, f6, by simp only; omega⟩
  · obtain ⟨f1, f2, f3, f4, f5, f6, f7⟩ := e
    have e1 := hman n
    rw [hrest]
    exact ⟨f1, f2, f3, f4, f5, f6, by simp only; omega⟩
  · exact h.bookings.congr (by rw [hf]) fun b => by rw [hf]; rfl
  · rw [hf]; exact h.handling

/-- A change of a berth's line. -/
theorem Books.lineChanged (h : Books s) {k : BerthNo} {x : Berth} (hx : x.manifest = (s.berth k).manifest) (f : Flag)
    (lost : Bool) (cause : HaltCause) : Books (((s.setBerth k x).raise f).conditionChanged k lost cause) :=
  ((h.setBerth hx).quiet (.raise _ f)).quiet (conditionChanged_quiet _ k lost cause)

/-- Every operation of the berths and the river keeps the books. -/
theorem BerthOperation.books (h : BerthOperation s t) (hb : LoadsLaw s) (hm : ManifestLaw s) (hs : Books s) : Books t := by
  cases h
  case acceptBarge k g hv => exact hs.acceptBarge g ((hb.stands k).empty hv)
  case releaseBarge k _ _ =>
    obtain ⟨-, hn, -⟩ := hm k
    exact hs.releaseBarge hn
  case setOrder k o _ _ => exact (hs.setBerth (by rfl)).quiet (orderChanged_quiet _ k)
  case setPlan k qs _ _ _ => exact (hs.setBerth (by rfl)).quiet (orderChanged_quiet _ k)
  case setEnable k v => exact (hs.setBerth (by rfl)).quiet (conditionChanged_quiet _ k _ _)
  case commandSpout k n select _ _ _ => exact Books.quiet (hs.setBerth (by rfl)) (settleReady_quiet _ k)
  case spoutArrived k n _ =>
    exact Books.quiet (Books.quiet (hs.setBerth (by rfl)) (.raiseIf _ _ _)) (settleReady_quiet _ k)
  case spoutExpired k =>
    unfold State.spoutExpired; dsimp only; split
    · exact Books.quiet (Books.quiet (hs.setBerth (by rfl)) (.raise _ _)) (settleReady_quiet _ k)
    · exact hs
  case resumeBerth k _ _ => exact hs.quiet (completionTest_quiet s k)
  case readStage z => exact Books.quiet hs.setRiver (recomputeLimits_quiet _)
  case riverExpired =>
    unfold State.riverExpired; split
    · exact Books.quiet (Books.quiet hs.setRiver (.raise _ _)) (recomputeLimits_quiet _)
    · exact hs
  case setRiver x =>
    unfold State.setRiver; dsimp only; split
    · exact hs.setSettings hs.handling.1
    · have h1 : Books { s with settings := { s.settings with river := s.settings.river.apply x } } :=
        hs.setSettings hs.handling.1
      exact h1.quiet (recomputeLimits_quiet _)
  case presentChanged k v =>
    unfold State.presentChanged; split
    · exact hs
    · exact hs.lineChanged (by rfl) _ _ _
  case mooredChanged k v =>
    unfold State.mooredChanged; split
    · exact hs
    · exact hs.lineChanged (by rfl) _ _ _
  case buttonPressed k =>
    unfold State.buttonPressed; split
    · exact hs
    · exact (hs.setBerth (by rfl)).quiet (.raise _ _)
  case buttonReleased k => exact hs.setBerth (by rfl)

end Berths

/-! ### Starts, settings banks and the clock -/

section System
variable {s t : State}

/-- Only what the books do not read has changed, and the settings that stand are in their range. -/
theorem Books.aside (h : Books s) (h1 : t.lots = s.lots) (h2 : t.bins = s.bins)
    (h3 : t.dryer.batch = s.dryer.batch) (h4 : t.berths = s.berths) (h5 : t.tickets = s.tickets) (h6 : HandlingLaw t) :
    Books t :=
  h.same ⟨h1, fun b => by unfold State.bin; rw [h2]; exact ⟨rfl, rfl⟩, by unfold State.portions; rw [h3],
    fun k => by unfold State.berth; rw [h4], by rw [h5], fun _ => h6⟩

theorem HandlingLaw.setBank (h : HandlingLaw s) (b : Fin 2) {x : Bank} (hx : x.image.handlingFits) :
    HandlingLaw (s.setBank b x) := by
  obtain ⟨h1, h2, h3, h4⟩ := h
  unfold State.setBank
  split
  · exact ⟨h1, hx, h3, h4⟩
  · exact ⟨h1, h2, hx, h4⟩

theorem HandlingLaw.idle (h : HandlingLaw s) (h1 : t.settings = s.settings) (h2 : t.bank0 = s.bank0)
    (h3 : t.bank1 = s.bank1) (h4 : t.commit = .idle) : HandlingLaw t := by
  obtain ⟨k1, k2, k3, -⟩ := h
  unfold HandlingLaw
  rw [h1, h2, h3, h4]
  exact ⟨k1, k2, k3, nofun⟩

/-- A written or spoilt bank holds the image it was written from. -/
theorem Books.setBank (h : Books s) (b : Fin 2) {x : Bank} (hx : x.image.handlingFits) : Books (s.setBank b x) := by
  refine h.aside ?_ ?_ ?_ ?_ ?_ (h.handling.setBank b hx) <;> rw [State.setBank_frame]

theorem HandlingLaw.writing (h : HandlingLaw s) {b : Fin 2} {g : Nat} {x : Settings} (hc : s.commit = .writing b g x) :
    x.handlingFits := by
  obtain ⟨-, -, -, h4⟩ := h
  exact h4 b g x hc

theorem Books.commitEnds (h : Books s) : Books s.commitEnds := by
  unfold State.commitEnds
  split
  · exact h
  · next b g x hc =>
    refine Books.quiet ?_ (.raise _ _)
    have h1 : Books (s.setBank b (Bank.written g x)) := h.setBank b (h.handling.writing hc)
    exact h1.aside (by rfl) (by rfl) (by rfl) (by rfl) (by rfl) (h1.handling.idle (by rfl) (by rfl) (by rfl) (by rfl))

theorem Books.commitFails (h : Books s) : Books s.commitFails := by
  unfold State.commitFails
  split
  · exact h
  · next b g x hc =>
    refine Books.quiet ?_ (.raise _ _)
    have h1 : Books (s.setBank b (Bank.spoilt g x)) := h.setBank b (h.handling.writing hc)
    exact h1.aside (by rfl) (by rfl) (by rfl) (by rfl) (by rfl) (h1.handling.idle (by rfl) (by rfl) (by rfl) (by rfl))

theorem Books.abandonCommit (h : Books s) : Books s.abandonCommit := by
  unfold State.abandonCommit
  split
  · exact h
  · next b g x hc =>
    dsimp only
    have h1 : Books { s with commit := .idle, freeCount := s.freeCount + 1 } :=
      h.aside (by rfl) (by rfl) (by rfl) (by rfl) (by rfl) (h.handling.idle (by rfl) (by rfl) (by rfl) (by rfl))
    split
    · exact h1.setBank b (h.handling.writing hc)
    · exact h1

theorem State.bank_handling (h : HandlingLaw s) (b : Fin 2) : (s.bank b).image.handlingFits := by
  obtain ⟨-, h2, h3, -⟩ := h
  unfold State.bank
  split
  · exact h2
  · exact h3

theorem factory_handling : Settings.factory.handlingFits := by unfold Settings.handlingFits; decide

theorem HandlingLaw.loadSettings (h : HandlingLaw s) : HandlingLaw s.loadSettings := by
  obtain ⟨h1, h2, h3, h4⟩ := h
  unfold State.loadSettings
  split
  · next b _ => exact ⟨State.bank_handling ⟨h1, h2, h3, h4⟩ b, h2, h3, h4⟩
  · exact ⟨factory_handling, h2, h3, h4⟩

theorem Books.loadSettings (h : Books s) : Books s.loadSettings := by
  refine h.aside ?_ ?_ ?_ ?_ ?_ h.handling.loadSettings <;> (unfold State.loadSettings; split <;> rfl)

theorem Books.losePower (h : Books s) : Books s.losePower :=
  h.abandonCommit.aside (by rfl) (by rfl) (by rfl) (by rfl) (by rfl) h.abandonCommit.handling

theorem Books.readLines (h : Books s) (p : Pins) : Books (s.readLines p) :=
  h.same ⟨rfl, fun _ => ⟨rfl, rfl⟩, rfl, fun k => by rw [berth_readLines], rfl, id⟩

theorem Books.warmRecords (h : Books s) (p : Pins) : Books (s.warmRecords p) := by
  unfold State.warmRecords
  extract_lets s1 sized s2
  have q := resetTransfers_quiet s
  have h0 : Books s.resetTransfers := h.quiet q
  have h1 : Books s1 := h0.aside (by rfl) (by rfl) (by rfl) (by rfl) (by rfl) h0.handling
  have hz : Books sized := h1.mapLots (Lot.sizeCheck_no _) (Lot.sizeCheck_figures _) s1.settings rfl
  have h2 : Books s2 := by
    refine hz.same ⟨by rfl, fun b => ?_, by rfl, fun k => ?_, ?_, id⟩
    · have : s2.bin b = s1.carryTemp (s1.bin b) := by simp [s2, State.bin, Vector.get]
      rw [this]; exact ⟨rfl, rfl⟩
    · have : s2.berth k = (s1.berth k).warm := by simp [s2, State.berth, Vector.get]
      rw [this]; unfold Berth.warm; split <;> rfl
    · exact (List.map_map ..).trans (List.map_congr_left fun _ _ => rfl)
  exact (h2.readLines p).quiet (.foldl (fun t k => recomputeLimit_quiet t k) _ _)

theorem Books.staleNow (h : Books s) (b : BinNo) : Books (s.staleNow b) := (h.setTemp b _).quiet (.raise _ _)

theorem Books.warmStart (h : Books s) (ht : TableLaw s) (p : Pins) : Books (s.warmStart p) := by
  unfold State.warmStart
  extract_lets s2 s3 s5
  have h2 : Books s2 := h.abandonCommit.loadSettings
  have h3 : Books s3 :=
    (h2.warmRecords p).aside (by rfl) (by rfl) (by rfl) (by rfl) (by rfl) (h2.warmRecords p).handling
  have h4 : Books (s3.clearAllFlags.raise flagStartWarm) :=
    h3.aside (by rfl) (by rfl) (by rfl) (by rfl) (by rfl) h3.handling
  have h5 : Books s5 := h4.quiet (.raiseIf _ _ _)
  have t3 : SameTables s s3 := (((abandonCommit_sameTickets s).trans (loadSettings_sameTickets _)).sameTables.trans
    (warmRecords_sameTables s2 p)).trans ⟨rfl, rfl, rfl⟩
  have t5 : TableLaw s5 := (ht.congr t3).congr
    (SameTables.trans (t := s3.clearAllFlags.raise flagStartWarm) ⟨rfl, rfl, rfl⟩ (Quiet.raiseIf _ _ _).sameTables)
  unfold State.completeWarm
  have h6 : Books ((s2.staleAtStart).foldl (fun t b => t.staleNow b) s5.expireOverdue) := by
    have he := h5.expireOverdue t5
    generalize s5.expireOverdue = u at he
    induction s2.staleAtStart generalizing u with
    | nil => exact he
    | cons b bs ih => exact ih _ (he.staleNow b)
  exact (h6.quiet (.foldl (fun u k => .raise u _) _ _)).quiet (examine_quiet _)

theorem State.reset_bin (b : BinNo) : State.reset.bin b = Bin.cold := by simp [State.reset, State.bin, Vector.get]

theorem State.reset_berth (k : BerthNo) : State.reset.berth k = Berth.cold false false false := by
  revert k; decide

/-- A machine without records has nothing standing under any number (R21, R46, R84). -/
theorem State.reset_tally (n : Nat) : (State.reset.tally n).Empty := by
  refine ⟨List.sum_eq_zero ?_, List.sum_eq_zero ?_, rfl, rfl, rfl, rfl, rfl⟩
  all_goals
    intro x hx
    obtain ⟨b, -, rfl⟩ := List.mem_map.1 hx
    rw [State.reset_bin]; rfl

/-- The books of a machine without records. -/
theorem Books.fresh (hl : t.lots = []) (ht : t.tickets = []) (hb : t.bins = State.reset.bins)
    (hd : t.dryer = State.reset.dryer) (hk : t.berths = State.reset.berths) (hh : HandlingLaw t) : Books t := by
  have hbin (b : BinNo) : t.bin b = Bin.cold := by rw [← State.reset_bin b]; unfold State.bin; rw [hb]
  refine ⟨fun n => ⟨fun l e => ?_, fun _ => ?_⟩, ⟨fun k hm => ?_, fun k hm => ?_, fun b x hx => ?_⟩, hh⟩
  · unfold State.lot? at e; rw [hl] at e; cases e
  · have : t.tally n = State.reset.tally n := by
      unfold State.tally State.portions State.bin State.berth
      rw [hb, hd, hk, ht]; rfl
    rw [this]; exact State.reset_tally n
  · rw [ht] at hm; cases hm
  · rw [ht] at hm; cases hm
  · rw [hbin] at hx; cases hx

theorem Books.coldStart (h : HandlingLaw s.abandonCommit.loadSettings) (p : Pins) : Books (s.coldStart p) := by
  obtain ⟨h1, h2, h3, -⟩ := h
  unfold State.coldStart
  extract_lets s2 cold s3
  have hb : Books s3 := .fresh rfl rfl rfl rfl rfl ⟨h1, h2, h3, nofun⟩
  have h4 : Books ((s3.readLines p).clearAllFlags.enableAll.raise flagStartCold) :=
    (hb.readLines p).aside (by rfl) (by rfl) (by rfl) (by rfl) (by rfl) hb.handling
  exact h4.quiet (.raiseIf _ _ _)

theorem Books.tick (h : Books s) : Books s.tick := by
  unfold State.tick
  split
  · have hc : Books s.countDown := by
      refine h.same ⟨by rfl, fun b => ?_, by rfl, fun k => ?_, by rfl, id⟩
      · have : s.countDown.bin b = (s.bin b).countDown := by simp [State.countDown, State.bin, Vector.get]; rfl
        rw [this]; exact ⟨rfl, rfl⟩
      · have : s.countDown.berth k = (s.berth k).countDown := by simp [State.countDown, State.berth, Vector.get]; rfl
        rw [this]; rfl
    exact hc.aside (by rfl) (by rfl) (by rfl) (by rfl) (by rfl) hc.handling
  · exact h.aside (by rfl) (by rfl) (by rfl) (by rfl) (by rfl) h.handling

/-- Every operation of stations, flags, the store, time and the starts keeps the books. -/
theorem SystemOperation.books (h : SystemOperation s t) (ht : TableLaw s) (hs : Books s) : Books t := by
  cases h with
  | unchanged => exact hs
  | raise | lower | setEnables | setTime | resetPart | releaseEstop | releaseReset | setBackupLost | setStation =>
    exact hs.aside (by rfl) (by rfl) (by rfl) (by rfl) (by rfl) hs.handling
  | beginCommit _ =>
    refine hs.aside (by rfl) (by rfl) (by rfl) (by rfl) (by rfl) ?_
    obtain ⟨h1, h2, h3, -⟩ := hs.handling
    exact ⟨h1, h2, h3, fun b g x e => by cases e; exact h1⟩
  | dropStation n x _ =>
    have h1 : Books (s.setStation n x) := hs.aside (by rfl) (by rfl) (by rfl) (by rfl) (by rfl) hs.handling
    exact h1.quiet (dropStagings_quiet _ n)
  | commitEnds => exact hs.commitEnds
  | commitFails => exact hs.commitFails
  | assertEstop =>
    unfold State.assertEstop
    split
    · exact hs
    · have hb : s.dryer.stopped.batch = s.dryer.batch := by unfold Dryer.stopped; split <;> rfl
      have h1 : Books { s with estop := true, dryer := s.dryer.stopped } :=
        hs.aside (by rfl) (by rfl) hb (by rfl) (by rfl) hs.handling
      exact (h1.quiet (stopLegs_quiet _)).quiet (endTransfers_quiet _ _)
  | losePower => exact hs.losePower
  | warmStart p => exact hs.warmStart ht p
  | warmReturn p => exact hs.losePower.warmStart (ht.congr (losePower_sameTickets s).sameTables) p
  | coldReturn p => exact .coldStart hs.losePower.abandonCommit.loadSettings.handling p

/-! ### Every step -/

theorem Operation.books (h : Operation s t) (hb : LoadsLaw s) (hm : ManifestLaw s) (ht : TableLaw s) (hd : DryerLaw s)
    (hs : Books s) : Books t := by
  cases h with
  | intake h => exact h.books ht hs
  | transfer h => exact h.books hd hs
  | berth h => exact h.books hb hm hs
  | system h => exact h.books ht hs

/-- What one step is: a second of the clock, or one operation with the queue and the port aside. -/
theorem step_operation (h : step s = .next t) : t = s.tick ∨
    ∃ rest v r q, Operation { s with pending := rest } v ∧ t = { v with receiver := r, response := q } := by
  unfold step at h
  split at h
  · cases h; exact .inl rfl
  · next c rest _ =>
    obtain ⟨u, v, he, ho, hp⟩ := exec_operates c { s with pending := rest }
    cases he.symm.trans h
    exact .inr ⟨rest, u, _, _, ho, hp⟩

theorem step_books (h : step s = .next t) (hb : LoadsLaw s) (hm : ManifestLaw s) (ht : TableLaw s) (hd : DryerLaw s)
    (hs : Books s) : Books t := by
  rcases step_operation h with e | ⟨rest, v, r, q, ho, e⟩
  · rw [e]; exact hs.tick
  · have h0 : Books { s with pending := rest } := hs.aside rfl rfl rfl rfl rfl hs.handling
    have h1 : Books v := ho.books (Loads.congr hb ⟨rfl, rfl⟩) hm ht hd h0
    rw [e]; exact h1.aside rfl rfl rfl rfl rfl h1.handling

/-- Settles O11: manifests, berths and books are each kept by every operation. -/
theorem everyStepKeepsTheManifestLaw : Obligations.EveryStepKeepsTheManifestLaw := by
  intro s t hm h
  refine ⟨step_manifests h hm, fun hi hb => (loadsLaw_iff.1 (step_loads h (loadsLaw_iff.2 ⟨hi, hb⟩))).2,
    fun hi hb ht hd ha => ?_⟩
  obtain ⟨h1, h2, h3⟩ := (accountLaw_iff ht).1 ha
  have htt : TableLaw t := (step_tables (registry := False) h ⟨ht, False.elim⟩).1
  have hbt := step_books h (loadsLaw_iff.2 ⟨hi, hb⟩) hm ht hd ⟨h1, h2, h3⟩
  exact (accountLaw_iff htt).2 ⟨hbt.ledger, hbt.bookings, hbt.handling⟩

end System

end Sys2Proof.Machine
end

section
/-! PROOFS. The ends that a warm start makes of every live transfer (R102, R122, R130, R193). -/

namespace Sys2Proof.Machine

/-! ### What an end leaves alone -/

/-- Schedules, dryer, transfer counter, temperatures and the enables of the event groups stand. -/
structure Aside (s u : State) : Prop where
  schedules : u.schedules = s.schedules
  dryer : u.dryer = s.dryer
  next : u.nextTransfer = s.nextTransfer
  temps : ∀ b, (u.bin b).temp = (s.bin b).temp
  enables : ∀ g, (u.group g).enables = (s.group g).enables

section Aside
variable {s t u : State}

theorem Aside.refl (s : State) : Aside s s := ⟨rfl, rfl, rfl, fun _ => rfl, fun _ => rfl⟩

theorem Aside.trans (h : Aside s t) (k : Aside t u) : Aside s u :=
  ⟨k.schedules.trans h.schedules, k.dryer.trans h.dryer, k.next.trans h.next, fun b => (k.temps b).trans (h.temps b),
    fun g => (k.enables g).trans (h.enables g)⟩

theorem Aside.foldl {α : Type} {f : State → α → State} (h : ∀ s a, Aside s (f s a)) (l : List α) (s : State) :
    Aside s (l.foldl f s) := by
  induction l generalizing s with
  | nil => exact .refl s
  | cons a l ih => exact (h s a).trans (ih _)

theorem Aside.setBin (s : State) {b : BinNo} {x : Bin} (h : x.temp = (s.bin b).temp) : Aside s (s.setBin b x) := by
  refine ⟨rfl, rfl, rfl, fun c => ?_, fun _ => rfl⟩
  rw [State.bin_setBin]
  split
  · next e => rw [e]; exact h
  · rfl

theorem Bin.reevaluate_temp (x : Bin) : x.reevaluate.temp = x.temp := by unfold Bin.reevaluate; split <;> rfl

theorem Aside.raise (s : State) (f : Flag) : Aside s (s.raise f) :=
  ⟨rfl, rfl, rfl, fun _ => rfl, State.enables_raise s f⟩

theorem Aside.setBerth (s : State) (k : BerthNo) (x : Berth) : Aside s (s.setBerth k x) :=
  ⟨rfl, rfl, rfl, fun _ => rfl, fun _ => rfl⟩

theorem Aside.raiseIf (s : State) (c : Bool) (f : Flag) : Aside s (s.raiseIf c f) := by
  unfold State.raiseIf; split
  · exact .raise s f
  · exact .refl s

theorem dropClaim_aside (s : State) (b : BinNo) (id : Nat) : Aside s (s.dropClaim b id) := by
  unfold State.dropClaim; split
  · exact .setBin s (Bin.reevaluate_temp _)
  · exact .refl s

theorem release_aside (s : State) (b : BinNo) (who : HolderRef) : Aside s (s.release b who) :=
  .setBin s (Bin.reevaluate_temp _)

theorem endReservation_aside (s : State) (t : Transfer) (reason : EndReason) : Aside s (s.endReservation t reason) := by
  unfold State.endReservation; split
  · exact .refl s
  · split
    · exact .setBin s rfl
    · exact release_aside s _ _

/-- What the end of the transfer in a slot comes to before its origin and its berth are told (R122). -/
theorem endSlot_told (s : State) {l : LegNo} {k : Slot} (reason : EndReason) {x : Transfer}
    (hx : (s.leg l).slot k = some x) : ∃ u : State, s.endSlot l k reason = u.tellEnd x reason ∧ Aside s u ∧
      ∀ l' k', (u.leg l').slot k' = if l' = l ∧ k' = k then none else (s.leg l').slot k' := by
  unfold State.endSlot
  split
  · next e => rw [hx] at e; cases e
  next x' e =>
  obtain rfl : x = x' := Option.some.inj (hx.symm.trans e)
  extract_lets old s1 s2 s3 s4 s5
  have h1 : Aside s s1 := ⟨rfl, rfl, rfl, fun _ => rfl, fun _ => rfl⟩
  have h2 : Aside s1 s2 ∧ s2.legs = s1.legs := by
    unfold s2; split
    · exact ⟨dropClaim_aside _ _ _, (dropClaim_untouched _ _ _).1⟩
    · exact ⟨.refl _, rfl⟩
  have h3 : Aside s2 s3 ∧ s3.legs = s2.legs := by
    unfold s3 State.dropBerthClaim; split
    · split
      · exact ⟨.setBerth _ _ _, rfl⟩
      · exact ⟨.refl _, rfl⟩
    · exact ⟨.refl _, rfl⟩
  have h4 : Aside s3 s4 ∧ s4.legs = s3.legs := ⟨endReservation_aside _ _ _, (endReservation_untouched _ _ _).1⟩
  have h5 : Aside s4 s5 ∧ s5.legs = s4.legs :=
    ⟨.foldl (fun u b => .setBin u (Bin.reevaluate_temp _)) _ _,
      (Untouched.foldl (fun u b => ⟨by rfl, by rfl⟩) _ _ : Untouched s4 s5).1⟩
  have h6 := Aside.raiseIf s5 (reason != .complete) (flagAbnormalEnd l)
  have hlegs : (s5.raiseIf (reason != .complete) (flagAbnormalEnd l)).legs = s1.legs := by
    rw [(Untouched.raiseIf s5 _ _).1, h5.2, h4.2, h3.2, h2.2]
  refine ⟨_, rfl, ((((h1.trans h2.1).trans h3.1).trans h4.1).trans h5.1).trans h6, fun l' k' => ?_⟩
  have hleg : (s5.raiseIf (reason != .complete) (flagAbnormalEnd l)).leg l' = s1.leg l' := by
    unfold State.leg; rw [hlegs]
  rw [hleg]
  unfold s1
  rw [State.leg_setLeg]
  by_cases hl : l' = l
  · subst hl
    cases k <;> cases k' <;> simp [Leg.slot, Leg.setSlot, old]
  · simp [hl]

end Aside

/-! ### The ends of a reset -/

/-- What the end of a pass at a reset does to its entry (R141). -/
def Entry.Reset (e f : Entry) : Prop :=
  f = { e with inFlight := f.inFlight, state := f.state } ∧
    (f.state = e.state ∨ e.state = .launched ∧ f.state = .waiting)

/-- What the end of a transfer at a reset does to its berth (R159). -/
def Berth.Reset (b c : Berth) : Prop :=
  c = { b with claim := c.claim, state := c.state } ∧ (c.state = b.state ∨ b.state = .loading ∧ c.state = .halted .reset)

/-- What ends with reason RESET do. -/
structure ResetEnds (s u : State) : Prop where
  next : u.nextTransfer = s.nextTransfer
  temps : ∀ b, (u.bin b).temp = (s.bin b).temp
  enables : ∀ g, (u.group g).enables = (s.group g).enables
  entries : ∀ n, Option.Rel Entry.Reset (s.entry n) (u.entry n)
  berths : ∀ k, (s.berth k).Reset (u.berth k)
  drying : u.dryer.drying = s.dryer.drying
  batch : ∀ b, s.dryer.batch = some b → b.portions ≠ [] → u.dryer.batch = some b
  discharge : s.dryer.discharge = none → u.dryer.discharge = none

theorem Entry.Reset.refl (e : Entry) : e.Reset e := ⟨rfl, .inl rfl⟩

theorem Entry.Reset.trans {e f g : Entry} (h : e.Reset f) (k : f.Reset g) : e.Reset g := by
  obtain ⟨h1, h2⟩ := h
  obtain ⟨k1, k2⟩ := k
  refine ⟨by rw [k1, h1], ?_⟩
  rcases h2 with h2 | ⟨h2, h3⟩
  · rw [← h2]; exact k2
  · rcases k2 with k2 | ⟨k2, -⟩
    · exact .inr ⟨h2, k2.trans h3⟩
    · rw [h3] at k2; cases k2

theorem Berth.Reset.refl (b : Berth) : b.Reset b := ⟨rfl, .inl rfl⟩

theorem Berth.Reset.trans {a b c : Berth} (h : a.Reset b) (k : b.Reset c) : a.Reset c := by
  obtain ⟨h1, h2⟩ := h
  obtain ⟨k1, k2⟩ := k
  refine ⟨by rw [k1, h1], ?_⟩
  rcases h2 with h2 | ⟨h2, h3⟩
  · rw [← h2]; exact k2
  · rcases k2 with k2 | ⟨k2, -⟩
    · exact .inr ⟨h2, k2.trans h3⟩
    · rw [h3] at k2; cases k2

section Ends
variable {s t u : State}

theorem Option.rel_refl {e : Option Entry} : Option.Rel Entry.Reset e e := by
  cases e with
  | none => exact .none
  | some e => exact .some (.refl e)

theorem ResetEnds.refl (s : State) : ResetEnds s s :=
  ⟨rfl, fun _ => rfl, fun _ => rfl, fun _ => Option.rel_refl, fun _ => .refl _, rfl, fun _ h _ => h, id⟩

theorem ResetEnds.trans (h : ResetEnds s t) (k : ResetEnds t u) : ResetEnds s u where
  next := k.next.trans h.next
  temps b := (k.temps b).trans (h.temps b)
  enables g := (k.enables g).trans (h.enables g)
  entries n := by
    have h1 := h.entries n
    have h2 := k.entries n
    cases e1 : s.entry n <;> cases e2 : t.entry n <;> cases e3 : u.entry n <;> rw [e1, e2] at h1 <;> rw [e2, e3] at h2 <;>
      cases h1 <;> cases h2
    · exact .none
    · exact .some (Entry.Reset.trans ‹_› ‹_›)
  berths b := (h.berths b).trans (k.berths b)
  drying := k.drying.trans h.drying
  batch b hb hp := k.batch b (h.batch b hb hp) hp
  discharge hd := k.discharge (h.discharge hd)

/-- The dryer's record after the end of its discharge (R95). -/
theorem dischargeEnd_dryer (s : State) : s.dischargeEnd.dryer.drying = s.dryer.drying ∧
    s.dischargeEnd.dryer.discharge = none ∧
    ∀ b, s.dryer.batch = some b → b.portions ≠ [] → s.dischargeEnd.dryer.batch = some b := by
  unfold State.dischargeEnd
  dsimp only
  split
  · exact ⟨rfl, rfl, fun b hb => by simp_all⟩
  · next b hb =>
    split
    · next hp =>
      refine ⟨?_, ?_, fun c hc hn => absurd hp (by rw [hb] at hc; cases hc; exact hn)⟩
      · show Dryer.drying (if _ then _ else if _ then _ else _) = _
        split
        · rfl
        · split <;> rfl
      · show Dryer.discharge (if _ then _ else if _ then _ else _) = _
        split
        · rfl
        · split <;> rfl
    · exact ⟨rfl, rfl, fun c hc _ => hc⟩

/-- What the end of a transfer at a reset tells its origin. -/
theorem passEnd_reset (s : State) (n m : EntryNo) (x : Transfer) :
    Option.Rel Entry.Reset (s.entry m) ((s.passEnd n .reset x).entry m) := by
  unfold State.passEnd
  split
  · exact Option.rel_refl
  · next e he =>
    split
    · exact Option.rel_refl
    · dsimp only
      rw [State.entry_setEntry]
      split
      · next hm =>
        rw [hm, he]
        refine .some ⟨rfl, ?_⟩
        dsimp only
        split
        · next hl => exact .inr ⟨hl, rfl⟩
        · exact .inl rfl
      · exact Option.rel_refl

/-- A berth told the end of its transfer at a reset. -/
theorem Berth.released_reset (b : Berth) (id : Nat) : b.Reset (b.released id .reset) ∧
    (b.state = .loading → (b.released id .reset).state = .halted .reset) := by
  unfold Berth.released Berth.ended
  cases h : b.state <;> simp [Berth.Reset, h]

theorem completionTest_aside (s : State) (k : BerthNo) : Aside s (s.completionTest k) := by
  unfold State.completionTest
  dsimp only
  split
  · exact (Aside.setBerth s k _).trans (.raise _ _)
  · exact .setBerth s k _

theorem berthEnd_aside (s : State) (k : BerthNo) (reason : EndReason) : Aside s (s.berthEnd k reason) := by
  unfold State.berthEnd
  dsimp only
  split
  · exact .refl s
  · exact .refl s
  · split
    · exact .setBerth s k _
    · exact .setBerth s k _
    · exact completionTest_aside s k
  · split
    · exact .refl s
    · exact completionTest_aside s k

/-- The origin is told at a reset, and then the berth, which leaves the rest alone. -/
theorem tellEnd_reset (s : State) (x : Transfer) : ∃ v : State, Aside v (s.tellEnd x .reset) ∧
    v = match x.origin with
      | .dryer => s.dischargeEnd
      | .schedule e => s.passEnd e .reset x
      | .station _ => s := by
  unfold State.tellEnd
  extract_lets s1
  refine ⟨s1, ?_, rfl⟩
  cases x.berth? with
  | some k => exact berthEnd_aside _ _ _
  | none => exact .refl _

theorem dischargeEnd_rest (s : State) : s.dischargeEnd.nextTransfer = s.nextTransfer ∧
    s.dischargeEnd.schedules = s.schedules ∧ (∀ b, (s.dischargeEnd.bin b).temp = (s.bin b).temp) ∧
    ∀ g, (s.dischargeEnd.group g).enables = (s.group g).enables := by
  unfold State.dischargeEnd
  dsimp only
  split
  · exact ⟨rfl, rfl, fun _ => rfl, fun _ => rfl⟩
  · next b _ =>
    split
    · obtain ⟨h1, -, h3, h4, h5⟩ := release_aside s b.dest .batch
      exact ⟨h3, h1, h4, fun g => (State.enables_raise _ _ g).trans (h5 g)⟩
    · exact ⟨rfl, rfl, fun _ => rfl, fun _ => rfl⟩

theorem passEnd_reset_rest (s : State) (n : EntryNo) (x : Transfer) :
    (s.passEnd n .reset x).nextTransfer = s.nextTransfer ∧ (s.passEnd n .reset x).dryer = s.dryer ∧
      (∀ b, ((s.passEnd n .reset x).bin b).temp = (s.bin b).temp) ∧
      ∀ g, ((s.passEnd n .reset x).group g).enables = (s.group g).enables := by
  unfold State.passEnd
  split
  · exact ⟨rfl, rfl, fun _ => rfl, fun _ => rfl⟩
  · split <;> exact ⟨rfl, rfl, fun _ => rfl, fun _ => rfl⟩

theorem State.entry_congr {s t : State} (h : t.schedules = s.schedules) (n : EntryNo) : t.entry n = s.entry n := by
  unfold State.entry; rw [h]

/-- The end of the transfer in a slot at a reset. -/
theorem endSlot_resets (s : State) (l : LegNo) (k : Slot) : ResetEnds s (s.endSlot l k .reset) := by
  cases hx : (s.leg l).slot k with
  | none => rw [endSlot_empty s _ hx]; exact .refl s
  | some x =>
    obtain ⟨u, he, ha, -⟩ := endSlot_told s .reset hx
    obtain ⟨v, hv, hvx⟩ := tellEnd_reset u x
    have berths (b : BerthNo) : (s.berth b).Reset ((s.endSlot l k .reset).berth b) := by
      rw [(endSlot_effect s .reset hx).2]
      split
      · exact (Berth.released_reset _ _).1
      · exact .refl _
    rw [← he] at hv
    have told : v.nextTransfer = s.nextTransfer ∧ (∀ b, (v.bin b).temp = (s.bin b).temp) ∧
        (∀ g, (v.group g).enables = (s.group g).enables) ∧
        (∀ n, Option.Rel Entry.Reset (s.entry n) (v.entry n)) ∧ v.dryer.drying = s.dryer.drying ∧
        (∀ b, s.dryer.batch = some b → b.portions ≠ [] → v.dryer.batch = some b) ∧
        (s.dryer.discharge = none → v.dryer.discharge = none) := by
      rw [← ha.next, ← ha.dryer]
      split at hvx
      · rw [hvx]
        obtain ⟨h1, h2, h3, h4⟩ := dischargeEnd_rest u
        obtain ⟨d1, d2, d3⟩ := dischargeEnd_dryer u
        exact ⟨h1, fun b => (h3 b).trans (ha.temps b), fun g => (h4 g).trans (ha.enables g), fun n => by
          rw [State.entry_congr (h2.trans ha.schedules)]; exact Option.rel_refl, d1, d3, fun _ => d2⟩
      · next e _ =>
        rw [hvx]
        obtain ⟨h1, h2, h3, h4⟩ := passEnd_reset_rest u e x
        exact ⟨h1, fun b => (h3 b).trans (ha.temps b), fun g => (h4 g).trans (ha.enables g), fun n => by
          rw [← State.entry_congr ha.schedules]; exact passEnd_reset u e n x, by rw [h2], fun b hb _ => by rw [h2]; exact hb,
          fun hd => by rw [h2]; exact hd⟩
      · rw [hvx]
        exact ⟨rfl, ha.temps, ha.enables, fun n => by rw [State.entry_congr ha.schedules]; exact Option.rel_refl, rfl,
          fun _ hb _ => hb, id⟩
    obtain ⟨h1, h2, h0, h3, h4, h5, h6⟩ := told
    exact ⟨hv.next.trans h1, fun b => (hv.temps b).trans (h2 b), fun g => (hv.enables g).trans (h0 g),
      fun n => by rw [State.entry_congr hv.schedules]; exact h3 n,
      berths, by rw [hv.dryer]; exact h4, fun b hb hp => by rw [hv.dryer]; exact h5 b hb hp,
      fun hd => by rw [hv.dryer]; exact h6 hd⟩

/-- The slots after the end of the transfer in one of them. -/
theorem slot_endSlot (s : State) (l : LegNo) (k : Slot) (l' : LegNo) (k' : Slot) :
    ((s.endSlot l k .reset).leg l').slot k' = if l' = l ∧ k' = k then none else (s.leg l').slot k' := by
  cases hx : (s.leg l).slot k with
  | none =>
    rw [endSlot_empty s _ hx]
    split
    · next e => rw [e.1, e.2, hx]
    · rfl
  | some x =>
    obtain ⟨u, he, -, hl⟩ := endSlot_told s .reset hx
    rw [he, ← hl]
    have h7 : (u.tellEnd x .reset).legs = u.legs := by
      unfold State.tellEnd
      extract_lets s7
      have h : Untouched u s7 := by
        unfold s7; split
        · exact dischargeEnd_untouched _
        · exact passEnd_untouched _ _ _ _
        · exact .refl _
      split
      · exact (berthEnd_legs _ _ _).trans h.1
      · exact h.1
    unfold State.leg
    rw [h7]

/-- The ends that a reset makes, as an induction over the slots ended. -/
theorem resetTransfers_induction {P : State → Prop} (step : ∀ s l k, P s → P (s.endSlot l k .reset)) {s : State} (h : P s) :
    P s.resetTransfers := by
  unfold State.resetTransfers
  have hr : ∀ v ∈ s.victims (fun _ => true) .reset, v.reason = .reset := by
    intro v hv
    unfold State.victims at hv
    obtain ⟨l, -, hv⟩ := List.mem_flatMap.1 hv
    obtain ⟨k, -, hv⟩ := List.mem_filterMap.1 hv
    split at hv
    · cases hv; rfl
    · cases hv
  generalize s.victims (fun _ => true) .reset = vs at hr
  induction vs generalizing s with
  | nil => exact h
  | cons v vs ih =>
    have e := hr v List.mem_cons_self
    rw [List.foldl_cons, e]
    exact ih (step s v.leg v.slot h) fun w hw => hr w (List.mem_cons_of_mem _ hw)

theorem resetTransfers_resets (s : State) : ResetEnds s s.resetTransfers :=
  resetTransfers_induction (P := fun u => ResetEnds s u) (fun u l k h => h.trans (endSlot_resets u l k)) (.refl s)

theorem resetTransfers_slot (s : State) (l : LegNo) (k : Slot) : (s.resetTransfers.leg l).slot k = none := by
  have := resetTransfers_holds (s := s) l k
  unfold State.holds at this
  exact Option.map_eq_none_iff.1 this

/-- A berth that a transfer was loading at a reset is halted by it (R159). -/
theorem resetTransfers_loading (s : State) {k : BerthNo} (hl : (s.berth k).state = .loading)
    (hx : ∃ x ∈ s.live, x.dest = .berth k) : (s.resetTransfers.berth k).state = .halted .reset := by
  have key : (∃ l j x, (s.resetTransfers.leg l).slot j = some x ∧ x.berth? = some k ∧
      (s.resetTransfers.berth k).state = .loading) ∨ (s.resetTransfers.berth k).state = .halted .reset := by
    refine resetTransfers_induction (P := fun u => (∃ l j x, (u.leg l).slot j = some x ∧ x.berth? = some k ∧
      (u.berth k).state = .loading) ∨ (u.berth k).state = .halted .reset) (fun u l j h => ?_) ?_
    · rcases h with ⟨l', j', x, hx, hk, hu⟩ | h
      · by_cases he : l' = l ∧ j' = j
        · obtain ⟨rfl, rfl⟩ := he
          rw [(endSlot_effect u .reset hx).2, if_pos hk]
          exact .inr ((Berth.released_reset _ _).2 hu)
        · rcases (endSlot_resets u l j).berths k with ⟨-, e | ⟨-, e⟩⟩
          · exact .inl ⟨l', j', x, by rw [slot_endSlot, if_neg he]; exact hx, hk, e.trans hu⟩
          · exact .inr e
      · rcases (endSlot_resets u l j).berths k with ⟨-, e | ⟨e, -⟩⟩
        · exact .inr (e.trans h)
        · rw [h] at e; cases e
    · obtain ⟨x, hx, hd⟩ := hx
      obtain ⟨l, j, hs⟩ := (State.mem_live s).1 hx
      exact .inl ⟨l, j, x, hs, by unfold Transfer.berth?; rw [hd], hl⟩
  rcases key with ⟨l, j, x, hx, -⟩ | h
  · rw [resetTransfers_slot] at hx; cases hx
  · exact h

/-- A transfer of other origin leaves the dryer alone. -/
theorem endSlot_dryer (s : State) {l : LegNo} {k : Slot} {x : Transfer} (hx : (s.leg l).slot k = some x)
    (ho : x.origin ≠ .dryer) : (s.endSlot l k .reset).dryer = s.dryer := by
  obtain ⟨u, he, ha, -⟩ := endSlot_told s .reset hx
  obtain ⟨v, hv, hvx⟩ := tellEnd_reset u x
  rw [he, hv.dryer, ← ha.dryer, hvx]
  split
  · next e => exact absurd e ho
  · exact (passEnd_reset_rest u _ x).2.1
  · rfl

theorem endSlot_discharge (s : State) {l : LegNo} {k : Slot} {x : Transfer} (hx : (s.leg l).slot k = some x)
    (ho : x.origin = .dryer) : (s.endSlot l k .reset).dryer.discharge = none := by
  obtain ⟨u, he, -, -⟩ := endSlot_told s .reset hx
  obtain ⟨v, hv, hvx⟩ := tellEnd_reset u x
  rw [ho] at hvx
  rw [he, hv.dryer, hvx]
  exact (dischargeEnd_dryer u).2.1

/-- With no transfer of the dryer's live, a reset leaves the batch. -/
theorem resetTransfers_dryer (s : State) (h : ∀ x ∈ s.live, x.origin ≠ .dryer) : s.resetTransfers.dryer = s.dryer :=
  (resetTransfers_induction (P := fun u => (∀ l k x, (u.leg l).slot k = some x → x.origin ≠ .dryer) ∧ u.dryer = s.dryer)
    (fun u l k ⟨h1, h2⟩ => by
      refine ⟨fun l' k' x hx => ?_, ?_⟩
      · rw [slot_endSlot] at hx
        split at hx
        · cases hx
        · exact h1 l' k' x hx
      · cases hx : (u.leg l).slot k with
        | none => rw [endSlot_empty u _ hx]; exact h2
        | some x => rw [endSlot_dryer u hx (h1 l k x hx)]; exact h2)
    ⟨fun l k x hx => h x ((State.mem_live s).2 ⟨l, k, hx⟩), rfl⟩).2

/-- When the dryer has the id of a live transfer of its own, a reset takes it (R95, R102). -/
theorem resetTransfers_discharge (s : State) (h : DischargeLaw s) : s.resetTransfers.dryer.discharge = none := by
  have key : s.resetTransfers.dryer.discharge = none ∨
      ∃ l k x, (s.resetTransfers.leg l).slot k = some x ∧ x.origin = .dryer := by
    refine resetTransfers_induction (P := fun u => u.dryer.discharge = none ∨
      ∃ l k x, (u.leg l).slot k = some x ∧ x.origin = .dryer) (fun u l k hu => ?_) ?_
    · rcases hu with hu | ⟨l', k', x, hx, ho⟩
      · exact .inl ((endSlot_resets u l k).discharge hu)
      · by_cases he : l' = l ∧ k' = k
        · obtain ⟨rfl, rfl⟩ := he
          exact .inl (endSlot_discharge u hx ho)
        · exact .inr ⟨l', k', x, by rw [slot_endSlot, if_neg he]; exact hx, ho⟩
    · cases hd : s.dryer.discharge with
      | none => exact .inl rfl
      | some id =>
        obtain ⟨x, hx, hid⟩ := h.live id hd
        obtain ⟨l, k, hs⟩ := (State.mem_live s).1 hx
        exact .inr ⟨l, k, x, hs, (h.named x hx).2 (hd.trans (congrArg some hid.symm))⟩
  rcases key with h | ⟨l, k, x, hx, -⟩
  · exact h
  · rw [resetTransfers_slot] at hx; cases hx

end Ends

end Sys2Proof.Machine
end

section
/-! PROOFS. The records of a warm start as its run begins: the settings loaded, the transfers ended, and every block's own
rule applied (R21, R45, R83, R102, R130, R145, R169, R187, R190, R193). -/

namespace Sys2Proof.Machine

section Start
variable (s : State) (p : Pins)

/-- Stages 1 and 2: a commit abandoned, and the settings loaded. -/
def State.loadedUp (s : State) : State := s.abandonCommit.loadSettings

/-- The machine as stage 6 of a warm start finds it. -/
def State.atStart (p : Pins) (s : State) : State :=
  (((s.loadedUp.warmRecords p).beginRun .warm).clearAllFlags.raise flagStartWarm).raiseIf
    (s.loadedUp.warmRecords p).defaulted flagSettingsDefaulted

theorem abandonCommit_frame : s.abandonCommit = { s with
    commit := .idle, bank0 := s.abandonCommit.bank0, bank1 := s.abandonCommit.bank1
    freeCount := s.abandonCommit.freeCount } := by
  unfold State.abandonCommit
  split
  · next h => rw [← h]
  · dsimp only
    split
    · rw [State.setBank_frame]
    · rfl

theorem loadSettings_frame : s.loadSettings = { s with
    settings := s.loadSettings.settings, currentBank := s.loadSettings.currentBank
    defaulted := s.loadSettings.defaulted } := by
  unfold State.loadSettings; split <;> rfl

theorem loadedUp_frame : s.loadedUp = { s with
    commit := .idle, bank0 := s.loadedUp.bank0, bank1 := s.loadedUp.bank1, freeCount := s.loadedUp.freeCount
    settings := s.loadedUp.settings, currentBank := s.loadedUp.currentBank, defaulted := s.loadedUp.defaulted } := by
  unfold State.loadedUp
  rw [loadSettings_frame, abandonCommit_frame]

/-- The settings of a start that abandons no commit (R190). -/
theorem loadedUp_settings (h : s.commit = .idle) : s.loadedUp.settings = match chooseBank s.bank0 s.bank1 with
    | some b => (s.bank b).image.loaded
    | none => Settings.factory := by
  have : s.abandonCommit = s := by unfold State.abandonCommit; rw [h]
  unfold State.loadedUp State.loadSettings
  rw [this]
  cases chooseBank s.bank0 s.bank1 <;> rfl

theorem recomputeLimit_frame (k : BerthNo) : s.recomputeLimit k = { s with
    berths := (s.recomputeLimit k).berths, events := (s.recomputeLimit k).events } := by
  unfold State.recomputeLimit
  dsimp only
  split
  · rfl
  · split
    · split
      · rfl
      · split <;> rfl
    · rfl

theorem foldl_recomputeLimit_frame (ks : List BerthNo) : ks.foldl (fun t k => t.recomputeLimit k) s = { s with
    berths := (ks.foldl (fun t k => t.recomputeLimit k) s).berths
    events := (ks.foldl (fun t k => t.recomputeLimit k) s).events } := by
  induction ks generalizing s with
  | nil => rfl
  | cons k ks ih => rw [List.foldl_cons, ih, recomputeLimit_frame]

theorem readLines_frame : s.readLines p = { s with
    estop := p.estop, resetLine := p.reset, backupLost := p.backupLost, berths := (s.readLines p).berths } := rfl

/-- Stage 3 of a warm start, record by record. -/
theorem warmRecords_frame : s.warmRecords p = { s with
    lots := s.lots.map (Lot.sizeCheck s.settings.lotSize), tickets := s.tickets.map s.carryTicket
    channels := Vector.replicate 3 Channel.started, bins := s.resetTransfers.bins.map s.carryTemp
    dryer := (s.resetTransfers.warmDryer s.dryer).dryer, legs := s.resetTransfers.legs.map Leg.warm
    nextTransfer := s.nextTransfer, schedules := s.resetTransfers.schedules, berths := (s.warmRecords p).berths
    river := s.river.warm, events := (s.warmRecords p).events, estop := p.estop, resetLine := p.reset
    backupLost := p.backupLost } := by
  have hn := (resetTransfers_resets s).next
  have hq := (resetTransfers_quiet s).frame
  generalize hw : s.warmRecords p = w
  unfold State.warmRecords at hw
  generalize s.resetTransfers = r at hq hn hw ⊢
  obtain ⟨bins, legs, berths, schedules, dryer, events, next, rfl⟩ :
      ∃ bins legs berths schedules dryer events next, r = { s with
        bins := bins, legs := legs, berths := berths, schedules := schedules, dryer := dryer, events := events
        nextTransfer := next } := ⟨_, _, _, _, _, _, _, hq⟩
  obtain rfl : next = s.nextTransfer := hn
  extract_lets s1 sized s2 at hw
  have hf := foldl_recomputeLimit_frame (s2.readLines p) allBerths
  have ht : s1.carryTicket = s.carryTicket := by funext x; unfold State.carryTicket; rfl
  have hb : s1.carryTemp = s.carryTemp := by funext x; unfold State.carryTemp State.carriedStale; rfl
  rw [hw] at hf
  unfold s2 at hf
  rw [ht, hb] at hf
  rw [readLines_frame] at hf
  exact hf

/-- The machine as the run begins, record by record (R193). -/
theorem atStart_frame : s.atStart p = { s with
    powered := true, startKind := .warm, timebase := 0, commit := .idle, commitResult := none, receiver := .hunting
    response := none, resetPending := false, settings := s.loadedUp.settings, bank0 := s.loadedUp.bank0
    bank1 := s.loadedUp.bank1, freeCount := s.loadedUp.freeCount, currentBank := s.loadedUp.currentBank
    defaulted := s.loadedUp.defaulted, lots := s.lots.map (Lot.sizeCheck s.loadedUp.settings.lotSize)
    tickets := s.tickets.map s.carryTicket, channels := Vector.replicate 3 Channel.started
    bins := s.loadedUp.resetTransfers.bins.map s.loadedUp.carryTemp
    dryer := (s.loadedUp.resetTransfers.warmDryer s.dryer).dryer
    legs := s.loadedUp.resetTransfers.legs.map Leg.warm, schedules := s.loadedUp.resetTransfers.schedules
    berths := (s.loadedUp.warmRecords p).berths, river := s.river.warm, events := (s.atStart p).events
    estop := p.estop, resetLine := p.reset, backupLost := p.backupLost } := by
  have hr := warmRecords_frame s.loadedUp p
  have hl := loadedUp_frame s
  have ht : s.loadedUp.carryTicket = s.carryTicket := by
    rw [hl]; funext x; unfold State.carryTicket; rfl
  have hf : s.atStart p = { (s.loadedUp.warmRecords p).beginRun .warm with events := (s.atStart p).events } := by
    unfold State.atStart
    rw [raiseIf_frame]
    rfl
  rw [ht] at hr
  generalize s.atStart p = v at hf ⊢
  generalize s.loadedUp.warmRecords p = w at hr hf ⊢
  obtain ⟨berths, events, rfl⟩ : ∃ berths events, w = { s.loadedUp with
      lots := s.loadedUp.lots.map (Lot.sizeCheck s.loadedUp.settings.lotSize)
      tickets := s.loadedUp.tickets.map s.carryTicket, channels := Vector.replicate 3 Channel.started
      bins := s.loadedUp.resetTransfers.bins.map s.loadedUp.carryTemp
      dryer := (s.loadedUp.resetTransfers.warmDryer s.loadedUp.dryer).dryer
      legs := s.loadedUp.resetTransfers.legs.map Leg.warm, nextTransfer := s.loadedUp.nextTransfer
      schedules := s.loadedUp.resetTransfers.schedules, berths := berths, river := s.loadedUp.river.warm
      events := events, estop := p.estop, resetLine := p.reset, backupLost := p.backupLost } := ⟨_, _, hr⟩
  clear hr ht
  generalize s.loadedUp.resetTransfers = r at hf ⊢
  generalize s.loadedUp.carryTemp = g at hf ⊢
  generalize s.loadedUp = u at hl hf ⊢
  obtain ⟨bank0, bank1, count, settings, bank, defaulted, rfl⟩ : ∃ bank0 bank1 count settings bank defaulted, u = { s with
      commit := .idle, bank0 := bank0, bank1 := bank1, freeCount := count, settings := settings, currentBank := bank
      defaulted := defaulted } := ⟨_, _, _, _, _, _, hl⟩
  exact hf

theorem atStart_bin (b : BinNo) : (s.atStart p).bin b = s.loadedUp.carryTemp (s.loadedUp.resetTransfers.bin b) := by
  unfold State.bin
  rw [atStart_frame]
  simp [Vector.get]

theorem atStart_entry (n : EntryNo) : (s.atStart p).entry n = s.loadedUp.resetTransfers.entry n := by
  unfold State.entry
  rw [atStart_frame]

theorem atStart_leg (l : LegNo) : (s.atStart p).leg l = (s.loadedUp.resetTransfers.leg l).warm := by
  unfold State.leg
  rw [atStart_frame]
  simp [Vector.get]

theorem atStart_flag (f : Flag) : (s.atStart p).flag f =
    (s.loadedUp.defaulted && decide (f = flagSettingsDefaulted) || decide (f = flagStartWarm)) := by
  have hc (u : State) : u.clearAllFlags.flag f = false := by
    unfold State.flag State.group State.clearAllFlags
    simp [Vector.get]
  have hd : (s.loadedUp.warmRecords p).defaulted = s.loadedUp.defaulted := by rw [warmRecords_frame]
  unfold State.atStart
  rw [State.flag_raiseIf, State.flag_raise, hc, hd, Bool.or_false]

theorem State.enables_raiseIf (s : State) (c : Bool) (f : Flag) (g : Fin 11) :
    ((s.raiseIf c f).group g).enables = (s.group g).enables := by
  unfold State.raiseIf
  split
  · exact State.enables_raise s f g
  · rfl

theorem recomputeLimit_aside (k : BerthNo) : Aside s (s.recomputeLimit k) := by
  unfold State.recomputeLimit
  dsimp only
  split
  · exact .refl s
  · next g _ =>
    split
    · split
      · exact .setBerth s k _
      · have h := (Aside.setBerth s k { s.berth k with
          loadLimit := loadLimitOf s.settings.river s.river g, overLimit := true }).trans (.raise _ (flagOverdraft k))
        split
        · exact h.trans (.setBerth _ k _)
        · exact h.trans (.setBerth _ k _)
    · exact .setBerth s k _

/-- The enables of the event groups stand (R187). -/
theorem atStart_enables (g : Fin 11) : ((s.atStart p).group g).enables = (s.group g).enables := by
  have hc (u : State) : (u.clearAllFlags.group g).enables = (u.group g).enables := by
    unfold State.group State.clearAllFlags
    simp [Vector.get]; rfl
  have hw (u : State) : ((u.warmRecords p).group g).enables = (u.resetTransfers.group g).enables := by
    unfold State.warmRecords
    generalize u.resetTransfers = v
    extract_lets s1 sized s2
    have he : (s2.readLines p).events = v.events := by rw [readLines_frame]; rfl
    have hf := (Aside.foldl (f := fun t k => t.recomputeLimit k) (fun t k => recomputeLimit_aside t k) allBerths
      (s2.readLines p)).enables g
    rw [hf]
    unfold State.group
    rw [he]
  have hl : s.loadedUp.group g = s.group g := by rw [loadedUp_frame]; rfl
  calc ((s.atStart p).group g).enables
      = (((s.loadedUp.warmRecords p).beginRun .warm).clearAllFlags.group g).enables := by
        unfold State.atStart
        rw [State.enables_raiseIf, State.enables_raise]
    _ = ((s.loadedUp.warmRecords p).group g).enables := hc _
    _ = (s.loadedUp.resetTransfers.group g).enables := hw _
    _ = (s.loadedUp.group g).enables := (resetTransfers_resets _).enables g
    _ = (s.group g).enables := by rw [hl]

theorem warmRecords_berth (k : BerthNo) : (s.warmRecords p).berth k =
    Berth.relimited s.settings.river s.river.warm { (s.resetTransfers.berth k).warm with
      present := if k = 0 then p.presentA else p.presentB, moored := if k = 0 then p.mooredA else p.mooredB
      button := if k = 0 then p.buttonA else p.buttonB } := by
  have hq := (resetTransfers_quiet s).frame
  unfold State.warmRecords
  extract_lets s1 sized s2
  have hberth : s2.berth k = (s.resetTransfers.berth k).warm := by 
    simp [s2, s1, State.berth, Vector.get, State.warmDryer, State.setDryer]; rfl
  have hset : s2.settings = s.settings := by show s.resetTransfers.settings = _; rw [hq]
  have hriv : s2.river = s.river.warm := by show s.resetTransfers.river.warm = _; rw [hq]
  rw [berth_relimited, berth_readLines, hberth]
  show Berth.relimited s2.settings.river s2.river _ = _
  rw [hset, hriv]

end Start

end Sys2Proof.Machine
end

section
/-! PROOFS. What the expiry of a ticket can change, from any state (R78, R79, R80). -/

namespace Sys2Proof.Machine

/-- The flags that an expiry can set: its own, and those of the close it makes. -/
def expiryFlags : List Flag := [flagTicketExpired, flagHeldDeposit, flagOverfull]

/-- What expiries leave alone. -/
structure Expiry (s u : State) : Prop where
  frame : u = { s with lots := u.lots, bins := u.bins, tickets := u.tickets, vehicles := u.vehicles, events := u.events
                       lastExpired := u.lastExpired }
  bins : ∀ b, (u.bin b).hold = (s.bin b).hold ∧ (u.bin b).temp = (s.bin b).temp
  vehicles : u.vehicles.map (fun v => (v.tag, v.tare)) = s.vehicles.map fun v => (v.tag, v.tare)
  lots : u.lots.map (fun m => (m.no, m.shipped, m.waterLoss, m.hold)) =
    s.lots.map fun m => (m.no, m.shipped, m.waterLoss, m.hold)
  kept : ∀ f, s.flag f = true → u.flag f = true
  raised : ∀ f, u.flag f = true → s.flag f = true ∨ f ∈ expiryFlags
  enables : ∀ g, (u.group g).enables = (s.group g).enables

section Expiry
variable {s t u : State}

theorem Expiry.refl (s : State) : Expiry s s :=
  ⟨rfl, fun _ => ⟨rfl, rfl⟩, rfl, rfl, fun _ h => h, fun _ h => .inl h, fun _ => rfl⟩

theorem Expiry.trans (h : Expiry s t) (k : Expiry t u) : Expiry s u where
  frame := k.frame.trans (congrArg (fun x : State => { x with
    lots := u.lots, bins := u.bins, tickets := u.tickets, vehicles := u.vehicles, events := u.events
    lastExpired := u.lastExpired }) h.frame)
  bins b := ⟨(k.bins b).1.trans (h.bins b).1, (k.bins b).2.trans (h.bins b).2⟩
  vehicles := k.vehicles.trans h.vehicles
  lots := k.lots.trans h.lots
  kept f hf := k.kept f (h.kept f hf)
  raised f hf := (k.raised f hf).elim (h.raised f) .inr
  enables g := (k.enables g).trans (h.enables g)

theorem Expiry.raise (s : State) {f : Flag} (hf : f ∈ expiryFlags) : Expiry s (s.raise f) where
  frame := rfl
  bins _ := ⟨rfl, rfl⟩
  vehicles := rfl
  lots := rfl
  kept g h := by rw [State.flag_raise, h, Bool.or_true]
  raised g h := by
    rw [State.flag_raise, Bool.or_eq_true, decide_eq_true_iff] at h
    rcases h with rfl | h
    · exact .inr hf
    · exact .inl h
  enables := State.enables_raise s f

theorem Expiry.raiseIf (s : State) (c : Bool) {f : Flag} (hf : f ∈ expiryFlags) : Expiry s (s.raiseIf c f) := by
  unfold State.raiseIf; split
  · exact .raise s hf
  · exact .refl s

theorem Expiry.setBin (s : State) {b : BinNo} {x : Bin} (hh : x.hold = (s.bin b).hold) (ht : x.temp = (s.bin b).temp) :
    Expiry s (s.setBin b x) where
  frame := rfl
  bins c := by
    rw [State.bin_setBin]; split
    · next e => subst e; exact ⟨hh, ht⟩
    · exact ⟨rfl, rfl⟩
  vehicles := rfl
  lots := rfl
  kept _ h := h
  raised _ h := .inl h
  enables _ := rfl

theorem Expiry.modLot (s : State) (n : Nat) {f : Lot → Lot} (hf : ∀ m, ((f m).no, (f m).shipped, (f m).waterLoss, (f m).hold) =
    (m.no, m.shipped, m.waterLoss, m.hold)) : Expiry s (s.modLot n f) where
  frame := rfl
  bins _ := ⟨rfl, rfl⟩
  vehicles := rfl
  lots := by
    unfold State.modLot
    rw [List.map_map]
    refine List.map_congr_left fun m _ => ?_
    show ((if m.no = n then f m else m).no, _) = _
    dsimp only [Function.comp]
    split
    · exact hf m
    · rfl
  kept _ h := h
  raised _ h := .inl h
  enables _ := rfl

theorem removeTicket_expiry (s : State) (t : Ticket) : Expiry s (s.removeTicket t) where
  frame := rfl
  bins _ := ⟨rfl, rfl⟩
  vehicles := by
    unfold State.removeTicket State.modVehicle
    rw [List.map_map]
    refine List.map_congr_left fun v _ => ?_
    dsimp only [Function.comp]
    split <;> rfl
  lots := rfl
  kept _ h := h
  raised _ h := .inl h
  enables _ := rfl

theorem Expiry.setLastExpired (s : State) (r : Option Settlement) : Expiry s { s with lastExpired := r } :=
  ⟨rfl, fun _ => ⟨rfl, rfl⟩, rfl, rfl, fun _ h => h, fun _ h => .inl h, fun _ => rfl⟩

theorem Bin.reevaluate_hold (x : Bin) : x.reevaluate.hold = x.hold := by unfold Bin.reevaluate; split <;> rfl

theorem release_expiry (s : State) (b : BinNo) (who : HolderRef) : Expiry s (s.release b who) :=
  .setBin s (Bin.reevaluate_hold _) (Bin.reevaluate_temp _)

theorem Lot.sizeCheck_kept (size : Nat) (m : Lot) :
    ((m.sizeCheck size).no, (m.sizeCheck size).shipped, (m.sizeCheck size).waterLoss, (m.sizeCheck size).hold) =
      (m.no, m.shipped, m.waterLoss, m.hold) := by
  unfold Lot.sizeCheck; split <;> rfl

theorem deposit_expiry {b : BinNo} {who : HolderRef} {p : Portion} {fromTop : Bool}
    (h : s.deposit b who p fromTop = some u) : Expiry s u := by
  have ho : flagOverfull ∈ expiryFlags := by decide
  rcases deposit_cases s h with ⟨rest, top, -, -, -, rfl⟩ | ⟨h, -, -, rfl⟩
  · exact (Expiry.setBin s (by rfl) (by rfl)).trans (.raiseIf _ _ ho)
  · exact ((Expiry.setBin s (by rfl) (by rfl)).trans (.modLot _ _ fun m => by rfl)).trans (.raiseIf _ _ ho)

theorem closeTicket_expiry (s : State) (t : Ticket) (tare : Nat) : Expiry s (s.closeTicket t tare) := by
  unfold State.closeTicket
  split
  · exact removeTicket_expiry s t
  · next a _ =>
    extract_lets net grain who s1 s2
    have h1 : Expiry s s1 := by
      unfold s1
      split
      · exact .refl s
      · split
        · next h => exact (deposit_expiry h).trans (.raiseIf _ _ (by decide))
        · exact .refl s
    have h2 : Expiry s s2 := h1.trans (.modLot _ _ fun m => Lot.sizeCheck_kept _ _)
    exact (h2.trans (release_expiry _ _ _)).trans (removeTicket_expiry _ _)

theorem voidTicket_expiry (s : State) (t : Ticket) : Expiry s (s.voidTicket t) := by
  unfold State.voidTicket
  extract_lets s1
  have h1 : Expiry s s1 := by
    unfold s1
    split
    · exact .refl s
    · exact (release_expiry s _ _).trans (.modLot _ _ fun m => by rfl)
  exact h1.trans (removeTicket_expiry _ _)

theorem expireTicket_expiry (s : State) (t : Ticket) :
    Expiry s (s.expireTicket t) ∧ (s.expireTicket t).flag flagTicketExpired = true := by
  unfold State.expireTicket
  extract_lets tare closed old s1
  have h1 : Expiry s s1 := by
    unfold s1
    split
    · exact (closeTicket_expiry s t _).trans (.setLastExpired _ _)
    · exact (voidTicket_expiry s t).trans (.setLastExpired _ _)
  exact ⟨h1.trans (.raise _ (f := flagTicketExpired) (by decide)), by rw [State.flag_raise]; simp⟩

theorem foldl_expire_expiry (ts : List Ticket) (s : State) : Expiry s (ts.foldl (fun u t => u.expireTicket t) s) ∧
    (ts ≠ [] → (ts.foldl (fun u t => u.expireTicket t) s).flag flagTicketExpired = true) := by
  induction ts generalizing s with
  | nil => exact ⟨.refl s, fun h => absurd rfl h⟩
  | cons t ts ih =>
    obtain ⟨h, hf⟩ := expireTicket_expiry s t
    obtain ⟨k, -⟩ := ih (s.expireTicket t)
    exact ⟨h.trans k, fun _ => k.kept _ hf⟩

theorem expireOverdue_expiry (s : State) : Expiry s s.expireOverdue := (foldl_expire_expiry _ s).1

/-- TICKET_EXPIRED is set by an expiry (R79). -/
theorem expireOverdue_flag {t : Ticket} (ht : t ∈ s.tickets) (ho : s.overdue t = true) :
    s.expireOverdue.flag flagTicketExpired = true :=
  (foldl_expire_expiry _ s).2 (List.ne_nil_of_mem (List.mem_filter.2 ⟨ht, ho⟩))

/-- With no ticket overdue nothing expires. -/
theorem expireOverdue_none (h : ∀ t ∈ s.tickets, s.overdue t = false) : s.expireOverdue = s := by
  unfold State.expireOverdue
  rw [List.filter_eq_nil_iff.2 fun t ht => by rw [h t ht]; exact Bool.false_ne_true]
  rfl

theorem foldl_expire_tickets (ts : List Ticket) (s : State) : (ts.foldl (fun u t => u.expireTicket t) s).tickets =
    s.tickets.filter fun u => decide (u.number ∉ ts.map Ticket.number) := by
  induction ts generalizing s with
  | nil => simp
  | cons t ts ih =>
    rw [List.foldl_cons, ih, expireTicket_tickets, List.filter_filter]
    refine List.filter_congr fun u _ => ?_
    by_cases e : u.number = t.number <;> simp [e]

/-- The tickets left by the expiries are those not overdue (R79). -/
theorem expireOverdue_tickets (h : TableLaw s) : s.expireOverdue.tickets = s.tickets.filter fun t => !s.overdue t := by
  unfold State.expireOverdue
  rw [foldl_expire_tickets]
  refine List.filter_congr fun u hu => ?_
  have hm : u.number ∈ (s.tickets.filter s.overdue).map Ticket.number ↔ s.overdue u = true := by
    rw [List.mem_map]
    constructor
    · rintro ⟨t, ht, e⟩
      obtain ⟨ht, ho⟩ := List.mem_filter.1 ht
      rwa [← h.ticket_unique ht hu e]
    · exact fun ho => ⟨u, List.mem_filter.2 ⟨hu, ho⟩, rfl⟩
  simp only [hm]
  cases s.overdue u <;> rfl

end Expiry

end Sys2Proof.Machine
end

section
/-! PROOFS. What the examination of the schedules can change, from any state (R136, R138, R140). -/

namespace Sys2Proof.Machine

/-- What an examination does to an entry: the entry as it was set stands, and an ENDED entry stays ENDED. -/
def Entry.Examined (e f : Entry) : Prop :=
  f = { e with state := f.state, reason := f.reason, inFlight := f.inFlight } ∧ (e.state = .ended → f.state = .ended)

/-- An entry has come to its end between two states. -/
def NewlyEnded (s u : State) : Prop :=
  ∃ n e f, s.entry n = some e ∧ u.entry n = some f ∧ e.state ≠ .ended ∧ f.state = .ended

/-- What an examination leaves alone, and what its SCHEDULE_ENDED says. -/
structure Examined (s u : State) : Prop extends Quiet s u where
  dryer : u.dryer = s.dryer
  berths_eq : u.berths = s.berths
  temps : ∀ b, (u.bin b).temp = (s.bin b).temp
  enables : ∀ g, (u.group g).enables = (s.group g).enables
  flags : ∀ f, f ≠ flagScheduleEnded → u.flag f = s.flag f
  slots : ∀ l k, (u.leg l).slot k = (s.leg l).slot k ∨ ∃ x, (u.leg l).slot k = some x ∧ ∃ e, x.origin = .schedule e
  stagings : ∀ l, (u.leg l).staging = (s.leg l).staging
  carried : ∀ l, (u.leg l).empty = true → (s.leg l).empty = true ∧ (u.leg l).lastCarried = (s.leg l).lastCarried
  entries : ∀ n, Option.Rel Entry.Examined (s.entry n) (u.entry n)
  ended : u.flag flagScheduleEnded = true ↔ s.flag flagScheduleEnded = true ∨ NewlyEnded s u

section Examined
variable {s t u : State}

theorem Entry.Examined.refl (e : Entry) : e.Examined e := ⟨rfl, id⟩

theorem Entry.Examined.trans {e f g : Entry} (h : e.Examined f) (k : f.Examined g) : e.Examined g :=
  ⟨by rw [k.1, h.1], fun he => k.2 (h.2 he)⟩

theorem Option.rel_examined_refl (e : Option Entry) : Option.Rel Entry.Examined e e := by
  cases e with
  | none => exact .none
  | some e => exact .some (.refl e)

theorem Option.rel_examined_trans {e f g : Option Entry} (h : Option.Rel Entry.Examined e f)
    (k : Option.Rel Entry.Examined f g) : Option.Rel Entry.Examined e g := by
  cases h with
  | none => cases k; exact .none
  | some h => cases k with
    | some k => exact .some (h.trans k)

theorem newlyEnded_of_eq (h : ∀ n, u.entry n = s.entry n) : ¬ NewlyEnded s u := by
  rintro ⟨n, e, f, he, hf, h1, h2⟩
  rw [h, he] at hf
  cases hf
  exact h1 h2

/-- An entry that has ended between two states has ended on the one or the other side of a state between them. -/
theorem newlyEnded_trans (h : ∀ n, Option.Rel Entry.Examined (s.entry n) (t.entry n))
    (k : ∀ n, Option.Rel Entry.Examined (t.entry n) (u.entry n)) :
    NewlyEnded s u ↔ NewlyEnded s t ∨ NewlyEnded t u := by
  constructor
  · rintro ⟨n, e, g, he, hg, h1, h2⟩
    have hn := h n
    have kn := k n
    rw [he] at hn
    rw [hg] at kn
    cases ht : t.entry n with
    | none => rw [ht] at hn; cases hn
    | some f =>
      by_cases hf : f.state = .ended
      · exact .inl ⟨n, e, f, he, ht, h1, hf⟩
      · exact .inr ⟨n, f, g, ht, hg, hf, h2⟩
  · rintro (⟨n, e, f, he, hf, h1, h2⟩ | ⟨n, f, g, hf, hg, h1, h2⟩)
    · have kn := k n
      rw [hf] at kn
      cases hg : u.entry n with
      | none => rw [hg] at kn; cases kn
      | some g =>
        rw [hg] at kn
        cases kn with
        | some kn => exact ⟨n, e, g, he, hg, h1, kn.2 h2⟩
    · have hn := h n
      rw [hf] at hn
      cases he : s.entry n with
      | none => rw [he] at hn; cases hn
      | some e =>
        rw [he] at hn
        cases hn with
        | some hn => exact ⟨n, e, g, he, hg, fun hx => h1 (hn.2 hx), h2⟩

theorem Examined.trans (h : Examined s t) (k : Examined t u) : Examined s u where
  toQuiet := h.toQuiet.trans k.toQuiet
  dryer := k.dryer.trans h.dryer
  berths_eq := k.berths_eq.trans h.berths_eq
  temps b := (k.temps b).trans (h.temps b)
  enables g := (k.enables g).trans (h.enables g)
  flags f hf := (k.flags f hf).trans (h.flags f hf)
  slots l j := by
    rcases k.slots l j with e | e
    · rw [e]; exact h.slots l j
    · exact .inr e
  stagings l := (k.stagings l).trans (h.stagings l)
  carried l hu := by
    obtain ⟨ht, ec⟩ := k.carried l hu
    obtain ⟨hs, ed⟩ := h.carried l ht
    exact ⟨hs, ec.trans ed⟩
  entries n := Option.rel_examined_trans (h.entries n) (k.entries n)
  ended := by rw [k.ended, h.ended, newlyEnded_trans h.entries k.entries, or_assoc]

/-- A change of bins and of the transfer counter alone. -/
theorem Examined.ofBins (hq : Quiet s u) (hf : u = { s with bins := u.bins, nextTransfer := u.nextTransfer })
    (ht : ∀ b, (u.bin b).temp = (s.bin b).temp) : Examined s u := by
  have hl (l : LegNo) : u.leg l = s.leg l := by rw [hf]; rfl
  have he (n : EntryNo) : u.entry n = s.entry n := by rw [hf]; rfl
  have hg (g : Fin 11) : u.group g = s.group g := by rw [hf]; rfl
  have hx (f : Flag) : u.flag f = s.flag f := State.flag_congr (by rw [hf]) f
  exact ⟨hq, by rw [hf], by rw [hf], ht, fun g => by rw [hg], fun f _ => hx f, fun l k => .inl (by rw [hl]),
    fun l => by rw [hl], fun l h => by rw [hl] at h ⊢; exact ⟨h, rfl⟩,
    fun n => by rw [he]; exact Option.rel_examined_refl _,
    by rw [hx]; exact (or_iff_left (newlyEnded_of_eq he)).symm⟩

theorem Examined.refl (s : State) : Examined s s := .ofBins (.refl s) rfl fun _ => rfl

/-- A pass that enters a slot of a leg. -/
theorem Examined.setLeg (s : State) {l : LegNo} {y : Leg} {j : Slot} {x : Transfer} {e : EntryNo} (ho : x.origin = .schedule e)
    (hj : y.slot j = some x) (hk : ∀ k, k ≠ j → y.slot k = (s.leg l).slot k) (hs : y.staging = (s.leg l).staging) :
    Examined s (s.setLeg l y) where
  toQuiet := .setLeg s l y
  dryer := rfl
  berths_eq := rfl
  temps _ := rfl
  enables _ := rfl
  flags _ _ := rfl
  slots m k := by
    rw [State.leg_setLeg]
    by_cases hm : m = l
    · rw [if_pos hm, hm]
      by_cases hkj : k = j
      · rw [hkj]; exact .inr ⟨x, hj, e, ho⟩
      · exact .inl (hk k hkj)
    · rw [if_neg hm]; exact .inl rfl
  stagings m := by
    rw [State.leg_setLeg]; split
    · next hm => rw [hm, hs]
    · rfl
  carried m hm := by
    rw [State.leg_setLeg] at hm ⊢
    split at hm
    · have hn : y.empty = false := by
        unfold Leg.empty
        cases j <;> simp only [Leg.slot] at hj <;> rw [hj] <;> simp
      rw [hn] at hm
      cases hm
    · next hne => rw [if_neg hne]; exact ⟨hm, rfl⟩
  entries _ := Option.rel_examined_refl _
  ended := (or_iff_left (newlyEnded_of_eq fun _ => rfl)).symm

theorem Examined.setActive (s : State) (l : LegNo) {x : Transfer} {e : EntryNo} (ho : x.origin = .schedule e) (c : LastCarried) :
    Examined s (s.setLeg l { s.leg l with active := some x, lastCarried := c }) := by
  refine .setLeg s (j := .active) ho (by rfl) (fun k hk => ?_) rfl
  cases k with
  | active => exact absurd rfl hk
  | buffered => rfl
  | suspended => rfl

theorem Examined.setBuffered (s : State) (l : LegNo) {x : Transfer} {e : EntryNo} (ho : x.origin = .schedule e) :
    Examined s (s.setLeg l { s.leg l with buffered := some x }) := by
  refine .setLeg s (j := .buffered) ho (by rfl) (fun k hk => ?_) rfl
  cases k with
  | active => rfl
  | buffered => exact absurd rfl hk
  | suspended => rfl

/-- A WAITING entry whose pass is launched. -/
theorem Examined.launched (s : State) {n : EntryNo} {e : Entry} (he : s.entry n = some e) (hw : e.state = .waiting)
    (id : Nat) : Examined s (s.setEntry n (some { e with state := .launched, inFlight := some id })) where
  toQuiet := .setEntry s _ _
  dryer := rfl
  berths_eq := rfl
  temps _ := rfl
  enables _ := rfl
  flags _ _ := rfl
  slots _ _ := .inl rfl
  stagings _ := rfl
  carried _ h := ⟨h, rfl⟩
  entries m := by
    rw [State.entry_setEntry]; split
    · next hm => rw [hm, he]; exact .some ⟨rfl, fun h => by rw [hw] at h; cases h⟩
    · exact Option.rel_examined_refl _
  ended := by
    refine (or_iff_left ?_).symm
    rintro ⟨m, a, f, ha, hf, h1, h2⟩
    rw [State.entry_setEntry] at hf
    split at hf
    · cases hf; cases h2
    · rw [ha] at hf; cases hf; exact h1 h2

/-- A WAITING entry that is ended (R136). -/
theorem endEntry_examined (s : State) {n : EntryNo} {e : Entry} (he : s.entry n = some e) (hw : e.state = .waiting)
    (reason : EntryEnd) : Examined s (s.endEntry n reason) := by
  have hq := endEntry_quiet s n reason
  unfold State.endEntry at hq ⊢
  rw [he] at hq ⊢
  refine ⟨hq, rfl, rfl, fun _ => rfl, State.enables_raise _ _, fun f hf => ?_, fun _ _ => .inl rfl, fun _ => rfl,
    fun _ h => ⟨h, rfl⟩, fun m => ?_, ?_⟩
  · rw [State.flag_raise, decide_eq_false hf, Bool.false_or]; rfl
  · show Option.Rel _ _ ((s.setEntry n _).entry m)
    rw [State.entry_setEntry]; split
    · next hm => rw [hm, he]; exact .some ⟨rfl, fun _ => rfl⟩
    · exact Option.rel_examined_refl _
  · refine iff_of_true (by rw [State.flag_raise]; simp)
      (.inr ⟨n, e, { e with state := .ended, reason := some reason }, he, ?_, by rw [hw]; exact nofun, rfl⟩)
    show (s.setEntry n _).entry n = _
    rw [State.entry_setEntry, if_pos rfl]

theorem takeClaim_temps (s : State) (b : BinNo) (id : Nat) (c : BinNo) :
    ((s.takeClaim b id).bin c).temp = (s.bin c).temp ∧ s.takeClaim b id = { s with bins := (s.takeClaim b id).bins } := by
  unfold State.takeClaim
  split
  · exact ⟨rfl, rfl⟩
  · exact ⟨(Aside.setBin s (b := b) (x := { s.bin b with claim := some id }) rfl).temps c, rfl⟩

theorem reserve_temps (s : State) (b : BinNo) (who : HolderRef) (i : Identity) (kg k : Nat) (c : BinNo) :
    ((s.reserve b who i kg k).bin c).temp = (s.bin c).temp ∧
      s.reserve b who i kg k = { s with bins := (s.reserve b who i kg k).bins } := by
  unfold State.reserve
  split
  · exact ⟨rfl, rfl⟩
  · exact ⟨(Aside.setBin s (b := b) (x := (s.bin b).reserveFor who i kg k) rfl).temps c, rfl⟩

/-- A pass holds its source and its destination. -/
theorem holdFor_examined (s : State) {x : Transfer} {b d : BinNo} (hs : x.source = .bin b) (hd : x.dest = .bin d) (k n : Nat) :
    Examined s ({ s with nextTransfer := k }.holdFor x n) ∧
      ({ s with nextTransfer := k }.holdFor x n).schedules = s.schedules := by
  have hq : Quiet s ({ s with nextTransfer := k }.holdFor x n) := (Quiet.setNextTransfer s k).trans (holdFor_quiet _ _ _)
  unfold State.holdFor at hq ⊢
  rw [hs, hd] at hq ⊢
  dsimp only at hq ⊢
  rw [if_neg nofun] at hq ⊢
  refine ⟨.ofBins hq ?_ fun c => ?_, ?_⟩
  · rw [(reserve_temps _ d _ _ _ _ d).2, (takeClaim_temps _ b _ b).2]
  rotate_left
  · rw [(reserve_temps _ d _ _ _ _ d).2, (takeClaim_temps _ b _ b).2]
  · rw [(reserve_temps _ d _ _ _ _ c).1, (takeClaim_temps _ b _ c).1]
    rfl

/-- A pass that a launch has granted enters the slot it was given (R113, R140). -/
theorem commitLaunch_examined (s : State) {r : LaunchRequest} {g : Grant} {n : EntryNo} {b d : BinNo}
    (ho : r.origin = .schedule n) (hs : r.source = .bin b) (hd : r.dest = .bin d) (hp : g.preempts = false) :
    Examined s (s.commitLaunch r g) ∧ (s.commitLaunch r g).schedules = s.schedules := by
  unfold State.commitLaunch
  extract_lets x s1 s2 leg
  obtain ⟨h1, hsch⟩ : Examined s s1 ∧ s1.schedules = s.schedules := holdFor_examined s (x := x) hs hd _ _
  have h2 : s2 = s1 := by unfold s2; rw [hp]; rfl
  have hl : leg = s1.leg r.leg := congrArg (fun u : State => u.leg r.leg) h2
  rw [h2, hl]
  split
  · unfold State.enterActive
    extract_lets old time s3
    have hb : x.berth? = none := by
      unfold Transfer.berth?
      rw [show x.dest = .bin d from hd]
    rw [hb]
    dsimp only
    unfold s3
    split
    · exact ⟨h1.trans (.setActive s1 r.leg (x := { x with state := .running }) ho _), hsch⟩
    · exact ⟨h1.trans (.setActive s1 r.leg (x := { x with state := .cleanout time }) ho _), hsch⟩
  · exact ⟨h1.trans (.setBuffered s1 r.leg (x := x) ho), hsch⟩

theorem launchPass_examined (s : State) {n : EntryNo} {e : Entry} (he : s.entry n = some e) (hw : e.state = .waiting) :
    Examined s (s.launchPass n e) := by
  unfold State.launchPass
  extract_lets kg r
  obtain ⟨code, limit, -, h⟩ | ⟨g, hg, h⟩ := s.launch_cases r
  · rw [h]
    dsimp only
    split
    · exact .refl s
    · exact .refl s
    all_goals exact endEntry_examined s he hw _
  · rw [h]
    obtain ⟨hx, hsch⟩ : Examined s (s.commitLaunch r g) ∧ (s.commitLaunch r g).schedules = s.schedules :=
      commitLaunch_examined s (r := r) (g := g) (n := n) (b := e.source) (d := e.dest) rfl rfl rfl
        (Leg.place_preempts (launchChecks_ok s hg).2 nofun)
    have hy : (s.commitLaunch r g).entry n = some e := (State.entry_congr hsch n).trans he
    exact hx.trans (.launched _ hy hw _)

theorem examine_examined (s : State) : Examined s s.examine := by
  unfold State.examine
  generalize allEntries = ns
  induction ns generalizing s with
  | nil => exact .refl s
  | cons n ns ih =>
    refine Examined.trans ?_ (ih _)
    unfold State.examineEntry
    split
    · exact .refl s
    · next e he =>
      split
      · next hc => exact launchPass_examined s he hc.1
      · exact .refl s

/-- With no entry WAITING, an examination does nothing. -/
theorem examine_idle (h : ∀ n e, s.entry n = some e → e.state ≠ .waiting) : s.examine = s := by
  unfold State.examine
  generalize allEntries = ns
  have hx (n : EntryNo) : s.examineEntry n = s := by
    unfold State.examineEntry
    split
    · rfl
    · next e he => rw [if_neg fun hc => h n e he hc.1]
  induction ns with
  | nil => rfl
  | cons n ns ih => rw [List.foldl_cons, hx, ih]

end Examined

end Sys2Proof.Machine
end

section
/-! PROOFS. The records of a warm start, stage by stage: the berths and the dryer as the run begins, then the expiries,
the stale bins, OVERDRAFT and the examination (R83, R102, R145, R169, R193). -/

namespace Sys2Proof.Machine

/-! ### A berth as the run begins -/

section Berths

/-- A new load limit writes the limit, over limit and the state alone (R166). -/
theorem Berth.limitedTo_frame (limit : Nat) (b : Berth) : b.limitedTo limit = { b with
    loadLimit := limit, overLimit := (b.limitedTo limit).overLimit, state := (b.limitedTo limit).state } ∧
    ((b.limitedTo limit).overLimit = true ↔ limit < b.cargo.q) := by
  have settled (c : Berth) : c.settleReady = { c with state := c.settleReady.state } := by
    unfold Berth.settleReady; split <;> rfl
  unfold Berth.limitedTo
  split
  · next hl =>
    split
    · next ho => exact ⟨by rfl, iff_of_true ho hl⟩
    · split
      · exact ⟨by rfl, iff_of_true rfl hl⟩
      · rw [settled]; exact ⟨by rfl, iff_of_true rfl hl⟩
  · next hl => rw [settled]; exact ⟨by rfl, iff_of_false Bool.false_ne_true hl⟩

theorem Berth.limitedTo_state (limit : Nat) (b : Berth)
    (h : (∃ c, b.state = .halted c) ∨ b.state = .vacant ∨ b.state = .complete) : (b.limitedTo limit).state = b.state := by
  have hs (c : Berth) (hc : c.state = b.state) : c.settleReady.state = b.state := by
    unfold Berth.settleReady
    rw [if_neg]
    · exact hc
    · rintro ⟨-, e⟩
      rcases h with ⟨x, h⟩ | h | h <;> rw [hc, h] at e <;> rcases e with e | e <;> cases e
  unfold Berth.limitedTo
  split
  · split
    · rfl
    · split
      · next hl => rcases h with ⟨c, h⟩ | h | h <;> rw [hl] at h <;> cases h
      · exact hs _ rfl
  · exact hs _ rfl

theorem Berth.relimited_frame (set : RiverSettings) (r : River) (b : Berth) : b.relimited set r = { b with
    loadLimit := (b.relimited set r).loadLimit, overLimit := (b.relimited set r).overLimit
    state := (b.relimited set r).state } := by
  unfold Berth.relimited
  split
  · rfl
  · next g _ =>
    have h := (Berth.limitedTo_frame (loadLimitOf set r g) b).1
    generalize b.limitedTo (loadLimitOf set r g) = c at h ⊢
    rw [h]

theorem Berth.relimited_state (set : RiverSettings) (r : River) (b : Berth)
    (h : (∃ c, b.state = .halted c) ∨ b.state = .vacant ∨ b.state = .complete) : (b.relimited set r).state = b.state := by
  unfold Berth.relimited
  split
  · rfl
  · exact Berth.limitedTo_state _ b h

theorem Berth.relimited_limit (set : RiverSettings) (r : River) {b : Berth} {g : Barge} (h : b.barge = some g) :
    (b.relimited set r).loadLimit = loadLimitOf set r g ∧
      ((b.relimited set r).overLimit = true ↔ loadLimitOf set r g < b.cargo.q) := by
  obtain ⟨hf, ho⟩ := Berth.limitedTo_frame (loadLimitOf set r g) b
  unfold Berth.relimited
  rw [h]
  exact ⟨congrArg Berth.loadLimit hf, ho⟩

theorem Berth.warm_frame (b : Berth) : b.warm = { b with
    movePending := false, spoutTimer := b.warm.spoutTimer, current := if b.movePending then none else b.current } := by
  unfold Berth.warm
  split
  · rfl
  · next h =>
    cases b
    rw [Bool.not_eq_true] at h
    cases h
    rfl

/-- What a warm start makes of a berth (R169), its lines aside. -/
structure Berth.Started (set : RiverSettings) (r : River) (b c : Berth) : Prop where
  enabled : c.enabled = b.enabled
  commanded : c.commanded = b.commanded
  movePending : c.movePending = false
  current : c.current = if b.movePending = true then none else b.current
  halted : ∀ x, b.state = .halted x → c.state = .halted x
  still : b.state = .vacant ∨ b.state = .complete → c.state = b.state
  limit : ∀ g, b.barge = some g → c.loadLimit = loadLimitOf set r g ∧ (c.overLimit = true ↔ c.loadLimit < c.cargo.q)
  cargo : b.sameCargo c

variable {b r c : Berth}

/-- The ends, the spout's timeout, the lines and the new limit, as they follow one another at a berth. -/
theorem Berth.Reset.started (h : b.Reset r) (set : RiverSettings) (x : River) (present moored button : Bool)
    (hc : c = Berth.relimited set x { r.warm with present := present, moored := moored, button := button }) :
    b.Started set x c ∧ (r.state = .halted .reset → c.state = .halted .reset) ∧
      c.present = present ∧ c.moored = moored ∧ c.button = button := by
  obtain ⟨hr, hs⟩ := h
  have hw := Berth.warm_frame r
  generalize r.warm = w at hw hc
  have hf := Berth.relimited_frame set x { w with present := present, moored := moored, button := button }
  have hst := Berth.relimited_state set x { w with present := present, moored := moored, button := button }
  have hlim (g : Barge) := Berth.relimited_limit set x (b := { w with present := present, moored := moored, button := button })
    (g := g)
  rw [← hc] at hf hst hlim
  clear hc
  obtain ⟨timer, rfl⟩ : ∃ timer, w = { r with
      movePending := false, spoutTimer := timer, current := if r.movePending then none else r.current } := ⟨_, hw⟩
  obtain ⟨limit, past, state, rfl⟩ : ∃ limit past state, c = { r with
      movePending := false, spoutTimer := timer, current := if r.movePending then none else r.current
      present := present, moored := moored, button := button, loadLimit := limit, overLimit := past, state := state } :=
    ⟨_, _, _, hf⟩
  obtain ⟨claim, state', rfl⟩ : ∃ claim state', r = { b with claim := claim, state := state' } := ⟨_, _, hr⟩
  dsimp only at hs hst hlim
  refine ⟨⟨rfl, rfl, rfl, rfl, fun y hy => ?_, fun hy => ?_, fun g hg => ?_, ⟨rfl, rfl, rfl, rfl, rfl⟩⟩, fun e => ?_, rfl,
    rfl, rfl⟩
  · have e : state' = .halted y := by
      rcases hs with e | ⟨e, -⟩
      · rw [e, hy]
      · rw [hy] at e; cases e
    exact (hst (.inl ⟨y, e⟩)).trans e
  · have e : state' = b.state := by
      rcases hs with e | ⟨e, -⟩
      · exact e
      · rcases hy with hy | hy <;> rw [hy] at e <;> cases e
    exact (hst (.inr (by rw [e]; exact hy))).trans e
  · obtain ⟨h1, h2⟩ := hlim g hg
    exact ⟨h1, by rw [h1]; exact h2⟩
  · exact (hst (.inl ⟨_, e⟩)).trans e

end Berths

/-! ### The berths and the dryer of the start -/

section Start
variable (s : State) (p : Pins)

theorem loadedUp_berth (k : BerthNo) : s.loadedUp.berth k = s.berth k := by rw [loadedUp_frame]; rfl

theorem loadedUp_live : s.loadedUp.live = s.live := by rw [loadedUp_frame]; rfl

theorem loadedUp_entry (n : EntryNo) : s.loadedUp.entry n = s.entry n := by rw [loadedUp_frame]; rfl

theorem loadedUp_bin (b : BinNo) : s.loadedUp.bin b = s.bin b := by rw [loadedUp_frame]; rfl

theorem loadedUp_dryer : s.loadedUp.dryer = s.dryer := by rw [loadedUp_frame]

/-- The berths as the run begins (R169). -/
theorem atStart_berth (k : BerthNo) : (s.berth k).Started s.loadedUp.settings.river s.river.warm ((s.atStart p).berth k) ∧
    ((s.berth k).state = .loading → (∃ x ∈ s.live, x.dest = .berth k) → ((s.atStart p).berth k).state = .halted .reset) ∧
    ((s.atStart p).berth k).present = (if k = 0 then p.presentA else p.presentB) ∧
    ((s.atStart p).berth k).moored = (if k = 0 then p.mooredA else p.mooredB) ∧
    ((s.atStart p).berth k).button = (if k = 0 then p.buttonA else p.buttonB) := by
  have hb : (s.atStart p).berth k = (s.loadedUp.warmRecords p).berth k := by
    unfold State.berth
    rw [atStart_frame]
  have hriv : s.loadedUp.river = s.river := by rw [loadedUp_frame]
  have hc := warmRecords_berth s.loadedUp p k
  rw [hriv, ← hb] at hc
  obtain ⟨h1, h2, h3⟩ := ((resetTransfers_resets s.loadedUp).berths k).started _ _ _ _ _ hc
  rw [loadedUp_berth] at h1
  exact ⟨h1, fun hl hx => h2 (resetTransfers_loading s.loadedUp (by rw [loadedUp_berth]; exact hl)
    (by rw [loadedUp_live]; exact hx)), h3⟩

/-- The dryer as the run begins (R102). -/
theorem atStart_dryer : (s.atStart p).dryer = { s.loadedUp.resetTransfers.dryer with
    state := warmDryerState s.dryer s.loadedUp.resetTransfers.dryer.batch, returnMark := false, autoDischarge := false
    stopPending := false, warmUp := none } := by
  rw [atStart_frame]
  rfl

end Start

end Sys2Proof.Machine
end

section
/-! PROOFS. A warm start's records when it completes (R21, R45, R83, R102, R130, R145, R169, R187, R193). -/

namespace Sys2Proof.Machine

section Complete
variable (s : State) (p : Pins)

/-! ### Stale bins and OVERDRAFT -/

/-- A bin that a start marks STALE (R145). -/
def Bin.staled (x : Bin) : Bin := { x with temp := { x.temp with stale := true, staleTimer := none } }

theorem staleNow_bin (b c : BinNo) : (s.staleNow b).bin c = if c = b then (s.bin c).staled else s.bin c := by
  unfold State.staleNow
  show (s.setBin b _).bin c = _
  rw [State.bin_setBin]
  split
  · next h => rw [h]; rfl
  · rfl

theorem foldl_staleNow (bs : List BinNo) :
    bs.foldl (fun t b => t.staleNow b) s = { s with
      bins := (bs.foldl (fun t b => t.staleNow b) s).bins, events := (bs.foldl (fun t b => t.staleNow b) s).events } ∧
    (∀ c, (bs.foldl (fun t b => t.staleNow b) s).bin c = if c ∈ bs then (s.bin c).staled else s.bin c) ∧
    (∀ x, (bs.foldl (fun t b => t.staleNow b) s).flag x = true ↔ s.flag x = true ∨ bs ≠ [] ∧ x = flagTempStale) ∧
    ∀ g, ((bs.foldl (fun t b => t.staleNow b) s).group g).enables = (s.group g).enables := by
  induction bs generalizing s with
  | nil => exact ⟨rfl, by simp, by simp, fun _ => rfl⟩
  | cons b bs ih =>
    obtain ⟨h1, h2, h3, h4⟩ := ih (s.staleNow b)
    rw [List.foldl_cons]
    refine ⟨h1, fun c => ?_, fun x => ?_, fun g => (h4 g).trans (State.enables_raise _ _ g)⟩
    · rw [h2, staleNow_bin]
      by_cases hc : c = b <;> by_cases hm : c ∈ bs <;> simp [hc, hm, Bin.staled]
    · have hx : (s.staleNow b).flag x = (decide (x = flagTempStale) || s.flag x) := State.flag_raise _ _ _
      rw [h3, hx, Bool.or_eq_true, decide_eq_true_iff]
      by_cases hs : x = flagTempStale <;> simp [hs]

theorem foldl_overdraft (ks : List BerthNo) :
    ks.foldl (fun t k => t.raise (flagOverdraft k)) s =
      { s with events := (ks.foldl (fun t k => t.raise (flagOverdraft k)) s).events } ∧
    (∀ x, (ks.foldl (fun t k => t.raise (flagOverdraft k)) s).flag x = true ↔
      s.flag x = true ∨ ∃ k ∈ ks, x = flagOverdraft k) ∧
    ∀ g, ((ks.foldl (fun t k => t.raise (flagOverdraft k)) s).group g).enables = (s.group g).enables := by
  induction ks generalizing s with
  | nil => exact ⟨rfl, by simp, fun _ => rfl⟩
  | cons k ks ih =>
    obtain ⟨h1, h2, h3⟩ := ih (s.raise (flagOverdraft k))
    rw [List.foldl_cons]
    refine ⟨h1, fun x => ?_, fun g => (h3 g).trans (State.enables_raise _ _ g)⟩
    rw [h2, State.flag_raise, Bool.or_eq_true, decide_eq_true_iff]
    simp only [List.mem_cons, exists_eq_or_imp]
    tauto

/-! ### The stages of completion -/

/-- The machine after the expiries of a start. -/
def State.afterExpiries (p : Pins) (s : State) : State := (s.atStart p).expireOverdue

/-- The berths found over their limit. -/
def State.foundOver (p : Pins) (s : State) : List BerthNo := newlyOver s (s.atStart p)

/-- The machine as the examination of a start finds it. -/
def State.beforeExamination (p : Pins) (s : State) : State :=
  (s.foundOver p).foldl (fun t k => t.raise (flagOverdraft k))
    (s.loadedUp.staleAtStart.foldl (fun t b => t.staleNow b) (s.afterExpiries p))

theorem mem_foundOver (k : BerthNo) :
    k ∈ s.foundOver p ↔ (s.berth k).overLimit = false ∧ ((s.atStart p).berth k).overLimit = true := by
  unfold State.foundOver newlyOver
  rw [List.mem_filter]
  revert k
  simp [allBerths]

theorem warmStart_eq : s.warmStart p = (s.beforeExamination p).examine := by
  have hb : newlyOver s ((s.loadedUp.warmRecords p).beginRun .warm) = s.foundOver p := by
    unfold State.foundOver newlyOver State.atStart State.berth
    rw [raiseIf_frame]
    rfl
  unfold State.beforeExamination State.afterExpiries
  rw [← hb]
  rfl

/-- What stands between the expiries and the examination. -/
theorem beforeExamination_frame : s.beforeExamination p = { s.afterExpiries p with
    bins := (s.beforeExamination p).bins, events := (s.beforeExamination p).events } := by
  have h1 := (foldl_staleNow (s.afterExpiries p) s.loadedUp.staleAtStart).1
  unfold State.beforeExamination
  generalize s.loadedUp.staleAtStart.foldl (fun t b => t.staleNow b) (s.afterExpiries p) = u at h1 ⊢
  have h2 := (foldl_overdraft u (s.foundOver p)).1
  generalize (s.foundOver p).foldl (fun t k => t.raise (flagOverdraft k)) u = v at h2 ⊢
  generalize s.afterExpiries p = e at h1 ⊢
  rw [h2, h1]

theorem beforeExamination_bin (b : BinNo) : (s.beforeExamination p).bin b =
    if b ∈ s.loadedUp.staleAtStart then ((s.afterExpiries p).bin b).staled else (s.afterExpiries p).bin b := by
  rw [← (foldl_staleNow (s.afterExpiries p) s.loadedUp.staleAtStart).2.1]
  have h2 (u : State) := (foldl_overdraft u (s.foundOver p)).1
  unfold State.beforeExamination State.bin
  rw [h2]

theorem beforeExamination_flag (x : Flag) : (s.beforeExamination p).flag x = true ↔
    (s.afterExpiries p).flag x = true ∨ s.loadedUp.staleAtStart ≠ [] ∧ x = flagTempStale ∨
      ∃ k, ((s.berth k).overLimit = false ∧ ((s.atStart p).berth k).overLimit = true) ∧ x = flagOverdraft k := by
  unfold State.beforeExamination
  rw [(foldl_overdraft _ _).2.1, (foldl_staleNow _ _).2.2.1, or_assoc]
  simp only [mem_foundOver]

theorem beforeExamination_enables (g : Fin 11) : ((s.beforeExamination p).group g).enables = (s.group g).enables := by
  unfold State.beforeExamination
  rw [(foldl_overdraft _ _).2.2, (foldl_staleNow _ _).2.2.2]
  exact ((expireOverdue_expiry _).enables g).trans (atStart_enables s p g)

/-- A warm start, record by record. -/
theorem warmStart_frame : s.warmStart p = { s with
    powered := true, startKind := .warm, timebase := 0, commit := .idle, commitResult := none, receiver := .hunting
    response := none, resetPending := false, settings := s.loadedUp.settings, bank0 := s.loadedUp.bank0
    bank1 := s.loadedUp.bank1, freeCount := s.loadedUp.freeCount, currentBank := s.loadedUp.currentBank
    defaulted := s.loadedUp.defaulted, lots := (s.afterExpiries p).lots, tickets := (s.afterExpiries p).tickets
    vehicles := (s.afterExpiries p).vehicles, lastExpired := (s.afterExpiries p).lastExpired
    channels := Vector.replicate 3 Channel.started, bins := (s.warmStart p).bins, dryer := (s.atStart p).dryer
    legs := (s.warmStart p).legs, nextTransfer := (s.warmStart p).nextTransfer, schedules := (s.warmStart p).schedules
    berths := (s.atStart p).berths, river := s.river.warm, events := (s.warmStart p).events
    estop := p.estop, resetLine := p.reset, backupLost := p.backupLost } := by
  have hx := examine_examined (s.beforeExamination p)
  have h4 := hx.frame
  rw [hx.dryer, hx.berths_eq, ← warmStart_eq] at h4
  have h3 := beforeExamination_frame s p
  have h2 : s.afterExpiries p = _ := (expireOverdue_expiry (s.atStart p)).frame
  have h1 := atStart_frame s p
  generalize s.warmStart p = t at h4 ⊢
  generalize s.beforeExamination p = g at h3 h4
  change s.afterExpiries p = { s.atStart p with
    lots := (s.afterExpiries p).lots, bins := (s.afterExpiries p).bins, tickets := (s.afterExpiries p).tickets
    vehicles := (s.afterExpiries p).vehicles, events := (s.afterExpiries p).events
    lastExpired := (s.afterExpiries p).lastExpired } at h2
  generalize s.afterExpiries p = e at h2 h3 ⊢
  generalize s.atStart p = a at h1 h2 ⊢
  obtain ⟨bins, events, rfl⟩ : ∃ bins events, g = { e with bins := bins, events := events } := ⟨_, _, h3⟩
  obtain ⟨lots, bins, tickets, vehicles, events, last, rfl⟩ : ∃ lots bins tickets vehicles events last, e = { a with
      lots := lots, bins := bins, tickets := tickets, vehicles := vehicles, events := events, lastExpired := last } :=
    ⟨_, _, _, _, _, _, h2⟩
  obtain ⟨lots, tickets, bins, dryer, legs, schedules, berths, events, rfl⟩ :
      ∃ lots tickets bins dryer legs schedules berths events, a = { s with
        powered := true, startKind := .warm, timebase := 0, commit := .idle, commitResult := none, receiver := .hunting
        response := none, resetPending := false, settings := s.loadedUp.settings, bank0 := s.loadedUp.bank0
        bank1 := s.loadedUp.bank1, freeCount := s.loadedUp.freeCount, currentBank := s.loadedUp.currentBank
        defaulted := s.loadedUp.defaulted, lots := lots, tickets := tickets
        channels := Vector.replicate 3 Channel.started, bins := bins, dryer := dryer, legs := legs
        schedules := schedules, berths := berths, river := s.river.warm, events := events, estop := p.estop
        resetLine := p.reset, backupLost := p.backupLost } := ⟨_, _, _, _, _, _, _, _, h1⟩
  exact h4

end Complete

end Sys2Proof.Machine
end

section
/-! PROOFS. A warm start keeps the records: the intake, the bins, the event flags, the dryer, the legs and the schedules
when it completes (R21, R45, R83, R102, R104, R130, R145, R169, R187). -/

namespace Sys2Proof.Machine

section Records
variable (s : State) (p : Pins)

/-! ### Tickets -/

/-- A ticket is past its timeout as a start finds it (R83). -/
def State.expiresAtStart (s : State) (k : Ticket) : Bool :=
  decide (s.loadedUp.settings.intake.ticketTimeout * 60 ≤ (s.age k.grossTime).getD 0)

theorem warmStart_settings : (s.warmStart p).settings = s.loadedUp.settings := by rw [warmStart_frame]

theorem warmStart_age (n : Nat) : (s.warmStart p).age n = s.age n := by rw [warmStart_frame]; rfl

theorem atStart_overdue (k : Ticket) : (s.atStart p).overdue (s.carryTicket k) = s.expiresAtStart k := by
  have h1 : (s.atStart p).timebase = 0 := by rw [atStart_frame]
  have h2 : (s.atStart p).settings = s.loadedUp.settings := by rw [atStart_frame]
  unfold State.overdue State.expiresAtStart State.ticketAge State.carryTicket
  rw [h1, h2]
  refine decide_eq_decide.2 ?_
  dsimp only
  generalize (s.age k.grossTime).getD 0 = n
  omega

theorem atStart_tickets : (s.atStart p).tickets = s.tickets.map s.carryTicket := by rw [atStart_frame]

theorem atStart_sameTables : SameTables s (s.atStart p) where
  lots := by
    rw [atStart_frame, List.map_map]
    exact List.map_congr_left fun m _ => Lot.sizeCheck_no _ m
  tickets := by
    rw [atStart_tickets, List.map_map]
    rfl
  vehicles := by rw [atStart_frame]

/-- The open tickets after a warm start: those within their timeout, each with its age carried across (R83). -/
theorem warmStart_tickets (h : TableLaw s) :
    (s.warmStart p).tickets = (s.tickets.filter fun k => !s.expiresAtStart k).map s.carryTicket := by
  have ht : (s.warmStart p).tickets = (s.atStart p).expireOverdue.tickets := by rw [warmStart_frame]; rfl
  rw [ht, expireOverdue_tickets (h.congr (atStart_sameTables s p)), atStart_tickets, List.filter_map]
  refine congrArg (List.map s.carryTicket) (List.filter_congr fun k _ => ?_)
  rw [Function.comp_apply, atStart_overdue]

theorem afterExpiries_none (h : ∀ k ∈ s.tickets, s.expiresAtStart k = false) : s.afterExpiries p = s.atStart p := by
  refine expireOverdue_none fun t ht => ?_
  rw [atStart_tickets] at ht
  obtain ⟨k, hk, rfl⟩ := List.mem_map.1 ht
  rw [atStart_overdue, h k hk]

/-! ### Bins -/

theorem carriedStale_loadedUp (b : BinNo) : s.loadedUp.carriedStale (s.bin b).temp =
    (s.bin b).temp.staleTimer.map fun left : Nat => match (s.bin b).temp.readingTime.bind s.age with
      | some age => (s.loadedUp.settings.rotation.staleTime : Int) - age
      | none => (left : Int) := by
  have ha : s.loadedUp.age = s.age := by rw [loadedUp_frame]; rfl
  unfold State.carriedStale
  rw [ha]
  cases (s.bin b).temp.staleTimer <;> rfl

theorem mem_staleAtStart (b : BinNo) :
    b ∈ s.loadedUp.staleAtStart ↔ ∃ left, s.loadedUp.carriedStale (s.bin b).temp = some left ∧ left ≤ 0 := by
  unfold State.staleAtStart
  rw [List.mem_filter, loadedUp_bin]
  have hb : b ∈ allBins := by simp [allBins]
  cases s.loadedUp.carriedStale (s.bin b).temp <;> simp [hb]

theorem warmStart_bin (b : BinNo) : ((s.beforeExamination p).bin b).QuietChange ((s.warmStart p).bin b) ∧
    ((s.warmStart p).bin b).temp = ((s.beforeExamination p).bin b).temp := by
  have hx := examine_examined (s.beforeExamination p)
  rw [← warmStart_eq] at hx
  exact ⟨hx.toQuiet.bin b, hx.temps b⟩

theorem Bin.staled_quiet (x : Bin) : x.QuietChange x.staled := ⟨⟨rfl, rfl⟩, rfl⟩

theorem beforeExamination_quiet (b : BinNo) :
    ((s.afterExpiries p).bin b).QuietChange ((s.beforeExamination p).bin b) := by
  rw [beforeExamination_bin]
  split
  · exact Bin.staled_quiet _
  · exact .refl _

theorem Bin.carryTemp_quiet (x : Bin) : x.QuietChange (s.carryTemp x) := ⟨⟨rfl, rfl⟩, rfl⟩

theorem atStart_bin_quiet (b : BinNo) : (s.bin b).QuietChange ((s.atStart p).bin b) := by
  have h := (resetTransfers_quiet s.loadedUp).bin b
  rw [loadedUp_bin] at h
  rw [atStart_bin]
  exact h.trans (Bin.carryTemp_quiet _ _)

theorem warmStart_hold (b : BinNo) : ((s.warmStart p).bin b).hold = (s.bin b).hold := by
  calc ((s.warmStart p).bin b).hold
      = ((s.beforeExamination p).bin b).hold := (warmStart_bin s p b).1.grain.2
    _ = ((s.afterExpiries p).bin b).hold := (beforeExamination_quiet s p b).grain.2
    _ = ((s.atStart p).bin b).hold := ((expireOverdue_expiry _).bins b).1
    _ = (s.bin b).hold := (atStart_bin_quiet s p b).grain.2

/-- With no ticket past its timeout, the grain and the tickets' reservations stand. -/
theorem warmStart_bin_none (h : ∀ k ∈ s.tickets, s.expiresAtStart k = false) (b : BinNo) :
    (s.bin b).QuietChange ((s.warmStart p).bin b) := by
  have hb := beforeExamination_quiet s p b
  rw [afterExpiries_none s p h] at hb
  exact ((atStart_bin_quiet s p b).trans hb).trans (warmStart_bin s p b).1

/-- The temperature fields after a warm start (R145). -/
theorem warmStart_temp (b : BinNo) : ((s.warmStart p).bin b).temp =
    match s.loadedUp.carriedStale (s.bin b).temp with
    | none => (s.bin b).temp
    | some left =>
      if left ≤ 0 then { (s.bin b).temp with stale := true, staleTimer := none }
      else { (s.bin b).temp with staleTimer := some left.toNat } := by
  have hr : (s.loadedUp.resetTransfers.bin b).temp = (s.bin b).temp := by
    rw [(resetTransfers_resets _).temps b, loadedUp_bin]
  have ha : ((s.afterExpiries p).bin b).temp =
      { (s.bin b).temp with staleTimer := (s.loadedUp.carriedStale (s.bin b).temp).map Int.toNat } := by
    unfold State.afterExpiries
    rw [((expireOverdue_expiry _).bins b).2, atStart_bin]
    unfold State.carryTemp
    dsimp only
    rw [hr]
  have hm := mem_staleAtStart s b
  have hn : s.loadedUp.carriedStale (s.bin b).temp = none → (s.bin b).temp.staleTimer = none := by
    rw [carriedStale_loadedUp]; exact Option.map_eq_none_iff.1
  rw [(warmStart_bin s p b).2, beforeExamination_bin]
  cases hc : s.loadedUp.carriedStale (s.bin b).temp with
  | none =>
    rw [if_neg (by rw [hm, hc]; rintro ⟨_, e, _⟩; cases e), ha, hc, Option.map_none, ← hn hc]
  | some left =>
    dsimp only
    by_cases hl : left ≤ 0
    · rw [if_pos (hm.2 ⟨left, hc, hl⟩), if_pos hl]
      unfold Bin.staled
      rw [ha]
    · rw [if_neg (by rw [hm, hc]; rintro ⟨_, e, he⟩; cases e; exact hl he), if_neg hl, ha, hc, Option.map_some]

/-! ### Event flags -/

theorem atStart_flag_iff (x : Flag) : (s.atStart p).flag x = true ↔
    (s.loadedUp.defaulted = true ∧ x = flagSettingsDefaulted) ∨ x = flagStartWarm := by
  rw [atStart_flag]; simp

theorem afterExpiries_flag {x : Flag} (hx : x ∉ expiryFlags) :
    (s.afterExpiries p).flag x = true ↔ (s.atStart p).flag x = true :=
  ⟨fun h => ((expireOverdue_expiry _).raised x h).resolve_right hx, (expireOverdue_expiry _).kept x⟩

/-- The event flags of a warm start other than SCHEDULE_ENDED (R187, R193). -/
theorem warmStart_flag {x : Flag} (hx : x ≠ flagScheduleEnded) : (s.warmStart p).flag x = true ↔
    (s.afterExpiries p).flag x = true ∨ s.loadedUp.staleAtStart ≠ [] ∧ x = flagTempStale ∨
      ∃ k, ((s.berth k).overLimit = false ∧ ((s.atStart p).berth k).overLimit = true) ∧ x = flagOverdraft k := by
  rw [warmStart_eq, (examine_examined _).flags x hx, beforeExamination_flag]

theorem flagOverdraft_ne {x : Flag} (hx : x ∈ [flagStartWarm, flagStartCold, flagSettingsDefaulted, flagTicketExpired,
    flagHeldDeposit, flagOverfull, flagTempStale, flagScheduleEnded]) (k : BerthNo) : x ≠ flagOverdraft k := by
  revert x; revert k; decide

theorem flagOverdraft_inj {j k : BerthNo} (h : flagOverdraft j = flagOverdraft k) : j = k := by
  revert j k; decide

/-- A flag of a ticket's expiry (R79). -/
theorem warmStart_expiryFlag {x : Flag} (hx : x ∈ expiryFlags) :
    (s.warmStart p).flag x = true ↔ (s.afterExpiries p).flag x = true := by
  have h1 : x ≠ flagScheduleEnded ∧ x ≠ flagTempStale ∧ ∀ k, x ≠ flagOverdraft k := by
    revert x; decide
  rw [warmStart_flag s p h1.1]
  simp [h1.2.1, h1.2.2]

theorem warmStart_ticketExpired :
    (s.warmStart p).flag flagTicketExpired = true ↔ ∃ k ∈ s.tickets, s.expiresAtStart k = true := by
  rw [warmStart_expiryFlag s p (by decide)]
  constructor
  · intro h
    by_contra hn
    have hf : ∀ k ∈ s.tickets, s.expiresAtStart k = false := fun k hk => by
      by_contra hk'
      exact hn ⟨k, hk, by simpa using hk'⟩
    rw [afterExpiries_none s p hf, atStart_flag_iff] at h
    revert h
    rintro (⟨-, h⟩ | h) <;> revert h <;> decide
  · rintro ⟨k, hk, he⟩
    exact expireOverdue_flag (t := s.carryTicket k) (by rw [atStart_tickets]; exact List.mem_map_of_mem hk)
      (by rw [atStart_overdue, he])

theorem warmStart_closeFlags (h : ∀ k ∈ s.tickets, s.expiresAtStart k = false) :
    (s.warmStart p).flag flagHeldDeposit = false ∧ (s.warmStart p).flag flagOverfull = false := by
  have hx {x : Flag} (hx : x ∈ [flagHeldDeposit, flagOverfull]) : (s.warmStart p).flag x = false := by
    have hm : x ∈ expiryFlags ∧ x ≠ flagSettingsDefaulted ∧ x ≠ flagStartWarm := by revert x; decide
    rw [Bool.eq_false_iff, Ne, warmStart_expiryFlag s p hm.1, afterExpiries_none s p h, atStart_flag_iff]
    simp [hm.2.1, hm.2.2]
  exact ⟨hx (by decide), hx (by decide)⟩

theorem warmStart_tempStale : (s.warmStart p).flag flagTempStale = true ↔
    ∃ b left, s.loadedUp.carriedStale (s.bin b).temp = some left ∧ left ≤ 0 := by
  have h1 : (s.afterExpiries p).flag flagTempStale = false := by
    rw [Bool.eq_false_iff, Ne, afterExpiries_flag s p (by decide), atStart_flag_iff]
    rintro (⟨-, h⟩ | h) <;> revert h <;> decide
  rw [warmStart_flag s p (by decide), h1]
  simp only [Bool.false_eq_true, false_or, and_true, flagOverdraft_ne (x := flagTempStale) (by decide), and_false,
    exists_false, or_false]
  simp only [← mem_staleAtStart]
  exact ⟨List.exists_mem_of_ne_nil _, fun ⟨_, h⟩ => List.ne_nil_of_mem h⟩

theorem warmStart_overdraft (k : BerthNo) : (s.warmStart p).flag (flagOverdraft k) = true ↔
    (s.berth k).overLimit = false ∧ ((s.atStart p).berth k).overLimit = true := by
  have hk {x : Flag} := flagOverdraft_ne (x := x) (k := k)
  have h1 : (s.afterExpiries p).flag (flagOverdraft k) = false := by
    rw [Bool.eq_false_iff, Ne, afterExpiries_flag s p (by revert k; decide), atStart_flag_iff]
    rintro (⟨-, h⟩ | h)
    · exact hk (by decide) h.symm
    · exact hk (by decide) h.symm
  rw [warmStart_flag s p (hk (x := flagScheduleEnded) (by decide)).symm, h1]
  simp only [Bool.false_eq_true, false_or, (hk (x := flagTempStale) (by decide)).symm, and_false]
  constructor
  · rintro ⟨j, hj, e⟩
    rw [flagOverdraft_inj e]
    exact hj
  · exact fun h => ⟨k, h, rfl⟩

/-- The flags of the start itself (R187, R190). -/
theorem warmStart_startFlags : (s.warmStart p).flag flagStartWarm = true ∧ (s.warmStart p).flag flagStartCold = false ∧
    (s.warmStart p).flag flagSettingsDefaulted = s.loadedUp.defaulted := by
  have hx {x : Flag} (hx : x ∈ [flagStartWarm, flagStartCold, flagSettingsDefaulted]) :
      (s.warmStart p).flag x = true ↔ (s.loadedUp.defaulted = true ∧ x = flagSettingsDefaulted) ∨ x = flagStartWarm := by
    have hm : x ≠ flagScheduleEnded ∧ x ≠ flagTempStale ∧ (∀ k, x ≠ flagOverdraft k) ∧ x ∉ expiryFlags := by
      revert x; decide
    rw [warmStart_flag s p hm.1, afterExpiries_flag s p hm.2.2.2, atStart_flag_iff]
    simp [hm.2.1, hm.2.2.1]
  refine ⟨(hx (by decide)).2 (.inr rfl), ?_, ?_⟩
  · rw [Bool.eq_false_iff, Ne, hx (by decide)]
    rintro (⟨-, h⟩ | h) <;> revert h <;> decide
  · rw [Bool.eq_iff_iff, hx (by decide)]
    simp only [and_true, or_iff_left_iff_imp]
    exact fun h => absurd h (by decide)

theorem warmStart_flag_mem {x : Flag} (h : (s.warmStart p).flag x = true) :
    x ∈ [flagStartWarm, flagSettingsDefaulted, flagTicketExpired, flagHeldDeposit, flagOverfull, flagTempStale,
      flagOverdraft 0, flagOverdraft 1, flagScheduleEnded] := by
  by_cases hx : x = flagScheduleEnded
  · rw [hx]; simp
  rw [warmStart_flag s p hx] at h
  rcases h with h | ⟨-, rfl⟩ | ⟨k, -, rfl⟩
  · by_cases he : x ∈ expiryFlags
    · revert he; clear hx h; revert x; decide
    · rw [afterExpiries_flag s p he, atStart_flag_iff] at h
      rcases h with ⟨-, rfl⟩ | rfl <;> simp
  · simp
  · revert k; decide

end Records

end Sys2Proof.Machine
end

section
/-! PROOFS. A warm start: the dryer, the schedules, the legs and the enables when it completes, and the obligation (R83,
R102, R104, R130, R145, R169, R187, R190, R193). -/

namespace Sys2Proof.Machine

section Records
variable (s : State) (p : Pins)

/-! ### Lots and the rest of the intake -/

theorem warmStart_vehicles : (s.warmStart p).vehicles.map (fun v => (v.tag, v.tare)) =
    s.vehicles.map fun v => (v.tag, v.tare) := by
  have h := (expireOverdue_expiry (s.atStart p)).vehicles
  have h0 : (s.atStart p).vehicles = s.vehicles := by rw [atStart_frame]
  rw [h0] at h
  rw [warmStart_frame]
  exact h

theorem atStart_lots : (s.atStart p).lots = s.lots.map (Lot.sizeCheck s.loadedUp.settings.lotSize) := by
  rw [atStart_frame]

theorem warmStart_lots : (s.warmStart p).lots.map (fun m => (m.no, m.shipped, m.waterLoss, m.hold)) =
    s.lots.map fun m => (m.no, m.shipped, m.waterLoss, m.hold) := by
  have h := (expireOverdue_expiry (s.atStart p)).lots
  have h0 : (s.atStart p).lots.map (fun m => (m.no, m.shipped, m.waterLoss, m.hold)) =
      s.lots.map fun m => (m.no, m.shipped, m.waterLoss, m.hold) := by
    rw [atStart_lots, List.map_map]
    exact List.map_congr_left fun m _ => Lot.sizeCheck_kept _ m
  rw [h0] at h
  rw [warmStart_frame]
  exact h

/-- With no ticket past its timeout, the registry and the record of the last expiry stand, and the lots but for the size
check (R12, R83). -/
theorem warmStart_none (h : ∀ k ∈ s.tickets, s.expiresAtStart k = false) :
    (s.warmStart p).vehicles = s.vehicles ∧ (s.warmStart p).lastExpired = s.lastExpired ∧
      (s.warmStart p).lots = s.lots.map (Lot.sizeCheck s.loadedUp.settings.lotSize) := by
  rw [warmStart_frame, afterExpiries_none s p h, atStart_frame]
  exact ⟨rfl, rfl, rfl⟩

/-! ### The dryer -/

theorem warmStart_dryer : (s.warmStart p).dryer = { s.loadedUp.resetTransfers.dryer with
    state := warmDryerState s.dryer s.loadedUp.resetTransfers.dryer.batch, returnMark := false, autoDischarge := false
    stopPending := false, warmUp := none } := by
  rw [warmStart_frame, atStart_dryer]

theorem warmStart_portions : (s.warmStart p).portions = s.portions := by
  have h := (resetTransfers_quiet s.loadedUp).portions
  rw [show s.loadedUp.portions = s.portions by unfold State.portions; rw [loadedUp_dryer]] at h
  rw [← h]
  unfold State.portions
  rw [warmStart_dryer]

theorem warmStart_drying : (s.warmStart p).dryer.drying = s.dryer.drying := by
  rw [warmStart_dryer]
  exact ((resetTransfers_resets s.loadedUp).drying).trans (by rw [loadedUp_dryer])

theorem warmStart_batch {b : Batch} (hb : s.dryer.batch = some b)
    (h : b.portions ≠ [] ∨ ∀ x ∈ s.live, x.origin ≠ .dryer) : (s.warmStart p).dryer.batch = some b := by
  rw [← loadedUp_dryer] at hb
  rw [warmStart_dryer]
  rcases h with h | h
  · exact (resetTransfers_resets s.loadedUp).batch b hb h
  · rw [← loadedUp_live] at h
    rw [resetTransfers_dryer _ h]
    exact hb

theorem DischargeLaw.transport {s u : State} (h : DischargeLaw s) (hl : u.live = s.live) (hd : u.dryer = s.dryer) :
    DischargeLaw u := by
  obtain ⟨h1, h2, h3, h4⟩ := h
  exact ⟨by rw [hl, hd]; exact h1, by rw [hl, hd]; exact h2, by rw [hl, hd]; exact h3, by rw [hd]; exact h4⟩

theorem warmStart_discharge (h : DischargeLaw s) : (s.warmStart p).dryer.discharge = none := by
  rw [warmStart_dryer]
  exact resetTransfers_discharge _ (h.transport (loadedUp_live s) (loadedUp_dryer s))

/-- The dryer's state after a warm start (R102). -/
theorem warmStart_dryerState : (s.warmStart p).dryer.state = match s.dryer.state with
    | .fault => .fault
    | .drying | .suspended => if (s.warmStart p).dryer.batch = none then .off else .suspended
    | .warming => if s.dryer.returnMark = true ∧ (s.warmStart p).dryer.batch ≠ none then .suspended else .off
    | .off | .ready | .dischargeWait | .discharging => .off := by
  rw [warmStart_dryer]
  dsimp only
  generalize s.loadedUp.resetTransfers.dryer.batch = batch
  unfold warmDryerState
  cases s.dryer.state <;> cases batch <;> simp

theorem warmDryerState_waits (d : Dryer) (b : Option Batch) :
    warmDryerState d b = .off ∨ warmDryerState d b = .suspended ∨ warmDryerState d b = .fault := by
  unfold warmDryerState
  cases d.state <;> cases b.isSome <;> cases d.returnMark <;> simp

/-! ### Schedules -/

theorem Entry.Reset.ended {e f : Entry} (h : e.Reset f) : f.state = .ended ↔ e.state = .ended := by
  rcases h.2 with h | ⟨h1, h2⟩
  · rw [h]
  · rw [h1, h2]; exact iff_of_false nofun nofun

theorem beforeExamination_entry (n : EntryNo) :
    (s.beforeExamination p).entry n = s.loadedUp.resetTransfers.entry n := by
  have h1 : (s.afterExpiries p).schedules = (s.atStart p).schedules := by
    unfold State.afterExpiries
    rw [(expireOverdue_expiry _).frame]
  rw [← atStart_entry s p n]
  refine State.entry_congr ?_ n
  rw [beforeExamination_frame]
  exact h1

theorem beforeExamination_reset (n : EntryNo) : Option.Rel Entry.Reset (s.entry n) ((s.beforeExamination p).entry n) := by
  have h := (resetTransfers_resets s.loadedUp).entries n
  rwa [loadedUp_entry, ← beforeExamination_entry s p] at h

theorem warmStart_examined : Examined (s.beforeExamination p) (s.warmStart p) := by
  rw [warmStart_eq]
  exact examine_examined _

theorem warmStart_entry (n : EntryNo) :
    ((s.warmStart p).entry n).map (fun e => (e.source, e.dest, e.leg, e.kg, e.condition)) =
      (s.entry n).map fun e => (e.source, e.dest, e.leg, e.kg, e.condition) := by
  have h1 := beforeExamination_reset s p n
  have h2 := (warmStart_examined s p).entries n
  generalize s.entry n = d at h1 ⊢
  generalize (s.beforeExamination p).entry n = e at h1 h2
  generalize (s.warmStart p).entry n = f at h2 ⊢
  cases h1 with
  | none => cases h2; rfl
  | some h1 =>
    cases h2 with
    | some h2 => rw [Option.map_some, Option.map_some, h2.1, h1.1]

/-- SCHEDULE_ENDED says that an entry has ended (R136). -/
theorem warmStart_scheduleEnded :
    (s.warmStart p).flag flagScheduleEnded = true ↔ NewlyEnded s (s.warmStart p) := by
  have h0 : (s.beforeExamination p).flag flagScheduleEnded = false := by
    rw [Bool.eq_false_iff, Ne, beforeExamination_flag, afterExpiries_flag s p (by decide), atStart_flag_iff]
    rintro ((⟨-, h⟩ | h) | ⟨-, h⟩ | ⟨k, -, h⟩)
    · exact absurd h (by decide)
    · exact absurd h (by decide)
    · exact absurd h (by decide)
    · exact flagOverdraft_ne (by decide) k h
  rw [(warmStart_examined s p).ended, h0]
  simp only [Bool.false_eq_true, false_or]
  have hr := beforeExamination_reset s p
  constructor
  · rintro ⟨n, e, f, he, hf, h1, h2⟩
    have hn := hr n
    rw [he] at hn
    cases hs : s.entry n with
    | none => rw [hs] at hn; cases hn
    | some d =>
      rw [hs] at hn
      cases hn with
      | some hn => exact ⟨n, d, f, hs, hf, fun h => h1 (hn.ended.2 h), h2⟩
  · rintro ⟨n, d, f, hs, hf, h1, h2⟩
    have hn := hr n
    rw [hs] at hn
    cases he : (s.beforeExamination p).entry n with
    | none => rw [he] at hn; cases hn
    | some e =>
      rw [he] at hn
      cases hn with
      | some hn => exact ⟨n, e, f, he, hf, fun h => h1 (hn.ended.1 h), h2⟩

/-! ### Legs -/

theorem beforeExamination_leg (l : LegNo) : (s.beforeExamination p).leg l = (s.loadedUp.resetTransfers.leg l).warm := by
  have h1 : (s.afterExpiries p).legs = (s.atStart p).legs := by
    unfold State.afterExpiries
    rw [(expireOverdue_expiry _).frame]
  rw [← atStart_leg s p l]
  unfold State.leg
  rw [beforeExamination_frame]
  show (s.afterExpiries p).legs.get l = _
  rw [h1]

theorem beforeExamination_slot (l : LegNo) (k : Slot) : ((s.beforeExamination p).leg l).slot k = none := by
  rw [beforeExamination_leg, ← resetTransfers_slot s.loadedUp l k]
  cases k <;> rfl

theorem Leg.empty_of_slots {g : Leg} (h : ∀ k, g.slot k = none) : g.empty = true := by
  have h1 : g.active = none := h .active
  have h2 : g.buffered = none := h .buffered
  have h3 : g.suspended = none := h .suspended
  unfold Leg.empty
  rw [h1, h2, h3]
  rfl

theorem warmStart_leg (l : LegNo) : ((s.warmStart p).leg l).staging = none ∧
    (((s.warmStart p).leg l).empty = true → ((s.warmStart p).leg l).lastCarried = .unknown) ∧
    ∀ k x, ((s.warmStart p).leg l).slot k = some x → ∃ e, x.origin = .schedule e := by
  have hx := warmStart_examined s p
  refine ⟨?_, fun h => ?_, fun k x h => ?_⟩
  · rw [hx.stagings, beforeExamination_leg]; rfl
  · rw [(hx.carried l h).2, beforeExamination_leg]; rfl
  · rcases hx.slots l k with e | ⟨y, hy, ho⟩
    · rw [beforeExamination_slot, h] at e; cases e
    · rw [h] at hy; cases hy; exact ho

/-- With every entry ENDED the start launches nothing (R104, R138). -/
theorem warmStart_idle (h : ∀ n e, s.entry n = some e → e.state = .ended) :
    (s.warmStart p).nextTransfer = s.nextTransfer ∧ ∀ l, ((s.warmStart p).leg l).empty = true := by
  have hi : s.warmStart p = s.beforeExamination p := by
    rw [warmStart_eq]
    refine examine_idle fun n e he hw => ?_
    have hn := beforeExamination_reset s p n
    rw [he] at hn
    cases hs : s.entry n with
    | none => rw [hs] at hn; cases hn
    | some d =>
      rw [hs] at hn
      cases hn with
      | some hn =>
        have := hn.ended.2 (h n d hs)
        rw [hw] at this
        cases this
  rw [hi]
  refine ⟨?_, fun l => Leg.empty_of_slots (beforeExamination_slot s p l)⟩
  have h1 : (s.afterExpiries p).nextTransfer = (s.atStart p).nextTransfer := by
    unfold State.afterExpiries
    rw [(expireOverdue_expiry _).frame]
  rw [beforeExamination_frame]
  show (s.afterExpiries p).nextTransfer = _
  rw [h1, atStart_frame]

theorem warmStart_enables (g : Fin 11) : ((s.warmStart p).group g).enables = (s.group g).enables := by
  rw [(warmStart_examined s p).enables, beforeExamination_enables]

/-! ### Berths -/

theorem warmStart_berth (k : BerthNo) : (s.warmStart p).berth k = (s.atStart p).berth k := by
  unfold State.berth
  rw [warmStart_frame]

theorem warmStart_ports : (s.warmStart p).powered = true ∧ (s.warmStart p).startKind = .warm ∧
    (s.warmStart p).timebase = 0 ∧ (s.warmStart p).commit = .idle ∧ (s.warmStart p).commitResult = none ∧
    (s.warmStart p).receiver = .hunting ∧ (s.warmStart p).response = none ∧ (s.warmStart p).resetPending = false ∧
    (s.warmStart p).pending = s.pending := by
  rw [warmStart_frame]
  exact ⟨rfl, rfl, rfl, rfl, rfl, rfl, rfl, rfl, rfl⟩

theorem warmStart_counters : (s.warmStart p).terminalTime = s.terminalTime ∧ (s.warmStart p).timeValid = s.timeValid ∧
    (s.warmStart p).lastLot = s.lastLot ∧ (s.warmStart p).nextTicket = s.nextTicket ∧
    (s.warmStart p).lastClosed = s.lastClosed := by
  rw [warmStart_frame]
  exact ⟨rfl, rfl, rfl, rfl, rfl⟩

theorem warmStart_lines : (s.warmStart p).estop = p.estop ∧ (s.warmStart p).resetLine = p.reset ∧
    (s.warmStart p).backupLost = p.backupLost ∧ (s.warmStart p).river = s.river.warm ∧
    (s.warmStart p).defaulted = s.loadedUp.defaulted := by
  rw [warmStart_frame]
  exact ⟨rfl, rfl, rfl, rfl, rfl⟩

end Records

/-! ### The obligation -/

/-- The part as a loss of power leaves it (R189, R192). -/
theorem losePower_frame (s : State) : s.losePower = { s with
    powered := false, commit := .idle, bank0 := s.losePower.bank0, bank1 := s.losePower.bank1
    freeCount := s.losePower.freeCount, receiver := .hunting, response := none, resetPending := false } := by
  unfold State.losePower
  rw [abandonCommit_frame]

theorem losePower_banks {s : State} (h : s.commit = .idle) : s.losePower.bank0 = s.bank0 ∧ s.losePower.bank1 = s.bank1 := by
  unfold State.losePower State.abandonCommit
  rw [h]
  exact ⟨rfl, rfl⟩

theorem map_comp_congr {α β γ : Type} {f : α → β} {xs ys : List α} (g : β → γ) (h : xs.map f = ys.map f) :
    xs.map (g ∘ f) = ys.map (g ∘ f) := by
  rw [← List.map_map, h, List.map_map]

theorem State.bank_congr {s u : State} (h0 : u.bank0 = s.bank0) (h1 : u.bank1 = s.bank1) (b : Fin 2) :
    u.bank b = s.bank b := by
  unfold State.bank
  rw [h0, h1]

/-- RESET, asserted with power on, is a warm start (R192). -/
theorem exec_resetAsserted {s : State} (hon : s.powered = true) (hline : s.resetLine = false) (p : Pins) :
    exec (.resetAsserted p) s = .next (s.warmStart p) := by
  have h : s.whenPowered (State.assertReset p) = s.warmStart p := by
    rw [State.whenPowered_on hon, State.assertReset, hline]
    rfl
  rw [← h]
  rfl

/-- The end of the OK answer to Reset Part is a warm start (R192). -/
theorem exec_responseSent_reset {s : State} (hon : s.powered = true) (hsent : s.response.isSome = true)
    (hpend : s.resetPending = true) (p : Pins) : exec (.responseSent p) s = .next (s.warmStart p) := by
  have h : s.whenPowered (State.endResponse p) = s.warmStart p := by
    obtain ⟨x, hx⟩ := Option.isSome_iff_exists.1 hsent
    rw [State.whenPowered_on hon, State.endResponse, hx, hpend]
    rfl
  rw [← h]
  rfl

/-- Power that returns with the backup kept is a warm start (R192). -/
theorem exec_mainPowerReturn_kept (s : State) {p : Pins} (hback : p.backupLost = false) :
    exec (.mainPowerReturn p) s = .next (s.losePower.warmStart p) := by
  have h : s.returnPower p = s.losePower.warmStart p := by
    rw [State.returnPower, hback]
    rfl
  rw [← h]
  rfl

/-- Settles O59: what each stage of the start leaves alone, from whatever state it finds. -/
theorem warmStartKeepsTheRecords : Obligations.WarmStartKeepsTheRecords := by
  unfold Obligations.WarmStartKeepsTheRecords
  intro expires carried warm
  have key (s u : State) (p : Pins) (hb : s.commit = .idle → u.commit = .idle ∧ u.bank0 = s.bank0 ∧ u.bank1 = s.bank1)
      (hu : u = { s with powered := u.powered, commit := u.commit, bank0 := u.bank0, bank1 := u.bank1
                         freeCount := u.freeCount, receiver := u.receiver, response := u.response
                         resetPending := u.resetPending }) : warm s (u.warmStart p) p := by
    have hexp (k : Ticket) : expires (u.warmStart p) k = u.expiresAtStart k := by
      unfold expires State.expiresAtStart
      rw [warmStart_settings, warmStart_age]
    have hbin (b : BinNo) : u.bin b = s.bin b := by rw [hu]; rfl
    have hage : u.age = s.age := by rw [hu]; rfl
    have hcar (b : BinNo) : carried s (u.warmStart p) b = u.loadedUp.carriedStale (s.bin b).temp := by
      rw [← hbin, carriedStale_loadedUp, hage, hbin]
      unfold carried
      rw [warmStart_settings]
      cases (s.bin b).temp.staleTimer <;> rfl
    obtain ⟨h1, h2, h3, h4, h5, h6, h7, h8, h9⟩ := warmStart_ports u p
    obtain ⟨c1, c2, c3, c4, c5⟩ := warmStart_counters u p
    obtain ⟨l1, l2, l3, l4, l5⟩ := warmStart_lines u p
    obtain ⟨f1, f2, f3⟩ := warmStart_startFlags u p
    have hset := warmStart_settings u p
    have hveh := warmStart_vehicles u p
    have hlots := warmStart_lots u p
    have hhold := warmStart_hold u p
    have htick := warmStart_tickets u p
    have hnone := warmStart_none u p
    have hbins := warmStart_bin_none u p
    have htemp := warmStart_temp u p
    have hmem (x : Flag) := warmStart_flag_mem u p (x := x)
    have hexpired := warmStart_ticketExpired u p
    have hclose := warmStart_closeFlags u p
    have hstale := warmStart_tempStale u p
    have hover := warmStart_overdraft u p
    have hended := warmStart_scheduleEnded u p
    have hport := warmStart_portions u p
    have hdry := warmStart_drying u p
    have hbatch (b : Batch) := warmStart_batch u p (b := b)
    have hdis (h : DischargeLaw s) := warmStart_discharge u p (h.transport (by rw [hu]; rfl) (by rw [hu]))
    have hstate := warmStart_dryerState u p
    have hwait := warmDryerState_waits u.dryer u.loadedUp.resetTransfers.dryer.batch
    have hdryer := warmStart_dryer u p
    have hidle := warmStart_idle u p
    have hleg := warmStart_leg u p
    have hentry := warmStart_entry u p
    have henab := warmStart_enables u p
    have hberth (k : BerthNo) := atStart_berth u p k
    simp only [← warmStart_berth] at hberth hover
    have hload : s.commit = .idle → u.loadedUp.settings = match chooseBank s.bank0 s.bank1 with
        | some b => (s.bank b).image.loaded
        | none => Settings.factory := fun hc => by
      obtain ⟨hc, e0, e1⟩ := hb hc
      rw [loadedUp_settings u hc, e0, e1]
      cases chooseBank s.bank0 s.bank1 with
      | none => rfl
      | some b => exact congrArg (fun x : Bank => x.image.loaded) (State.bank_congr e0 e1 b)
    obtain ⟨-, -, p0, m0, b0⟩ := hberth 0
    obtain ⟨-, -, p1, m1, b1⟩ := hberth 1
    simp only [← hexp] at htick hnone hbins hexpired hclose
    simp only [hbin, ← hcar] at htemp hstale
    rw [← hset] at hload
    generalize u.warmStart p = t at *
    obtain ⟨powered, commit, bank0, bank1, count, receiver, response, pending, rfl⟩ :
        ∃ powered commit bank0 bank1 count receiver response pending, u = { s with
          powered := powered, commit := commit, bank0 := bank0, bank1 := bank1, freeCount := count
          receiver := receiver, response := response, resetPending := pending } := ⟨_, _, _, _, _, _, _, _, hu⟩
    refine ⟨h1, h2, h3, h4, h5, h6, h7, h8, h9, c1, c2, c3, c4, map_comp_congr Prod.fst hveh, map_comp_congr Prod.snd hveh,
      map_comp_congr Prod.fst hlots, map_comp_congr (Prod.fst ∘ Prod.snd) hlots,
      map_comp_congr (Prod.fst ∘ Prod.snd ∘ Prod.snd) hlots,
      map_comp_congr (Prod.snd ∘ Prod.snd ∘ Prod.snd) hlots, hhold, c5, htick, fun hx => ?_, htemp, hmem,
      f3.trans l5.symm, hexpired, hclose, hstale, hover, hended, hport, hdry, hbatch, hdis, hstate, hidle,
      fun l => (hleg l).2.1, fun k => ?_, l4, hentry, fun l => (hleg l).1, fun l => (hleg l).2.2,
      fun k => (hberth k).1.cargo, l1, l2, l3, p0, m0, b0, p1, m1, b1, ?_, ?_, ?_, ?_, f1, f2, henab, hload⟩
    · obtain ⟨n1, n2, n3⟩ := hnone hx
      refine ⟨fun b => (hbins hx b).grain.1, n1, n2, ?_, fun b h hh n hw => ?_⟩
      · rw [n3, hset]; rfl
      · refine (Bin.mem_ticketHolders hw).1 ?_
        rw [(hbins hx b).tickets]
        exact (Bin.mem_ticketHolders hw).2 hh
    · obtain ⟨hk, hl, -⟩ := hberth k
      refine ⟨hk.enabled, hk.commanded, hk.movePending, hk.current, hk.halted, hl, hk.still, fun g hg => ?_⟩
      obtain ⟨e1, e2⟩ := hk.limit g hg
      exact ⟨by rw [e1, hset, l4], e2⟩
    · rw [hdryer]; exact hwait
    · rw [hdryer]
    · rw [hdryer]
    · rw [hdryer]
  refine ⟨fun s p hon hline => ⟨_, exec_resetAsserted hon hline p, key s s p (fun h => ⟨h, rfl, rfl⟩) rfl⟩,
    fun s p hon hsent hpend => ⟨_, exec_responseSent_reset hon hsent hpend p, key s s p (fun h => ⟨h, rfl, rfl⟩) rfl⟩,
    fun s p hback => ⟨_, exec_mainPowerReturn_kept s hback, key s s.losePower p (fun h => ?_) ?_⟩⟩
  · obtain ⟨h0, h1⟩ := losePower_banks h
    exact ⟨by rw [losePower_frame], h0, h1⟩
  · have h := losePower_frame s
    generalize s.losePower = u at h ⊢
    rw [h]

end Sys2Proof.Machine
end

section
/-! PROOFS. The elementary changes that claims, reservations, slots, entries and berths go through when transfers are
launched, succeed one another and end, and that a launch, an end and an examination are made of them. A law that each
elementary change keeps is kept by all of these. -/

namespace Sys2Proof.Machine

/-! ### Elementary changes -/

/-- A slot may take a transfer: it is live already, or the bins it names are under no hold (R108). -/
def State.mayHold (s : State) (x : Transfer) : Prop :=
  (∃ y ∈ s.live, y.bins = x.bins) ∨ ∀ b ∈ x.bins, (s.bin b).hold = none

/-- An entry may be written: it is ENDED, it goes on for one that has not ended and names the same bins, or the bins it
names are under no hold (R38, R137, R143). -/
def State.mayEnter (s : State) (n : EntryNo) (e : Entry) : Prop :=
  e.state = .ended ∨ (∃ f, s.entry n = some f ∧ f.state ≠ .ended ∧ f.source = e.source ∧ f.dest = e.dest) ∨
    ∀ b, e.names b = true → (s.bin b).hold = none

/-- One state comes from another by elementary changes: no grain moves, no hold changes, and slots are reserved by the
reserve operation alone. -/
inductive Rearranged : State → State → Prop
  | refl (s : State) : Rearranged s s
  | trans {s t u : State} : Rearranged s t → Rearranged t u → Rearranged s u
  | setBin (s : State) {b : BinNo} {x : Bin} : (s.bin b).sameGrain x → x.reservedSlots ≤ (s.bin b).reservedSlots →
    Rearranged s (s.setBin b x)
  | reserve (s : State) (b : BinNo) (who : HolderRef) (i : Identity) (kg n : Nat) :
    Rearranged s (s.reserve b who i kg n)
  | setBerth (s : State) (k : BerthNo) (x : Berth) : Rearranged s (s.setBerth k x)
  | setLeg (s : State) (l : LegNo) {g : Leg} : (∀ k x, g.slot k = some x → s.mayHold x) → Rearranged s (s.setLeg l g)
  | setEntry (s : State) (n : EntryNo) {e : Entry} : s.mayEnter n e → Rearranged s (s.setEntry n (some e))
  | setDryer (s : State) (d : Dryer) : (d.batch.map Batch.portions).getD [] = s.portions →
    Rearranged s { s with dryer := d }
  | setNextTransfer (s : State) (n : Nat) : Rearranged s { s with nextTransfer := n }
  | raise (s : State) (f : Flag) : Rearranged s (s.raise f)

/-- A fold of such changes is one. -/
theorem Rearranged.foldl {α : Type} {f : State → α → State} (h : ∀ s a, Rearranged s (f s a)) (l : List α) (s : State) :
    Rearranged s (l.foldl f s) := by
  induction l generalizing s with
  | nil => exact .refl s
  | cons a l ih => exact (h s a).trans (ih _)

theorem Rearranged.raiseIf (s : State) (c : Bool) (f : Flag) : Rearranged s (s.raiseIf c f) := by
  unfold State.raiseIf; split
  · exact .raise s f
  · exact .refl s

/-! ### Reservations and claims -/

section Holders
variable (s : State) (b : BinNo)

theorem Bin.reevaluate_slots (x : Bin) : x.reevaluate.reservedSlots = x.reservedSlots := by
  unfold Bin.reservedSlots; rw [Bin.reevaluate_holders]

theorem reevaluate_rearranged : Rearranged s (s.reevaluate b) :=
  .setBin s (Bin.reevaluate_quiet _).grain (Bin.reevaluate_slots _).le

theorem takeClaim_rearranged (id : Nat) : Rearranged s (s.takeClaim b id) := by
  unfold State.takeClaim; split
  · exact .refl s
  · exact .setBin s ⟨rfl, rfl⟩ le_rfl

theorem dropClaim_rearranged (id : Nat) : Rearranged s (s.dropClaim b id) := by
  unfold State.dropClaim; split
  · exact .setBin s ((Bin.claim_quiet _ _).trans (Bin.reevaluate_quiet _)).grain (Bin.reevaluate_slots _).le
  · exact .refl s

theorem release_rearranged (who : HolderRef) : Rearranged s (s.release b who) := by
  refine .setBin s (Bin.reevaluate_quiet { s.bin b with holders := _ }).grain ?_
  rw [Bin.reevaluate_slots]
  exact slotSum_filter_le _ _

/-- A hand-over leaves what is reserved as it was (R31). -/
theorem handOver_rearranged (old new : HolderRef) : Rearranged s (s.handOver b old new) := by
  refine .setBin s ⟨rfl, rfl⟩ (le_of_eq ?_)
  simp only [Bin.reservedSlots, List.map_map]
  refine congrArg List.sum (List.map_congr_left fun h _ => ?_)
  by_cases e : h.who = old <;> simp [e]

theorem setTemp_rearranged (x : TempFields) : Rearranged s (s.setBin b { s.bin b with temp := x }) :=
  .setBin s ⟨rfl, rfl⟩ le_rfl

end Holders

/-! ### Berths -/

section Berths
variable (s : State) (k : BerthNo)

theorem completionTest_rearranged : Rearranged s (s.completionTest k) := by
  unfold State.completionTest; dsimp only; split
  · exact (Rearranged.setBerth s k _).trans (.raise _ _)
  · exact .setBerth s k _

theorem berthEnd_rearranged (reason : EndReason) : Rearranged s (s.berthEnd k reason) := by
  unfold State.berthEnd; dsimp only; split
  · exact .refl s
  · exact .refl s
  · split
    · exact .setBerth s k _
    · exact .setBerth s k _
    · exact completionTest_rearranged s k
  · split
    · exact .refl s
    · exact completionTest_rearranged s k

theorem dropBerthClaim_rearranged (id : Nat) : Rearranged s (s.dropBerthClaim k id) := by
  unfold State.dropBerthClaim; split
  · exact .setBerth s k _
  · exact .refl s

theorem recomputeLimit_rearranged : Rearranged s (s.recomputeLimit k) := by
  unfold State.recomputeLimit; dsimp only; split
  · exact .refl s
  · split
    · split
      · exact .setBerth s k _
      · split <;> exact ((Rearranged.setBerth s k _).trans (.raise _ _)).trans (.setBerth _ k _)
    · exact .setBerth s k _

end Berths

/-! ### Schedule entries -/

section Entries
variable (s : State)

theorem endEntry_rearranged (n : EntryNo) (reason : EntryEnd) : Rearranged s (s.endEntry n reason) := by
  unfold State.endEntry; split
  · exact .refl s
  · exact (Rearranged.setEntry s n (.inl rfl)).trans (.raise _ _)

/-- Auto-turn makes an entry for a bin that is under no hold (R143). -/
theorem autoTurn_rearranged (b : BinNo) : Rearranged s (s.autoTurn b) := by
  unfold State.autoTurn; dsimp only; split
  · exact .refl s
  · next hc =>
    have hb : (s.bin b).hold = none := by simp at hc; exact hc.2
    split
    · exact .refl s
    · refine .setEntry s _ (.inr (.inr fun c hn => ?_))
      have : b = c := by simpa [Entry.names, autoEntry] using hn
      rw [← this]; exact hb

theorem evaluateHot_rearranged (b : BinNo) : Rearranged s (s.evaluateHot b) := by
  unfold State.evaluateHot; dsimp only; split
  · split
    · exact ((setTemp_rearranged s b _).trans (.raise _ _)).trans (autoTurn_rearranged _ b)
    · exact setTemp_rearranged s b _
  · exact .refl s

/-- Auto-turn fills an entry that has ended or is free (R143). -/
theorem autoTurn_entry (b : BinNo) {n : EntryNo} {e : Entry} (he : s.entry n = some e) (hn : e.state ≠ .ended) :
    (s.autoTurn b).entry n = some e := by
  unfold State.autoTurn; dsimp only; split
  · exact he
  · split
    · exact he
    · next m hm =>
      have hf := List.find?_some hm
      rw [State.entry_setEntry, if_neg]
      · exact he
      · rintro rfl
        simp [he, fillable, hn] at hf

theorem evaluateHot_entry (b : BinNo) {n : EntryNo} {e : Entry} (he : s.entry n = some e) (hn : e.state ≠ .ended) :
    (s.evaluateHot b).entry n = some e := by
  unfold State.evaluateHot; dsimp only; split
  · split
    · exact autoTurn_entry _ b he hn
    · exact he
  · exact he

/-- An entry goes on with other marks. -/
theorem State.mayEnter_of_same {n : EntryNo} {e f : Entry} (he : s.entry n = some e) (hs : e.source = f.source)
    (hd : e.dest = f.dest) (hn : e.state = .ended → f.state = .ended) : s.mayEnter n f := by
  by_cases h : e.state = .ended
  · exact .inl (hn h)
  · exact .inr (.inl ⟨e, he, h, hs, hd⟩)

theorem passComplete_rearranged {n : EntryNo} {e : Entry} (he : s.entry n = some e) (t : Transfer) :
    Rearranged s (s.passComplete n e t) := by
  unfold State.passComplete
  extract_lets s1 x turned old s2 y old' s3
  have h1 : Rearranged s s1 := .setEntry s n (s.mayEnter_of_same he rfl rfl id)
  have h2 : Rearranged s s2 := h1.trans (setTemp_rearranged s1 _ _)
  have h3 : Rearranged s s3 := by
    unfold s3; split
    · exact (h2.trans (setTemp_rearranged s2 _ _)).trans (evaluateHot_rearranged _ _)
    · exact h2
  have e2 : s2.entry n = some { e with
      done := min (e.done + 1) 65535, remaining := e.remaining.map (· - 1), inFlight := none } :=
    State.entry_setEntry_same s n _
  split
  · next hl =>
    have hn : e.state ≠ .ended := by rw [hl]; nofun
    split
    · exact h3.trans (endEntry_rearranged _ _ _)
    · split
      · next f hf =>
        refine h3.trans (.setEntry s3 n (s3.mayEnter_of_same hf rfl rfl fun h => ?_))
        have e3 : s3.entry n = s2.entry n := by
          unfold s3; split
          · rw [e2]; exact evaluateHot_entry _ _ e2 hn
          · rfl
        rw [e3, e2] at hf
        cases hf
        exact absurd h hn
      · exact h3
  · exact h3

theorem passEnd_rearranged (n : EntryNo) (reason : EndReason) (t : Transfer) : Rearranged s (s.passEnd n reason t) := by
  unfold State.passEnd; split
  · exact .refl s
  · next e he =>
    split
    · exact .refl s
    · split
      · exact passComplete_rearranged s he t
      · refine .setEntry s n (s.mayEnter_of_same he rfl rfl fun h => ?_)
        show (if e.state = .launched then EntryState.waiting else e.state) = .ended
        rw [h]; rfl
      · have h1 : Rearranged s (s.setEntry n (some { e with inFlight := none })) :=
          .setEntry s n (s.mayEnter_of_same he rfl rfl id)
        dsimp only; split
        · exact h1.trans (endEntry_rearranged _ _ _)
        · exact h1

theorem holdEntries_rearranged (b : BinNo) : Rearranged s (s.holdEntries b) := by
  refine Rearranged.foldl (fun s n => ?_) _ s
  split
  · split
    · exact endEntry_rearranged s _ _
    · exact .refl s
  · exact .refl s

end Entries

/-! ### Legs -/

/-- A slot of a leg after one has been given something else. -/
theorem Leg.slot_setSlot (g : Leg) (k : Slot) (x : Option Transfer) (j : Slot) :
    (g.setSlot k x).slot j = if j = k then x else g.slot j := by
  cases k <;> cases j <;> rfl

section Legs
variable (s : State)

/-- The transfer in a slot may stand in a slot. -/
theorem State.mayHold_of_slot {l : LegNo} {k : Slot} {x y : Transfer} (h : (s.leg l).slot k = some y)
    (e : y.bins = x.bins) : s.mayHold x := .inl ⟨y, s.mem_live.2 ⟨l, k, h⟩, e⟩

/-- A slot is emptied, and other fields of the leg may change. -/
theorem Rearranged.emptySlot (l : LegNo) (k : Slot) (x : Option Summary) :
    Rearranged s (s.setLeg l { (s.leg l).setSlot k none with lastEnded := x }) := by
  have e (j : Slot) : Leg.slot { (s.leg l).setSlot k none with lastEnded := x } j =
      if j = k then none else (s.leg l).slot j := by
    rw [← Leg.slot_setSlot]; cases j <;> rfl
  refine .setLeg s l fun j y hy => ?_
  rw [e] at hy
  split at hy
  · cases hy
  · exact s.mayHold_of_slot hy rfl

end Legs

end Sys2Proof.Machine
end

section
/-! PROOFS. Launches, ends and all that follows them are made of elementary changes (R104, R108 to R116, R122, R123,
R138). -/

namespace Sys2Proof.Machine

/-! ### Becoming active -/

section Active
variable (s : State)

theorem State.setLeg_setLeg (l : LegNo) (g h : Leg) : (s.setLeg l g).setLeg l h = s.setLeg l h := by
  simp [State.setLeg]

theorem State.setLeg_leg (l : LegNo) : s.setLeg l (s.leg l) = s := by
  have : s.legs.set l.val (s.leg l) l.isLt = s.legs := by simp [State.leg, Vector.get]
  unfold State.setLeg; rw [this]

/-- A transfer becomes active on a leg that has been given other waiting transfers (R116). -/
theorem setLeg_enterActive_rearranged (l : LegNo) {g : Leg} {t : Transfer}
    (hg : ∀ k x, k ≠ .active → g.slot k = some x → s.mayHold x) (ht : s.mayHold t) :
    Rearranged s ((s.setLeg l g).enterActive l t) := by
  have put (x : Transfer) (c : LastCarried) (hx : s.mayHold x) :
      Rearranged s ((s.setLeg l g).setLeg l { g with active := some x, lastCarried := c }) := by
    rw [State.setLeg_setLeg]
    refine .setLeg s l fun k y hy => ?_
    cases k with
    | active => cases hy; exact hx
    | buffered => exact hg .buffered y nofun hy
    | suspended => exact hg .suspended y nofun hy
  unfold State.enterActive
  rw [State.leg_setLeg_same]
  extract_lets old time s1
  have h1 : Rearranged s s1 := by
    unfold s1; split
    · exact put { t with state := .running } _ ht
    · exact put { t with state := .cleanout time } g.lastCarried ht
  split
  · exact h1.trans (.setBerth _ _ _)
  · exact h1

theorem enterActive_rearranged (l : LegNo) {t : Transfer} (ht : s.mayHold t) : Rearranged s (s.enterActive l t) := by
  have h := setLeg_enterActive_rearranged s l (g := s.leg l) (fun k x _ hx => s.mayHold_of_slot hx rfl) ht
  rwa [State.setLeg_leg] at h

/-- The ACTIVE transfer moves to SUSPENDED (R113). -/
theorem preempt_rearranged (l : LegNo) : Rearranged s (s.preempt l) := by
  unfold State.preempt; dsimp only; split
  · exact .refl s
  · next t ht =>
    have h1 : Rearranged s
        (s.setLeg l { s.leg l with active := none, suspended := some { t with state := .suspended } }) := by
      refine .setLeg s l fun k x hx => ?_
      cases k with
      | active => cases hx
      | buffered => exact s.mayHold_of_slot (k := .buffered) hx rfl
      | suspended => cases hx; exact s.mayHold_of_slot (k := .active) ht rfl
    split
    · exact h1.trans (.setBerth _ _ _)
    · exact h1

theorem cleanoutDone_rearranged (l : LegNo) : Rearranged s (s.cleanoutDone l) := by
  unfold State.cleanoutDone; dsimp only; split
  · next t ht =>
    split
    · refine .setLeg s l fun k x hx => ?_
      cases k with
      | active => cases hx; exact s.mayHold_of_slot (k := .active) ht rfl
      | buffered => exact s.mayHold_of_slot (k := .buffered) hx rfl
      | suspended => exact s.mayHold_of_slot (k := .suspended) hx rfl
    · exact .refl s
  · exact .refl s

end Active

/-! ### Launches -/

section Launches
variable (s : State)

theorem holdFor_rearranged (t : Transfer) (n : Nat) : Rearranged s (s.holdFor t n) := by
  unfold State.holdFor
  extract_lets s1
  have h1 : Rearranged s s1 := by
    unfold s1; split
    · exact takeClaim_rearranged s _ _
    · exact .refl s
  split
  · exact h1.trans (.setBerth _ _ _)
  · split
    · exact h1.trans (handOver_rearranged _ _ _ _)
    · exact h1.trans (.reserve _ _ _ _ _ _)

/-- A transfer names the bins of the launch that makes it. -/
theorem granted_bins (r : LaunchRequest) (g : Grant) : (s.granted r g).bins = r.binsNamed := by
  unfold LaunchRequest.binsNamed Transfer.bins
  show (match r.source with | .bin b => [b] | .dryer => []) ++ (match r.dest with | .bin b => [b] | .berth _ => []) = _
  cases r.source <;> cases r.dest <;> rfl

/-- A launch whose checks pass names no bin under hold (R108). -/
theorem granted_unheld {r : LaunchRequest} {g : Grant} (h : s.launchChecks r = .ok g) :
    ∀ b ∈ (s.granted r g).bins, (s.bin b).hold = none := by
  intro b hb
  rw [granted_bins] at hb
  have hall := firstFailure_eq_none.1 (launchChecks_ok s h).1 (r.binsNamed.any fun b => (s.bin b).hold.isSome, .protect)
    (by simp [State.permissionChecks])
  simpa using List.any_eq_false.1 hall b hb

theorem commitLaunch_rearranged {r : LaunchRequest} {g : Grant} (h : s.launchChecks r = .ok g) :
    Rearranged s (s.commitLaunch r g) := by
  have hun := granted_unheld s h
  unfold State.commitLaunch
  extract_lets t s1 s2
  have h1 : Rearranged s s1 := (Rearranged.setNextTransfer s _).trans (holdFor_rearranged _ _ _)
  have q1 : Quiet s s1 := (Quiet.setNextTransfer s _).trans (holdFor_quiet _ _ _)
  have h2 : Rearranged s s2 ∧ Quiet s s2 := by
    unfold s2; split
    · exact ⟨h1.trans (preempt_rearranged _ _), q1.trans (preempt_quiet _ _)⟩
    · exact ⟨h1, q1⟩
  have ht : s2.mayHold t := .inr fun b hb => (h2.2.bins b).2.trans (hun b hb)
  split
  · exact h2.1.trans (enterActive_rearranged _ _ ht)
  · refine h2.1.trans (.setLeg s2 _ fun k x hx => ?_)
    cases k with
    | buffered => cases hx; exact ht
    | active => exact s2.mayHold_of_slot (k := .active) hx rfl
    | suspended => exact s2.mayHold_of_slot (k := .suspended) hx rfl

theorem launch_rearranged (r : LaunchRequest) : Rearranged s (s.launch r).1 := by
  obtain ⟨code, limit, _, h⟩ | ⟨g, hg, h⟩ := s.launch_cases r <;> rw [h]
  · exact .refl s
  · exact commitLaunch_rearranged s hg

/-- The dryer's discharge launch, as its request (R92). -/
def State.dischargeRequest (s : State) (b : Batch) : LaunchRequest :=
  { origin := .dryer, leg := s.settings.dryer.dischargeLeg, source := .dryer, dest := .bin b.dest
    kg := (b.portions.map Portion.kg).sum, attr := .ordinary }

/-- What the dryer's try does: nothing without a batch, a flag when it is refused, and otherwise the launch (R92,
R93). -/
theorem tryDischarge_cases : (s.dryer.batch = none ∧ s.tryDischarge = (s, .refused .state none)) ∨
    ∃ b, s.dryer.batch = some b ∧
      ((∃ code limit, s.launchChecks (s.dischargeRequest b) = .error (code, limit) ∧
        s.tryDischarge = (s.raiseIf (code == .protect) flagDischargeHeld, .refused code limit)) ∨
      ∃ g, s.launchChecks (s.dischargeRequest b) = .ok g ∧
        s.tryDischarge = ((s.commitLaunch (s.dischargeRequest b) g).setDryer
          { (s.commitLaunch (s.dischargeRequest b) g).dryer with state := .discharging, discharge := some s.nextId },
          .placed s.nextId g.slot)) := by
  unfold State.tryDischarge
  cases hb : s.dryer.batch with
  | none => exact .inl ⟨rfl, rfl⟩
  | some b =>
    refine .inr ⟨b, rfl, ?_⟩
    obtain ⟨code, limit, hc, h⟩ | ⟨g, hg, h⟩ := s.launch_cases (s.dischargeRequest b)
    · refine .inl ⟨code, limit, hc, ?_⟩
      unfold State.dischargeRequest at h
      dsimp only
      rw [h]
    · refine .inr ⟨g, hg, ?_⟩
      unfold State.dischargeRequest at h ⊢
      dsimp only
      rw [h]
      rfl

theorem tryDischarge_rearranged : Rearranged s s.tryDischarge.1 := by
  obtain ⟨-, h⟩ | ⟨b, -, ⟨code, limit, -, h⟩ | ⟨g, hg, h⟩⟩ := tryDischarge_cases s <;> rw [h]
  · exact .refl s
  · exact .raiseIf s _ _
  · exact (commitLaunch_rearranged s hg).trans (.setDryer _ _ rfl)

/-- A pass that is launched goes on with its entry (R140). -/
theorem launchPass_rearranged {n : EntryNo} {e : Entry} (he : s.entry n = some e) (hw : e.state = .waiting) :
    Rearranged s (s.launchPass n e) := by
  unfold State.launchPass
  extract_lets kg r
  obtain ⟨code, limit, -, h⟩ | ⟨g, hg, h⟩ := s.launch_cases r
  · rw [h]
    dsimp only
    split
    · exact .refl s
    · exact .refl s
    all_goals exact endEntry_rearranged s _ _
  · rw [h]
    have hs := (commitLaunch_examined s (r := r) (g := g) (n := n) (b := e.source) (d := e.dest) rfl rfl rfl
      (Leg.place_preempts (launchChecks_ok s hg).2 nofun)).2
    have hn : (s.commitLaunch r g).entry n = some e := (State.entry_congr hs n).trans he
    refine (commitLaunch_rearranged s hg).trans (.setEntry _ n (State.mayEnter_of_same _ hn rfl rfl fun h => ?_))
    rw [hw] at h; cases h

theorem examine_rearranged : Rearranged s s.examine := by
  refine Rearranged.foldl (fun s n => ?_) _ s
  unfold State.examineEntry; split
  · exact .refl s
  · next e he =>
    split
    · next hc => exact launchPass_rearranged s he hc.1
    · exact .refl s

theorem launchStaged_rearranged (l : LegNo) (x : Staging) : Rearranged s (s.launchStaged l x).1 := by
  have hq := launch_rearranged s (x.request l)
  unfold State.launchStaged; split
  · next u _ _ h =>
    rw [h] at hq
    exact hq.trans (.setLeg u l fun k y hy => u.mayHold_of_slot (l := l) (k := k) (by cases k <;> exact hy) rfl)
  · next h => rw [h] at hq; exact hq.trans (.raiseIf _ _ _)

end Launches

/-! ### Ends -/

section Ends
variable (s : State)

theorem dischargeEnd_rearranged : Rearranged s s.dischargeEnd := by
  unfold State.dischargeEnd; dsimp only; split
  · next h => exact .setDryer s _ (by simp [State.portions, h])
  · next b h =>
    split
    · next hp =>
      refine ((release_rearranged s b.dest .batch).trans (.setDryer _ _ ?_)).trans (.raise _ _)
      have : (s.release b.dest .batch).portions = [] := by simp [State.portions, h, hp]
      rw [this]
      split_ifs <;> rfl
    · exact .setDryer s _ (by simp [State.portions, h])

theorem endReservation_rearranged (t : Transfer) (reason : EndReason) : Rearranged s (s.endReservation t reason) := by
  unfold State.endReservation; split
  · exact .refl s
  · split
    · exact handOver_rearranged s _ _ _
    · exact release_rearranged s _ _

theorem tellEnd_rearranged (t : Transfer) (reason : EndReason) : Rearranged s (s.tellEnd t reason) := by
  unfold State.tellEnd
  extract_lets s1
  have h1 : Rearranged s s1 := by
    unfold s1; split
    · exact dischargeEnd_rearranged s
    · exact passEnd_rearranged s _ _ _
    · exact .refl s
  split
  · exact h1.trans (berthEnd_rearranged _ _ _)
  · exact h1

theorem endSlot_rearranged (l : LegNo) (k : Slot) (reason : EndReason) : Rearranged s (s.endSlot l k reason) := by
  unfold State.endSlot; split
  · exact .refl s
  · next t _ =>
    extract_lets old s1 s2 s3 s4 s5
    have h1 : Rearranged s s1 := .emptySlot s l k _
    have h2 : Rearranged s s2 := by
      unfold s2; split
      · exact h1.trans (dropClaim_rearranged _ _ _)
      · exact h1
    have h3 : Rearranged s s3 := by
      unfold s3; split
      · exact h2.trans (dropBerthClaim_rearranged _ _ _)
      · exact h2
    have h4 : Rearranged s s4 := h3.trans (endReservation_rearranged _ _ _)
    have h5 : Rearranged s s5 := h4.trans (.foldl (fun u b => reevaluate_rearranged u b) _ _)
    exact (h5.trans (.raiseIf _ _ _)).trans (tellEnd_rearranged _ _ _)

/-- A re-planned transfer names the bins it named (R115). -/
theorem replan_bins {t u : Transfer} (h : s.replan t = .ok u) : u.bins = t.bins := by
  unfold State.replan at h
  split at h
  · cases h; rfl
  · split at h
    · cases h
    · dsimp only at h
      split at h
      · cases h
      · cases h; rfl

/-- A waiting transfer is resumed or promoted, or ended (R115, R123). -/
theorem advance_rearranged {l : LegNo} {n : Nat} (ih : ∀ u : State, Rearranged u (u.fillActive l n)) {k : Slot}
    {t : Transfer} (ht : (s.leg l).slot k = some t) :
    Rearranged s (State.fillActive.advance l n t ((s.leg l).setSlot k none) s) := by
  have hrest (j : Slot) (x : Transfer) (hx : ((s.leg l).setSlot k none).slot j = some x) : s.mayHold x := by
    rw [Leg.slot_setSlot] at hx
    split at hx
    · cases hx
    · exact s.mayHold_of_slot hx rfl
  unfold State.fillActive.advance
  split
  · next u hu =>
    exact setLeg_enterActive_rearranged s l (fun j x _ hx => hrest j x hx)
      (s.mayHold_of_slot ht (replan_bins s hu).symm)
  · refine (Rearranged.setLeg s l fun j x hx => ?_).trans ((endSlot_rearranged _ l .active _).trans (ih _))
    cases j with
    | active => cases hx; exact s.mayHold_of_slot ht rfl
    | buffered => exact hrest .buffered x hx
    | suspended => exact hrest .suspended x hx

theorem fillActive_rearranged (l : LegNo) (n : Nat) : Rearranged s (s.fillActive l n) := by
  induction n generalizing s with
  | zero => unfold State.fillActive; exact .refl s
  | succ n ih =>
    unfold State.fillActive; dsimp only; split
    · exact .refl s
    · split
      · next t hs => exact advance_rearranged s ih (k := .suspended) hs
      · next t _ hb => exact advance_rearranged s ih (k := .buffered) hb
      · exact .refl s

theorem settleLeg_rearranged (l : LegNo) : Rearranged s (s.settleLeg l) :=
  (fillActive_rearranged s l 2).trans (.raiseIf _ _ _)

/-- What follows the ends of transfers: the legs settled, the dryer's try, and the examination (R123, R138). -/
theorem State.endTransfers_eq {vs : List Victim} (h : vs ≠ []) :
    Rearranged (vs.foldl (fun t v => t.endSlot v.leg v.slot v.reason) s) (s.endTransfers vs) := by
  unfold State.endTransfers
  rw [if_neg h]
  extract_lets s1 legs s2 s3
  have h2 : Rearranged s1 s2 := .foldl (fun t l => settleLeg_rearranged t l) _ _
  have h3 : Rearranged s1 s3 := by
    unfold s3; split
    · exact h2.trans (tryDischarge_rearranged _)
    · exact h2
  exact h3.trans (examine_rearranged _)

theorem foldl_endSlot_rearranged (vs : List Victim) :
    Rearranged s (vs.foldl (fun t v => t.endSlot v.leg v.slot v.reason) s) :=
  .foldl (fun t (v : Victim) => endSlot_rearranged t v.leg v.slot v.reason) _ s

theorem endTransfers_rearranged (vs : List Victim) : Rearranged s (s.endTransfers vs) := by
  by_cases h : vs = []
  · unfold State.endTransfers; rw [if_pos h]; exact .refl s
  · exact (foldl_endSlot_rearranged s vs).trans (s.endTransfers_eq h)

theorem haltLoading_rearranged (k : BerthNo) (cause : HaltCause) (reason : EndReason) :
    Rearranged s (s.haltLoading k cause reason) := (Rearranged.setBerth s k _).trans (endTransfers_rearranged _ _)

theorem recomputeLimits_rearranged : Rearranged s s.recomputeLimits :=
  (Rearranged.foldl (fun t k => recomputeLimit_rearranged t k) _ s).trans (endTransfers_rearranged _ _)

theorem conditionChanged_rearranged (k : BerthNo) (lost : Bool) (cause : HaltCause) :
    Rearranged s (s.conditionChanged k lost cause) := by
  unfold State.conditionChanged; split
  · exact haltLoading_rearranged s k _ _
  · exact .setBerth s k _

theorem resetTransfers_rearranged : Rearranged s s.resetTransfers := foldl_endSlot_rearranged s _

theorem orderChanged_rearranged (k : BerthNo) : Rearranged s (s.orderChanged k) := by
  unfold State.orderChanged; dsimp only; split
  · split
    · exact .refl s
    · exact .setBerth s k _
  · exact .setBerth s k _

theorem overdraftCheck_rearranged (k : BerthNo) (live : Bool) : Rearranged s (s.overdraftCheck k live) := by
  unfold State.overdraftCheck; dsimp only; split
  · have h1 := (Rearranged.setBerth s k { s.berth k with overLimit := true }).trans
      (.raiseIf _ (!(s.berth k).overLimit) (flagOverdraft k))
    split
    · exact h1.trans (.setBerth _ k _)
    · exact h1
  · exact .refl s

theorem endSchedule_rearranged (n : EntryNo) (e : Entry) (abort : Bool) : Rearranged s (s.endSchedule n e abort) := by
  unfold State.endSchedule
  extract_lets s1
  have h1 : Rearranged s s1 := by
    unfold s1; split
    · exact .refl s
    · exact endEntry_rearranged s n _
  split
  · exact h1.trans (endTransfers_rearranged _ _)
  · exact h1

/-- A leg whose other fields change keeps what its slots hold. -/
theorem Rearranged.setLegFields {l : LegNo} {g : Leg} (h : ∀ k, g.slot k = (s.leg l).slot k) :
    Rearranged s (s.setLeg l g) := .setLeg s l fun k _ hx => s.mayHold_of_slot ((h k).symm.trans hx) rfl

theorem stopLegs_rearranged : Rearranged s s.stopLegs :=
  .foldl (fun t l => (Rearranged.setLegFields t fun k => by cases k <;> rfl).trans (.raiseIf _ _ _)) _ s

theorem dropStagings_rearranged (n : StationNo) : Rearranged s (s.dropStagings n) := by
  refine Rearranged.foldl (fun t l => ?_) _ s
  split
  · exact .setLegFields t fun k => by cases k <;> rfl
  · exact .refl t

end Ends

end Sys2Proof.Machine
end

section
/-! PROOFS. The layer law through every operation (R28): elementary changes, draws, deposits and returned slots, the
dryer's batch, and the starts. -/

namespace Sys2Proof.Machine

/-! ### The law of one bin -/

section Bins
variable {b : BinNo} {x y : Bin}

/-- The same layers with no more slots reserved. -/
theorem Bin.layersFit.of_le (h : x.layersFit b) (hl : y.layers = x.layers) (hr : y.reservedSlots ≤ x.reservedSlots) :
    y.layersFit b := by
  obtain ⟨h1, h2⟩ := h
  exact ⟨by rw [hl]; omega, by rwa [hl]⟩

theorem Bin.layersFit.reevaluate (h : x.layersFit b) : x.reevaluate.layersFit b :=
  h.of_le (Bin.reevaluate_layers x) (Bin.reevaluate_slots x).le

theorem Bin.layersFit_empty (h : x.layersFit b) : ({ x with layers := [] } : Bin).layersFit b := by
  obtain ⟨h1, -⟩ := h
  exact ⟨(Nat.add_le_add_right (Nat.zero_le _) _).trans h1, nofun⟩

/-- A draw from the bottom of the stack (R36). -/
theorem Bin.layersFit.draw (h : x.layersFit b) (q : Nat) :
    ({ x with layers := (drawLayers x.layers q).2 } : Bin).layersFit b := by
  obtain ⟨h1, h2⟩ := h
  refine ⟨?_, (drawLayers_pos x.layers q h2).2⟩
  have := drawLayers_length x.layers q
  show (drawLayers x.layers q).2.length + x.reservedSlots ≤ _
  omega

/-- A holder's kilograms may change. -/
theorem Bin.layersFit.modKg (h : x.layersFit b) (who : HolderRef) (g : Holder → Nat) :
    (x.modHolder who fun h => { h with kg := g h }).layersFit b :=
  h.of_le rfl (slotSum_modFirst_same who (fun h => { h with kg := g h }) (fun _ => rfl) _).le

/-- A deposit that merges makes the top layer heavier (R33). -/
theorem Bin.layersFit.merge (h : x.layersFit b) {rest : List Layer} {top : Layer} (hl : x.layers = rest ++ [top])
    (p : Portion) : (x.merge rest top p).layersFit b := by
  obtain ⟨h1, h2⟩ := h
  rw [hl] at h1 h2
  refine ⟨?_, fun m hm => ?_⟩
  · show (rest ++ [_]).length + x.reservedSlots ≤ _
    simpa using h1
  rcases List.mem_append.1 hm with hm | hm
  · exact h2 m (List.mem_append_left _ hm)
  · obtain rfl := List.mem_singleton.1 hm
    have := h2 top (List.mem_append_right _ List.mem_cons_self)
    show 1 ≤ top.kg + p.kg
    omega

/-- A deposit that makes a layer uses one of the holder's slots (R33). -/
theorem Bin.layersFit.stack (h : x.layersFit b) {who : HolderRef} {y : Holder} (hy : x.held who = some y)
    (hs : y.slots ≠ 0) {p : Portion} (hp : 1 ≤ p.kg) : (x.stack who p).layersFit b := by
  obtain ⟨h1, h2⟩ := h
  have hslots : (x.stack who p).reservedSlots + 1 = x.reservedSlots :=
    slotSum_modFirst_pred hy (Nat.pos_of_ne_zero hs)
  refine ⟨?_, fun m hm => ?_⟩
  · show (x.layers ++ [_]).length + _ ≤ _
    simp only [List.length_append, List.length_singleton]
    omega
  · rcases List.mem_append.1 hm with hm | hm
    · exact h2 m hm
    · obtain rfl := List.mem_singleton.1 hm; exact hp

end Bins

/-! ### The law through the operations of the stack -/

section Law
variable {s t u : State}

/-- The law in terms of the portions the dryer holds. -/
theorem layerLaw_iff : LayerLaw s ↔ (∀ b, (s.bin b).layersFit b) ∧ ∀ p ∈ s.portions, 1 ≤ p.kg := by
  refine and_congr_right fun _ => ?_
  unfold State.portions
  cases s.dryer.batch <;> simp

theorem LayerLaw.portions (h : LayerLaw s) : ∀ p ∈ s.portions, 1 ≤ p.kg := (layerLaw_iff.1 h).2

/-- Bins that each fit, and the portions as they were. -/
theorem LayerLaw.bins (h : LayerLaw s) (hb : ∀ b, (t.bin b).layersFit b) (hp : t.portions = s.portions) : LayerLaw t :=
  layerLaw_iff.2 ⟨hb, by rw [hp]; exact h.portions⟩

/-- Neither the bins nor the batch have changed. -/
theorem LayerLaw.aside (h : LayerLaw s) (hb : t.bins = s.bins) (hd : t.dryer.batch = s.dryer.batch) : LayerLaw t := by
  unfold LayerLaw State.bin at *
  rwa [hb, hd]

theorem LayerLaw.setBin (h : LayerLaw s) {b : BinNo} {x : Bin} (hx : x.layersFit b) : LayerLaw (s.setBin b x) := by
  refine h.bins (fun c => ?_) (by rfl)
  rw [State.bin_setBin]
  split
  · next e => rw [e]; exact hx
  · exact h.1 c

theorem LayerLaw.setDryer (h : LayerLaw s) {d : Dryer} (hd : (d.batch.map Batch.portions).getD [] = s.portions) :
    LayerLaw (s.setDryer d) := h.bins h.1 hd

theorem LayerLaw.raiseIf (h : LayerLaw s) (c : Bool) (f : Flag) : LayerLaw (s.raiseIf c f) := by
  rw [raiseIf_frame]; exact h

/-- A reservation that is granted finds the slots free (R29). -/
theorem LayerLaw.reserve (h : LayerLaw s) (b : BinNo) (who : HolderRef) (i : Identity) (kg n : Nat) :
    LayerLaw (s.reserve b who i kg n) := by
  unfold State.reserve
  split
  · exact h
  · next hc =>
    have free : s.freeSpace b < kg ∨ s.freeSlots b < n ↔ False := by
      have := firstFailure_eq_none.1 hc (decide (s.freeSpace b < kg ∨ s.freeSlots b < n), .noSpace)
        (by simp [State.reserveChecks])
      simpa using this
    have hn : n ≤ s.freeSlots b := by
      by_contra k
      exact free.1 (.inr (by omega))
    obtain ⟨h1, h2⟩ := h.1 b
    refine h.setBin ⟨?_, h2⟩
    have hr : ((s.bin b).reserveFor who i kg n).reservedSlots = (s.bin b).reservedSlots + n := by
      simp [Bin.reserveFor, Bin.reservedSlots]
    rw [hr]
    show (s.bin b).layers.length + _ ≤ _
    unfold State.freeSlots at hn
    omega

/-- Elementary changes keep the law. -/
theorem LayerLaw.rearranged (k : Rearranged s t) (h : LayerLaw s) : LayerLaw t := by
  induction k with
  | refl => exact h
  | trans _ _ ih1 ih2 => exact ih2 (ih1 h)
  | @setBin s b x hg hs => exact h.setBin ((h.1 b).of_le hg.1 hs)
  | reserve s b who i kg n => exact h.reserve b who i kg n
  | setBerth => exact h.aside (by rfl) (by rfl)
  | setLeg => exact h.aside (by rfl) (by rfl)
  | setEntry => exact h.aside (by rfl) (by rfl)
  | setDryer s d hd => exact h.setDryer hd
  | setNextTransfer => exact h.aside (by rfl) (by rfl)
  | raise => exact h.aside (by rfl) (by rfl)

theorem LayerLaw.release (h : LayerLaw s) (b : BinNo) (who : HolderRef) : LayerLaw (s.release b who) :=
  .rearranged (release_rearranged s b who) h

theorem LayerLaw.deposit (h : LayerLaw s) {b : BinNo} {who : HolderRef} {p : Portion} {fromTop : Bool}
    (hp : 1 ≤ p.kg) (hu : s.deposit b who p fromTop = some u) : LayerLaw u := by
  obtain ⟨rest, top, hl, -, -, rfl⟩ | ⟨y, hy, hs, rfl⟩ := deposit_cases s hu
  · exact (h.setBin ((h.1 b).merge hl p)).raiseIf _ _
  · have h1 : LayerLaw (s.setBin b ((s.bin b).stack who p)) := h.setBin ((h.1 b).stack hy hs hp)
    exact LayerLaw.raiseIf (h1.aside (by rfl) (by rfl)) _ _

theorem LayerLaw.draw (h : LayerLaw s) (b : BinNo) (q : Nat) : LayerLaw (s.draw b q).2 := by
  refine h.bins (fun c => ?_) (by rw [draw_frame]; rfl)
  rw [bin_draw]
  split
  · next e => rw [e]; exact ((h.1 b).draw q).reevaluate
  · exact h.1 c

/-! ### Reports -/

theorem LayerLaw.drawPortion (h : LayerLaw s) (x : Nat) : LayerLaw (s.drawPortion x) := by
  unfold State.drawPortion
  split
  · exact h
  next b hb =>
  have hpos : ∀ p ∈ b.portions, 1 ≤ p.kg := h.2 b hb
  split
  · exact h
  next p rest hp =>
  rw [hp] at hpos
  have hrest : ∀ q ∈ rest, 1 ≤ q.kg := fun q hq => hpos q (List.mem_cons_of_mem _ hq)
  split
  · exact layerLaw_iff.2 ⟨h.1, hrest⟩
  · refine layerLaw_iff.2 ⟨h.1, fun q hq => ?_⟩
    rcases List.mem_cons.1 hq with rfl | hq
    · show 1 ≤ p.kg - x; omega
    · exact hrest q hq

/-- The slots of the layers a self-turn has emptied go back to it (R36, R120). -/
theorem LayerLaw.takePiece (h : LayerLaw s) (x : Transfer) (kg : Nat) : LayerLaw (s.takePiece x kg) := by
  unfold State.takePiece
  split
  · exact h.drawPortion kg
  next b _ =>
  have hd := h.draw b kg
  dsimp only
  split
  · obtain ⟨h1, -⟩ := h.1 b
    obtain ⟨-, h2⟩ := hd.1 b
    refine hd.setBin ⟨?_, h2⟩
    have hl := drawLayers_length (s.bin b).layers kg
    rw [← layers_draw] at hl
    have hr : ((s.draw b kg).2.bin b).reservedSlots = (s.bin b).reservedSlots := by
      rw [bin_draw, if_pos rfl]; exact Bin.reevaluate_slots _
    have hadd := slotSum_modFirst_add (.transfer x.id)
      ((s.bin b).layers.length - ((s.draw b kg).2.bin b).layers.length) ((s.draw b kg).2.bin b).holders
    show ((s.draw b kg).2.bin b).layers.length + slotSum (modFirst _ _ _) ≤ _
    have hs : slotSum ((s.draw b kg).2.bin b).holders = (s.bin b).reservedSlots := hr
    omega
  · exact hd

/-- The next piece of a source is a layer or a portion, of 1 kg at least. -/
theorem LayerLaw.nextPiece (h : LayerLaw s) {src : Source} {p : Portion} (hp : s.nextPiece src = some p) : 1 ≤ p.kg := by
  unfold State.nextPiece at hp
  split at hp
  · next b =>
    obtain ⟨l, hl, rfl⟩ := Option.map_eq_some_iff.1 hp
    exact (h.1 b).2 l (List.mem_of_mem_head? hl)
  · exact h.portions p (List.mem_of_mem_head? hp)

theorem LayerLaw.movePiece (h : LayerLaw s) {x : Transfer} {p : Portion} {kg : Nat} (hk : 1 ≤ kg)
    (hm : s.movePiece x p kg = some u) : LayerLaw u := by
  have ht := h.takePiece x kg
  unfold State.movePiece at hm
  dsimp only at hm
  split at hm
  · split at hm
    · cases hm
    · cases hm; rw [loadPiece_frame]; exact ht
  · next d _ =>
    obtain ⟨v, hv, rfl⟩ := Option.map_eq_some_iff.1 hm
    have hd : LayerLaw v := ht.deposit hk hv
    exact hd.setBin ((hd.1 d).modKg _ _)

theorem LayerLaw.movePieces (h : LayerLaw s) (x : Transfer) (rounds movable : Nat) :
    LayerLaw (s.movePieces x rounds movable).2 :=
  movePieces_induction (R := fun _ s u => LayerLaw s → LayerLaw u) (fun _ => id)
    (fun _ _ _ _ _ _ hn _ hpos h1 _ hr hs => hr (hs.movePiece (hpos (hs.nextPiece hn)) h1)) _ _ s h

theorem closeReport_rearranged (l : LegNo) (x : Transfer) (reason : Option EndReason) :
    Rearranged s (s.closeReport l x reason) := by
  unfold State.closeReport
  extract_lets s1
  have h1 : Rearranged s s1 := by
    unfold s1; split
    · exact overdraftCheck_rearranged s _ _
    · exact .refl s
  split
  · exact h1.trans (endTransfers_rearranged _ _)
  · exact h1

theorem LayerLaw.flowReport (h : LayerLaw s) (l : LegNo) (x : Transfer) (kg : Nat) :
    LayerLaw (s.flowReport l x kg).1 := by
  rw [flowReport_eq]
  have hm : LayerLaw (s.moveReport l x kg).2 :=
    LayerLaw.raiseIf ((h.movePieces x _ _).aside (by rfl) (by rfl)) _ _
  exact .rearranged (closeReport_rearranged _ _ _) hm

/-! ### Tickets and bins -/

theorem LayerLaw.closeTicket (h : LayerLaw s) (x : Ticket) (tare : Nat) : LayerLaw (s.closeTicket x tare) := by
  unfold State.closeTicket
  split
  · exact h
  next a _ =>
  extract_lets net grain who s1 s2
  have h1 : LayerLaw s1 := by
    unfold s1
    split
    · exact h
    · next hn =>
      split
      · next u hu => exact (h.deposit (Nat.pos_of_ne_zero hn) hu).raiseIf _ _
      · exact h
  have h2 : LayerLaw s2 := h1.aside (by rfl) (by rfl)
  exact (h2.release a.dest who).aside (by rfl) (by rfl)

theorem LayerLaw.voidTicket (h : LayerLaw s) (x : Ticket) : LayerLaw (s.voidTicket x) := by
  cases e : x.assignment with
  | none => rw [voidTicket_unassigned s e]; exact h
  | some a => rw [voidTicket_assigned s e]; exact (h.release a.dest _).aside (by rfl) (by rfl)

theorem LayerLaw.expireTicket (h : LayerLaw s) (x : Ticket) : LayerLaw (s.expireTicket x) := by
  unfold State.expireTicket
  dsimp only
  split
  · exact (h.closeTicket x _).aside (by rfl) (by rfl)
  · exact (h.voidTicket x).aside (by rfl) (by rfl)

/-- A fold of operations that each keep the law. -/
theorem LayerLaw.foldl {α : Type} {f : State → α → State} (hf : ∀ s a, LayerLaw s → LayerLaw (f s a)) (xs : List α)
    (h : LayerLaw s) : LayerLaw (xs.foldl f s) := by
  induction xs generalizing s with
  | nil => exact h
  | cons a xs ih => exact ih (hf s a h)

theorem LayerLaw.expireOverdue (h : LayerLaw s) : LayerLaw s.expireOverdue :=
  h.foldl (fun _ x hs => hs.expireTicket x) _

theorem LayerLaw.returnTicket (h : LayerLaw s) (x : Ticket) : LayerLaw (s.returnTicket x) := by
  unfold State.returnTicket
  split
  · exact h
  · next a _ => exact (h.release a.dest _).aside (by rfl) (by rfl)

theorem LayerLaw.assign (h : LayerLaw s) (x : Ticket) (g : Grade) (b : BinNo) (r : BindResult) :
    LayerLaw (s.assign x g b r) := by
  unfold State.assign
  dsimp only
  have h1 : LayerLaw (s.bindTo r g.cls (s.estimate x)) := by rw [bindTo_frame]; exact h
  exact (h1.reserve b _ _ _ _).aside (by rfl) (by rfl)

theorem LayerLaw.sweep (h : LayerLaw s) (b : BinNo) : LayerLaw (s.sweep b) := by
  unfold State.sweep
  dsimp only
  rw [foldl_modLot_frame]
  exact LayerLaw.setBin (s := { s with lots := _ }) h (Bin.layersFit_empty (h.1 b)).reevaluate

/-- A change of a bin that leaves its layers and its holders. -/
theorem LayerLaw.mark (h : LayerLaw s) {b : BinNo} {x : Bin} (hl : x.layers = (s.bin b).layers)
    (hh : x.holders = (s.bin b).holders) : LayerLaw (s.setBin b x) :=
  h.setBin ((h.1 b).of_le hl (by unfold Bin.reservedSlots; rw [hh]))

theorem LayerLaw.setTemp (h : LayerLaw s) (b : BinNo) (x : TempFields) :
    LayerLaw (s.setBin b { s.bin b with temp := x }) := .rearranged (setTemp_rearranged s b x) h

theorem LayerLaw.imposeHold (h : LayerLaw s) (b : BinNo) (x : BinHold) : LayerLaw (s.imposeHold b x) := by
  unfold State.imposeHold
  have h1 : LayerLaw ((s.setBin b { s.bin b with hold := some x }).holdEntries b) :=
    .rearranged (holdEntries_rearranged _ b) (h.mark rfl rfl)
  exact .rearranged (endTransfers_rearranged _ _) (h1.foldl (fun _ y hs => hs.returnTicket y) _)

theorem LayerLaw.liftHold (h : LayerLaw s) (b : BinNo) : LayerLaw (s.liftHold b) := by
  unfold State.liftHold
  dsimp only
  split
  · exact .rearranged (tryDischarge_rearranged _) (h.mark rfl rfl)
  · exact h.mark rfl rfl

/-- Every operation of the intake keeps the layer law. -/
theorem IntakeOperation.layers (k : IntakeOperation s t) (h : LayerLaw s) : LayerLaw t := by
  cases k with
  | closeReceivingLots | closeLot | holdLot | amendLot | retireLot | setLotSize | setScale | gradeTicket | dump
  | storeTare | forgetVehicle => exact h.aside (by rfl) (by rfl)
  | setBinSettings b x => exact LayerLaw.raiseIf (s := s.setBinSet b x) (h.aside (by rfl) (by rfl)) _ _
  | replaceHold b x _ => exact h.mark rfl rfl
  | imposeHold b x _ => exact h.imposeHold b x
  | liftHold b => exact h.liftHold b
  | sweep b _ _ => exact h.sweep b
  | setChannel c x p => exact LayerLaw.raiseIf (s := s.setChannel c x) (h.aside (by rfl) (by rfl)) _ _
  | openTicket c cls w _ _ =>
    refine h.aside ?_ ?_ <;> (unfold State.openTicket State.register; split <;> rfl)
  | gradeNoSpace x g p _ _ _ => exact LayerLaw.raiseIf (s := s.modTicket _ _) (h.aside (by rfl) (by rfl)) _ _
  | gradeAndAssign st x g b r u _ _ _ hu _ _ _ =>
    exact LayerLaw.assign (by rw [hu]; exact h.aside (by rfl) (by rfl)) x g b r
  | assign st x g b r => exact h.assign x g b r
  | dumpAndClose x tare r _ _ =>
    exact (LayerLaw.closeTicket (s := s.modTicket _ _) (h.aside (by rfl) (by rfl)) x tare).aside (by rfl) (by rfl)
  | weighOut tag x kg r _ _ => exact (h.closeTicket x kg).aside (by rfl) (by rfl)
  | reject tag x r _ _ => exact (h.voidTicket x).aside (by rfl) (by rfl)
  | void x r _ _ => exact (h.voidTicket x).aside (by rfl) (by rfl)
  | expire x _ => exact h.expireTicket x
  | setIntake x =>
    cases x with
    | ticketTimeout n => exact LayerLaw.expireOverdue (h.aside (by rfl) (by rfl))
    | _ => exact h.aside (by rfl) (by rfl)

/-! ### The dryer, the legs and the schedules -/

theorem LayerLaw.charge (h : LayerLaw s) (c : Charge) (tank dest : BinNo) (i : Identity) :
    LayerLaw (s.charge c tank dest i) := by
  unfold State.charge
  extract_lets plan need r s1 s2
  have h1 : LayerLaw s1 := by
    unfold s1
    rw [foldl_modLot_frame]
    exact h.draw tank plan.granted
  have h2 : LayerLaw s2 := h1.reserve _ _ _ _ _
  exact layerLaw_iff.2 ⟨h2.1, (drawLayers_pos _ plan.granted (h.1 tank).2).1⟩

/-- A dried portion of 0 kg is left out of the batch (R91). -/
theorem LayerLaw.dryBatch (h : LayerLaw s) (b : Batch) (reported : Nat) : LayerLaw (s.dryBatch b reported) := by
  rw [dryBatch_eq, foldl_modLot_frame, driedFlags_frame]
  refine layerLaw_iff.2 ⟨h.1, fun p hp => ?_⟩
  have hne := (List.mem_filter.1 hp).2
  exact Nat.one_le_iff_ne_zero.2 (by simpa using hne)

/-- Every operation of the dryer, the legs and the schedules keeps the layer law. -/
theorem TransferOperation.layers (k : TransferOperation s t) (h : LayerLaw s) : LayerLaw t := by
  cases k with
  | warmUp | setStop | stopDryer | suspendDryer => exact h.setDryer rfl
  | clearFault => split <;> exact h.setDryer rfl
  | charge st c tank dest i _ _ => exact h.charge c tank dest i
  | batchDried b reported _ _ => exact .rearranged (tryDischarge_rearranged _) (h.dryBatch b reported)
  | discharge stop _ => exact .rearranged (tryDischarge_rearranged _) (h.setDryer rfl)
  | faultDryer _ _ =>
    have h1 : LayerLaw ((s.setDryer { s.dryer with
        state := .fault, warmUp := none, returnMark := false, autoDischarge := false }).raise flagDryerFault) :=
      h.setDryer (by rfl)
    exact .rearranged (endTransfers_rearranged _ _) h1
  | setDryerSettings | markClean | setCleanout | setRotation | setStaging => exact h.aside (by rfl) (by rfl)
  | warmUpExpired =>
    unfold State.warmUpExpired
    split
    · split <;> exact h.setDryer rfl
    · exact h
  | dryingExpired =>
    unfold State.dryingExpired
    split
    · split
      · exact h
      · exact h.setDryer rfl
    · exact h
  | launchStaged l x _ => exact .rearranged (launchStaged_rearranged s l x) h
  | flowReport l x kg _ _ => exact h.flowReport l x kg
  | abort l k => exact .rearranged (endTransfers_rearranged s _) h
  | cleanoutDone l => exact .rearranged (cleanoutDone_rearranged s l) h
  | reportTemperature b z =>
    unfold State.reportTemperature
    have h0 : LayerLaw (s.takeReading b z) := .rearranged (evaluateHot_rearranged _ b) (h.setTemp b _)
    have h1 : LayerLaw ((s.takeReading b z).freshen b) := h0.setTemp b _
    dsimp only
    split
    · exact .rearranged (examine_rearranged _) h1
    · exact h1
  | setSchedule n r a b l _ _ _ =>
    have h1 : LayerLaw (s.setEntry n (some (r.toEntry a b l))) := h.aside (by rfl) (by rfl)
    exact .rearranged (examine_rearranged _) h1
  | endSchedule n e abort _ => exact .rearranged (endSchedule_rearranged s n e abort) h
  | staleExpired b =>
    unfold State.staleExpired
    dsimp only
    split
    · exact .rearranged (examine_rearranged _) (.rearranged (.raise _ _) (h.setTemp b _))
    · exact h

end Law

end Sys2Proof.Machine
end

section
/-! PROOFS. The layer law through the berths' operations, the starts and the clock, and so through every step (R28). -/

namespace Sys2Proof.Machine

section Law
variable {s t : State}

theorem settleReady_rearranged (s : State) (k : BerthNo) : Rearranged s (s.settleReady k) := .setBerth s k _

/-- Every operation of the berths and the river keeps the layer law. -/
theorem BerthOperation.layers (k : BerthOperation s t) (h : LayerLaw s) : LayerLaw t := by
  have berth (j : BerthNo) (x : Berth) : LayerLaw (s.setBerth j x) := h.aside (by rfl) (by rfl)
  cases k with
  | acceptBarge k g _ =>
    unfold State.acceptBarge
    exact .rearranged (recomputeLimit_rearranged _ k) (berth k _)
  | setOrder k o _ _ => exact .rearranged (orderChanged_rearranged _ k) (berth k _)
  | setPlan k qs _ _ _ => exact .rearranged (orderChanged_rearranged _ k) (berth k _)
  | setEnable k v => exact .rearranged (conditionChanged_rearranged _ k _ _) (berth k _)
  | commandSpout k n select _ _ _ => exact .rearranged (settleReady_rearranged _ k) (berth k _)
  | spoutArrived k n _ =>
    exact .rearranged (settleReady_rearranged _ k) (.rearranged (.raiseIf _ _ _) (berth k _))
  | spoutExpired k =>
    unfold State.spoutExpired; dsimp only; split
    · exact .rearranged (settleReady_rearranged _ k) (.rearranged (.raise _ _) (berth k _))
    · exact h
  | resumeBerth k _ _ => exact .rearranged (completionTest_rearranged s k) h
  | releaseBarge k _ _ =>
    unfold State.releaseBarge
    rw [foldl_modLot_frame]
    exact h.aside (by rfl) (by rfl)
  | readStage z => exact .rearranged (recomputeLimits_rearranged _) (h.aside (by rfl) (by rfl))
  | riverExpired =>
    unfold State.riverExpired; split
    · exact .rearranged (recomputeLimits_rearranged _) (h.aside (by rfl) (by rfl))
    · exact h
  | setRiver x =>
    unfold State.setRiver; dsimp only; split
    · exact h.aside (by rfl) (by rfl)
    · exact .rearranged (recomputeLimits_rearranged _) (h.aside (by rfl) (by rfl))
  | presentChanged k v =>
    unfold State.presentChanged; split
    · exact h
    · exact .rearranged (conditionChanged_rearranged _ k _ _) (.rearranged (.raise _ _) (berth k _))
  | mooredChanged k v =>
    unfold State.mooredChanged; split
    · exact h
    · exact .rearranged (conditionChanged_rearranged _ k _ _) (.rearranged (.raise _ _) (berth k _))
  | buttonPressed k =>
    unfold State.buttonPressed; split
    · exact h
    · exact .rearranged (.raise _ _) (berth k _)
  | buttonReleased k => exact berth k _

/-! ### The starts and the clock -/

theorem LayerLaw.abandonCommit (h : LayerLaw s) : LayerLaw s.abandonCommit := by rw [abandonCommit_frame]; exact h

theorem LayerLaw.loadSettings (h : LayerLaw s) : LayerLaw s.loadSettings := by rw [loadSettings_frame]; exact h

theorem LayerLaw.losePower (h : LayerLaw s) : LayerLaw s.losePower := h.abandonCommit.aside (by rfl) (by rfl)

/-- A machine whose bins are empty and whose dryer holds no batch. -/
theorem LayerLaw.fresh (hb : t.bins = State.reset.bins) (hd : t.dryer = State.reset.dryer) : LayerLaw t := by
  refine layerLaw_iff.2 ⟨fun b => ?_, ?_⟩
  · have : t.bin b = Bin.cold := by rw [← State.reset_bin b]; unfold State.bin; rw [hb]
    rw [this]; exact ⟨Nat.zero_le _, nofun⟩
  · unfold State.portions; rw [hd]; exact nofun

theorem LayerLaw.coldStart (s : State) (p : Pins) : LayerLaw (s.coldStart p) := by
  unfold State.coldStart
  extract_lets s2 cold s3
  have h3 : LayerLaw s3 := .fresh (by rfl) (by rfl)
  have h4 : LayerLaw ((s3.readLines p).clearAllFlags.enableAll.raise flagStartCold) := h3.aside (by rfl) (by rfl)
  exact h4.raiseIf _ _

/-- The bins a warm start carries over keep their layers and holders (R193). -/
theorem LayerLaw.warmRecords (h : LayerLaw s) (p : Pins) : LayerLaw (s.warmRecords p) := by
  unfold State.warmRecords
  extract_lets s1 sized s2
  have h1 : LayerLaw s1 := (LayerLaw.rearranged (resetTransfers_rearranged s) h).aside (by rfl) (by rfl)
  have h2 : LayerLaw s2 := by
    refine h1.bins (fun b => ?_) (by rfl)
    have : s2.bin b = s1.carryTemp (s1.bin b) := by simp [s2, State.bin, Vector.get]
    rw [this]; exact h1.1 b
  have h3 : LayerLaw (s2.readLines p) := h2.aside (by rfl) (by rfl)
  exact .rearranged (.foldl (fun t k => recomputeLimit_rearranged t k) _ _) h3

theorem LayerLaw.warmStart (h : LayerLaw s) (p : Pins) : LayerLaw (s.warmStart p) := by
  unfold State.warmStart
  extract_lets s2 s3 s5
  have h2 : LayerLaw s2 := h.abandonCommit.loadSettings
  have h3 : LayerLaw s3 := (h2.warmRecords p).aside (by rfl) (by rfl)
  have h5 : LayerLaw s5 := LayerLaw.raiseIf (s := s3.clearAllFlags.raise flagStartWarm) (h3.aside (by rfl) (by rfl)) _ _
  unfold State.completeWarm
  refine .rearranged (examine_rearranged _) (.rearranged (.foldl (fun u k => .raise u _) _ _) ?_)
  exact h5.expireOverdue.foldl (fun u b hu => .rearranged (.raise _ _) (hu.setTemp b _)) _

theorem LayerLaw.tick (h : LayerLaw s) : LayerLaw s.tick := by
  unfold State.tick
  split
  · have hc : LayerLaw s.countDown := by
      refine h.bins (fun b => ?_) (by rfl)
      have : s.countDown.bin b = (s.bin b).countDown := by simp [State.countDown, State.bin, Vector.get]; rfl
      rw [this]; exact h.1 b
    exact hc.aside (by rfl) (by rfl)
  · exact h.aside (by rfl) (by rfl)

/-- Every operation of stations, flags, the store, time and the starts keeps the layer law. -/
theorem SystemOperation.layers (k : SystemOperation s t) (h : LayerLaw s) : LayerLaw t := by
  cases k with
  | unchanged => exact h
  | raise | lower | setEnables | setTime | resetPart | releaseEstop | releaseReset | setBackupLost | setStation |
    beginCommit => exact h.aside (by rfl) (by rfl)
  | dropStation n x _ => exact .rearranged (dropStagings_rearranged _ n) (h.aside (by rfl) (by rfl))
  | commitEnds =>
    unfold State.commitEnds; split
    · exact h
    · rw [State.setBank_frame]; exact h
  | commitFails =>
    unfold State.commitFails; split
    · exact h
    · rw [State.setBank_frame]; exact h
  | assertEstop =>
    unfold State.assertEstop
    split
    · exact h
    · have hb : s.dryer.stopped.batch = s.dryer.batch := by unfold Dryer.stopped; split <;> rfl
      have h1 : LayerLaw { s with estop := true, dryer := s.dryer.stopped } := h.aside (by rfl) hb
      exact .rearranged ((stopLegs_rearranged _).trans (endTransfers_rearranged _ _)) h1
  | losePower => exact h.losePower
  | warmStart p => exact h.warmStart p
  | warmReturn p => exact h.losePower.warmStart p
  | coldReturn p => exact .coldStart _ p

/-! ### Every step -/

theorem Operation.layers (k : Operation s t) (h : LayerLaw s) : LayerLaw t := by
  cases k with
  | intake k => exact k.layers h
  | transfer k => exact k.layers h
  | berth k => exact k.layers h
  | system k => exact k.layers h

/-- Settles O4: every operation keeps the layer law, and so does a second of the clock. -/
theorem everyStepKeepsTheLayerLaw : Obligations.EveryStepKeepsTheLayerLaw := by
  intro s t h hs
  rcases step_operation hs with e | ⟨rest, v, r, q, ho, e⟩
  · rw [e]; exact h.tick
  · have h0 : LayerLaw { s with pending := rest } := h
    rw [e]; exact ho.layers h0

end Law

end Sys2Proof.Machine
end

section
/-! PROOFS. The requests of the bins (R23, R24, R40 to R42), and the laws of the state right after reset. -/

namespace Sys2Proof.Machine

/-! ### The state right after reset -/

section Reset

theorem State.reset_leg (l : LegNo) : State.reset.leg l = Leg.cold := by simp [State.reset, State.leg, Vector.get]

theorem State.reset_live : State.reset.live = [] := by
  refine List.eq_nil_iff_forall_not_mem.2 fun x hx => ?_
  obtain ⟨l, k, h⟩ := State.reset.mem_live.1 hx
  rw [State.reset_leg] at h
  cases k <;> cases h

/-- A berth without a barge stands as it must. -/
theorem State.reset_berthStands (k : BerthNo) : State.reset.BerthStands k := by
  have hb := State.reset_berth k
  constructor <;> rw [hb]
  case loading =>
    refine ⟨nofun, fun ⟨l, h⟩ => ?_⟩
    rw [State.reset_leg] at h
    cases h
  case vacant => exact ⟨fun _ => rfl, fun _ => rfl⟩
  case positions => rintro n (h | h) <;> cases h
  all_goals decide

theorem State.reset_books : Books State.reset :=
  .fresh rfl rfl rfl rfl rfl (by
    have factory : Settings.factory.handlingFits := factory_handling
    exact ⟨factory, by unfold Settings.handlingFits; decide, by unfold Settings.handlingFits; decide, nofun⟩)

/-- Settles O3: reset has no lot, layer, ticket, transfer, batch or barge that could break a law. -/
theorem resetKeepsEveryLaw : Obligations.ResetKeepsEveryLaw := by
  have table : TableLaw State.reset := ⟨.nil, .nil⟩
  have books := State.reset_books
  have noTransfer {P : Transfer → Prop} : ∀ x ∈ State.reset.live, P x := by simp [State.reset_live]
  refine ⟨.fresh rfl rfl, fun l _ => ?slots, nofun, rfl, ?port, table, ⟨?tags, ?room, nofun⟩, nofun,
    fun k => ?manifest, ?ids, noTransfer, ⟨noTransfer, noTransfer, nofun, ?discharging⟩,
    ⟨noTransfer, State.reset_berthStands⟩, (accountLaw_iff table).2 ⟨books.ledger, books.bookings, books.handling⟩⟩
  case slots => rw [State.reset_leg]; exact ⟨rfl, rfl⟩
  case port => exact ⟨nofun, nofun⟩
  case tags => exact .nil
  case room => decide
  case manifest => rw [State.reset_berth]; exact ⟨rfl, .nil, Nat.zero_le _⟩
  case ids => unfold IdLaw; rw [State.reset_live]; exact .nil
  case discharging => decide

end Reset

/-! ### Set Bin Settings, Clear Bin Hold and Sweep Close -/

section Bins
variable {s : State}

theorem State.binSet_setBinSet_same (s : State) (b : BinNo) (x : BinSettings) : (s.setBinSet b x).binSet b = x :=
  get_set_same _ _ _

/-- Settles O23. -/
theorem setBinSettingsWritesFiveValues : Obligations.SetBinSettingsWritesFiveValues := by
  intro s f b x h hd hc hh hr ht hi
  have mismatch : (isTank b && x.autoTurn) = false := by
    cases e : isTank b with
    | false => rfl
    | true => exact ht e
  have appears : (!s.overfull b && (s.setBinSet b x).overfull b) =
      decide ((s.bin b).contents ≤ (s.binSet b).capacity ∧ x.capacity < (s.bin b).contents) := by
    have same : (s.setBinSet b x).bin b = s.bin b := rfl
    rw [Bool.eq_iff_iff]
    simp [State.overfull, State.binSet_setBinSet_same, same]
  refine answered_of_act h hd ?_
  simp [actSetBinSettings, unlessFails, firstFailure, hc, hh, hr, mismatch, State.committing_eq_false.2 hi, accept,
    State.noteOverfull, appears]

/-- Settles O25. -/
theorem clearBinHoldRemovesTheHold : Obligations.ClearBinHoldRemovesTheHold := by
  intro s f b h hd
  refine (answered_of_heard h hd).trans ?_
  simp only [actClearBinHold, index_val]
  cases (s.bin b).hold with
  | none => rfl
  | some r =>
    have check : (s.grader f.station && r != .quality) = decide ((s.station f.station).cls = .grader ∧ r ≠ .quality) := by
      rw [Bool.eq_iff_iff]; simp [State.grader_iff]
    dsimp only
    rw [check]
    by_cases hg : (s.station f.station).cls = .grader ∧ r ≠ .quality
    · rw [if_pos hg, decide_eq_true hg]; rfl
    · rw [if_neg hg, decide_eq_false hg]; rfl

theorem Bin.fillOwner_of_none {x : Bin} (h : x.holders = []) : x.fillOwner = .none := by unfold Bin.fillOwner; rw [h]

/-- Settles O26: the hold is the first of the two checks. -/
theorem sweepCloseRefusalsInOrder : Obligations.SweepCloseRefusalsInOrder := by
  intro s f b h hd
  constructor
  · intro held
    exact answered_of_act h hd (by simp [actSweepClose, unlessFails, firstFailure, held, refuse])
  · intro free busy
    have hb : ((s.bin b).fillOwner != .none || (s.bin b).claim.isSome) = true := by simpa using busy
    exact answered_of_act h hd (by simp [actSweepClose, unlessFails, firstFailure, free, hb, refuse])

/-- The lots after a sweep: each layer of the bin is posted to its own (R42). -/
theorem lot?_sweep (s : State) (b : BinNo) (n : Nat) : (s.sweep b).lot? n = (s.lot? n).map fun l =>
    let mine := (s.bin b).layers.filter fun x => x.lot == n
    { l with
      writtenOff := l.writtenOff + (mine.map Layer.kg).sum
      standing := l.standing - (mine.map Layer.kg).sum
      layerCount := l.layerCount - mine.length } := by
  refine (State.lot?_foldl_modLot s _ Layer.lot (fun l : Layer => Lot.writeOff l.kg) (fun _ _ => rfl) n).trans ?_
  simp only [foldl_writeOff]

/-- A sweep in full: lots, and one bin (R42). -/
theorem sweep_frame (s : State) (b : BinNo) : s.sweep b =
    { s with lots := (s.sweep b).lots, bins := (s.setBin b { s.bin b with layers := [] }.reevaluate).bins } := by
  unfold State.sweep
  dsimp only
  rw [foldl_modLot_frame (s.bin b).layers Layer.lot (fun l : Layer => Lot.writeOff l.kg)]
  rfl

/-- Settles O27: nothing stands in the bin, holds it or claims it afterwards, so its identity goes (R27). -/
theorem sweepCloseWritesOffEveryLayer : Obligations.SweepCloseWritesOffEveryLayer := by
  intro s f b h hd hold free claim
  have hbin (c : BinNo) : (s.sweep b).bin c =
      if c = b then { s.bin b with layers := [] }.reevaluate else s.bin c := by
    rw [sweep_frame]; exact s.bin_setBin b _ c
  refine ⟨s.sweep b, answered_of_act h hd ?_, by rw [sweep_frame], ?_, fun c hc => ?_, lot?_sweep s b⟩
  · simp [actSweepClose, unlessFails, firstFailure, hold, Bin.fillOwner_of_none free, claim, accept]
  · rw [hbin, if_pos rfl, Bin.reevaluate_eq, if_pos ⟨rfl, free, claim⟩]
  · rw [hbin, if_neg hc]

end Bins

end Sys2Proof.Machine
end

section
/-! PROOFS. A hold set on a bin (R37 to R39): what it clears stays clear through the launches and examinations that
follow the ends it makes. -/

namespace Sys2Proof.Machine

/-! ### Bins whose work is cleared -/

/-- The bin is under hold, and no live transfer names it. -/
def State.transfersClear (s : State) (b : BinNo) : Prop := (s.bin b).hold.isSome = true ∧ ∀ x ∈ s.live, b ∉ x.bins

/-- The bin is under hold, and the entry has ended if it names it. -/
def State.entryClear (s : State) (b : BinNo) (n : EntryNo) : Prop :=
  (s.bin b).hold.isSome = true ∧ ∀ e, s.entry n = some e → e.names b = true → e.state = .ended

section Clear
variable {s t : State} {b : BinNo} {n : EntryNo}

/-- Elementary changes leave every hold. -/
theorem Rearranged.hold (k : Rearranged s t) (b : BinNo) : (t.bin b).hold = (s.bin b).hold := by
  induction k with
  | refl | setBerth | setLeg | setEntry | setDryer | setNextTransfer | raise => rfl
  | trans _ _ ih1 ih2 => exact ih2.trans ih1
  | @setBin s c x hg _ =>
    rw [State.bin_setBin]; split
    · next e => rw [e]; exact hg.2
    · rfl
  | reserve s c who i kg m =>
    unfold State.reserve; split
    · rfl
    · rw [State.bin_setBin]; split
      · next e => rw [e]; rfl
      · rfl

theorem reserve_frame (s : State) (b : BinNo) (who : HolderRef) (i : Identity) (kg n : Nat) :
    s.reserve b who i kg n = { s with bins := (s.reserve b who i kg n).bins } := by
  unfold State.reserve; split <;> rfl

theorem State.transfersClear.congr (h : s.transfersClear b) (hh : (t.bin b).hold = (s.bin b).hold)
    (hl : t.legs = s.legs) : t.transfersClear b := by
  unfold State.transfersClear; rwa [hh, State.live_congr hl]

theorem State.entryClear.congr (h : s.entryClear b n) (hh : (t.bin b).hold = (s.bin b).hold)
    (hn : t.entry n = s.entry n) : t.entryClear b n := by
  unfold State.entryClear; rwa [hh, hn]

/-- A transfer comes into a slot only when it was live or its bins are under no hold. -/
theorem State.transfersClear.rearranged (h : s.transfersClear b) (k : Rearranged s t) : t.transfersClear b := by
  induction k with
  | trans _ _ ih1 ih2 => exact ih2 (ih1 h)
  | setLeg s l hg =>
    refine ⟨h.1, fun x hx hb => ?_⟩
    obtain ⟨l', k, hk⟩ := (State.mem_live _).1 hx
    rw [State.leg_setLeg] at hk
    split at hk
    · rcases hg k x hk with ⟨y, hy, e⟩ | hfree
      · exact h.2 y hy (e ▸ hb)
      · have := h.1; rw [hfree b hb] at this; cases this
    · exact h.2 x (s.mem_live.2 ⟨l', k, hk⟩) hb
  | reserve s c who i kg m => exact h.congr ((Rearranged.reserve s c who i kg m).hold b) (by rw [reserve_frame])
  | setBin s hg hs => exact h.congr ((Rearranged.setBin s hg hs).hold b) rfl
  | refl | setBerth | setEntry | setDryer | setNextTransfer | raise => exact h

/-- An entry is written only when it has ended, goes on, or its bins are under no hold. -/
theorem State.entryClear.rearranged (h : s.entryClear b n) (k : Rearranged s t) : t.entryClear b n := by
  induction k with
  | trans _ _ ih1 ih2 => exact ih2 (ih1 h)
  | @setEntry s m e he =>
    refine ⟨h.1, fun f hf hb => ?_⟩
    rw [State.entry_setEntry] at hf
    split at hf
    · next hm =>
      cases hf
      rcases he with he | ⟨g, hg, hne, hs, hd⟩ | hfree
      · exact he
      · have named : g.names b = true := by unfold Entry.names at hb ⊢; rwa [hs, hd]
        exact absurd (h.2 g (hm ▸ hg) named) hne
      · have := h.1; rw [hfree b hb] at this; cases this
    · exact h.2 f hf hb
  | reserve s c who i kg m =>
    exact h.congr ((Rearranged.reserve s c who i kg m).hold b) (State.entry_congr (by rw [reserve_frame]) n)
  | setBin s hg hs => exact h.congr ((Rearranged.setBin s hg hs).hold b) rfl
  | refl | setBerth | setLeg | setDryer | setNextTransfer | raise => exact h

end Clear

/-! ### Transfers ended by a hold -/

section Ended
variable (s : State)

theorem tellEnd_legs (x : Transfer) (reason : EndReason) : (s.tellEnd x reason).legs = s.legs := by
  unfold State.tellEnd
  extract_lets s1
  have h : s1.legs = s.legs := by
    unfold s1; split
    · exact (dischargeEnd_untouched s).1
    · exact (passEnd_untouched s _ _ _).1
    · rfl
  split
  · exact (berthEnd_legs _ _ _).trans h
  · exact h

theorem endSlot_slot (l : LegNo) (k : Slot) (reason : EndReason) (l' : LegNo) (k' : Slot) :
    ((s.endSlot l k reason).leg l').slot k' = if l' = l ∧ k' = k then none else (s.leg l').slot k' := by
  cases hx : (s.leg l).slot k with
  | none =>
    rw [endSlot_empty s _ hx]
    split
    · next e => rw [e.1, e.2, hx]
    · rfl
  | some x =>
    obtain ⟨u, he, -, hl⟩ := endSlot_told s reason hx
    rw [he, ← hl]
    unfold State.leg
    rw [tellEnd_legs]

/-- A slot after ends: empty when it is among the victims, and otherwise as it was. -/
theorem foldl_endSlot_slot (vs : List Victim) (l : LegNo) (k : Slot) {x : Transfer}
    (h : ((vs.foldl (fun t v => t.endSlot v.leg v.slot v.reason) s).leg l).slot k = some x) :
    (s.leg l).slot k = some x ∧ ∀ v ∈ vs, ¬ (l = v.leg ∧ k = v.slot) := by
  induction vs generalizing s with
  | nil => exact ⟨h, nofun⟩
  | cons v vs ih =>
    obtain ⟨h1, h2⟩ := ih _ h
    rw [endSlot_slot] at h1
    split at h1
    · cases h1
    · next hv =>
      refine ⟨h1, fun w hw => ?_⟩
      rcases List.mem_cons.1 hw with rfl | hw
      · exact hv
      · exact h2 w hw

theorem State.mem_victims {test : Transfer → Bool} {reason : EndReason} {v : Victim} :
    v ∈ s.victims test reason ↔ ∃ l k x, (s.leg l).slot k = some x ∧ test x = true ∧
      v = { leg := l, slot := k, reason := reason } := by
  constructor
  · intro hv
    obtain ⟨l, -, hv⟩ := List.mem_flatMap.1 hv
    obtain ⟨k, -, hv⟩ := List.mem_filterMap.1 hv
    split at hv
    · next x hx =>
      split at hv
      · next ht => cases hv; exact ⟨l, k, x, hx, ht, rfl⟩
      · cases hv
    · cases hv
  · rintro ⟨l, k, x, hx, ht, rfl⟩
    exact List.mem_flatMap.2 ⟨l, mem_allLegs l, List.mem_filterMap.2 ⟨k, mem_endOrder k, by rw [hx]; simp [ht]⟩⟩

/-- No transfer names the bin exactly when no live transfer does. -/
theorem State.namingBin_eq_nil {b : BinNo} : s.namingBin b = [] ↔ ∀ x ∈ s.live, b ∉ x.bins := by
  rw [List.eq_nil_iff_forall_not_mem]
  constructor
  · intro h x hx hb
    obtain ⟨l, k, hk⟩ := s.mem_live.1 hx
    exact h _ (s.mem_victims.2 ⟨l, k, x, hk, by simpa using hb, rfl⟩)
  · intro h v hv
    obtain ⟨l, k, x, hx, hb, -⟩ := s.mem_victims.1 hv
    exact h x (s.mem_live.2 ⟨l, k, hx⟩) (by simpa using hb)

/-- When the transfers that name a held bin have been ended, none does, whatever is launched after them (R38). -/
theorem endTransfers_transfersClear {b : BinNo} (hb : (s.bin b).hold.isSome = true) :
    (s.endTransfers (s.namingBin b)).transfersClear b := by
  by_cases hn : s.namingBin b = []
  · unfold State.endTransfers
    rw [if_pos hn]
    exact ⟨hb, s.namingBin_eq_nil.1 hn⟩
  · refine State.transfersClear.rearranged ⟨?_, fun x hx hbx => ?_⟩ (s.endTransfers_eq hn)
    · rw [(foldl_endSlot_rearranged s _).hold]; exact hb
    · obtain ⟨l, k, hk⟩ := (State.mem_live _).1 hx
      obtain ⟨h1, h2⟩ := foldl_endSlot_slot s _ l k hk
      exact h2 _ (s.mem_victims.2 ⟨l, k, x, h1, by simpa using hbx, rfl⟩) ⟨rfl, rfl⟩

/-! ### Entries ended by a hold -/

/-- What a hold of a bin does to one entry (R38). -/
def State.holdEntry (b : BinNo) (n : EntryNo) (s : State) : State :=
  match s.entry n with
  | some e => if e.names b && e.state != .ended then s.endEntry n .hold else s
  | none => s

theorem holdEntries_eq (b : BinNo) : s.holdEntries b = allEntries.foldl (fun u n => u.holdEntry b n) s := by rfl

theorem holdEntry_rearranged (b : BinNo) (n : EntryNo) : Rearranged s (s.holdEntry b n) := by
  unfold State.holdEntry
  split
  · split
    · exact endEntry_rearranged s _ _
    · exact .refl s
  · exact .refl s

theorem holdEntry_entryClear {b : BinNo} (hb : (s.bin b).hold.isSome = true) (n : EntryNo) :
    (s.holdEntry b n).entryClear b n := by
  refine ⟨by rw [(holdEntry_rearranged s b n).hold]; exact hb, fun e he hne => ?_⟩
  unfold State.holdEntry at he
  split at he
  · next f hf =>
    split at he
    · unfold State.endEntry at he
      rw [hf] at he
      have := (State.entry_setEntry_same s n _).symm.trans he
      cases this; rfl
    · next hc =>
      rw [hf] at he; cases he
      simpa [hne] using hc
  · next hf => rw [hf] at he; cases he

/-- An entry that names the bin is ended, and one ended stays so (R38). -/
theorem holdEntries_entryClear {b : BinNo} (hb : (s.bin b).hold.isSome = true) (n : EntryNo) :
    (s.holdEntries b).entryClear b n := by
  rw [holdEntries_eq]
  have hn : n ∈ allEntries := by revert n; decide
  generalize allEntries = ns at hn
  induction ns generalizing s with
  | nil => cases hn
  | cons m ns ih =>
    rcases List.mem_cons.1 hn with rfl | hn
    · exact (holdEntry_entryClear s hb n).rearranged (.foldl (fun u m => holdEntry_rearranged u b m) ns _)
    · exact ih _ (by rw [(holdEntry_rearranged s b m).hold]; exact hb) hn

end Ended

/-! ### Tickets returned by a hold -/

/-- Tickets return: no grain moves, no hold changes, and legs, berths, entries and dryer stand. -/
structure TicketsReturned (s t : State) : Prop where
  frame : t = { s with bins := t.bins, lots := t.lots, tickets := t.tickets, events := t.events }
  bins : ∀ b, (s.bin b).sameGrain (t.bin b)

section Returned
variable {s t u : State}

theorem TicketsReturned.refl (s : State) : TicketsReturned s s := ⟨rfl, fun _ => ⟨rfl, rfl⟩⟩

theorem TicketsReturned.trans (h : TicketsReturned s t) (k : TicketsReturned t u) : TicketsReturned s u := by
  refine ⟨?_, fun b => ⟨(k.bins b).1.trans (h.bins b).1, (k.bins b).2.trans (h.bins b).2⟩⟩
  rw [k.frame, h.frame]

/-- What a hold may change, between two quiet changes with a return of tickets. -/
theorem TicketsReturned.frame_between {s0 v : State} (h0 : s0 = { s with bins := s0.bins }) (q1 : Quiet s0 t)
    (r : TicketsReturned t u) (q2 : Quiet u v) : v = { s with
      bins := v.bins, lots := v.lots, tickets := v.tickets, legs := v.legs, berths := v.berths
      schedules := v.schedules, dryer := v.dryer, events := v.events, nextTransfer := v.nextTransfer } := by
  rw [q2.frame, r.frame, q1.frame, h0]

theorem returnTicket_returned (s : State) (x : Ticket) : TicketsReturned s (s.returnTicket x) := by
  unfold State.returnTicket
  split
  · exact .refl s
  · next a _ =>
    refine ⟨rfl, fun b => ?_⟩
    show (s.bin b).sameGrain ((s.release a.dest (.ticket x.number)).bin b)
    rw [bin_release]
    split
    · next e => rw [e]; exact (Bin.reevaluate_quiet _).grain
    · exact ⟨rfl, rfl⟩

theorem returnTickets_returned (s : State) (xs : List Ticket) :
    TicketsReturned s (xs.foldl (fun u x => u.returnTicket x) s) := by
  induction xs generalizing s with
  | nil => exact .refl s
  | cons x xs ih => exact (returnTicket_returned s x).trans (ih _)

/-- A ticket is GRADED after the return of one that was bound, or it stands as it stood (R39). -/
theorem returnTicket_mem {x y : Ticket} (hy : y ∈ (s.returnTicket x).tickets) :
    y.state = .graded ∨ y ∈ s.tickets ∧ (x.assignment.isSome = true → y.number ≠ x.number) := by
  unfold State.returnTicket at hy
  split at hy
  · next e => exact .inr ⟨hy, by rw [e]; nofun⟩
  · obtain ⟨z, hz, e⟩ := List.mem_map.1 hy
    split at e
    · exact .inl (by rw [← e])
    · next hn => exact .inr ⟨e ▸ hz, fun _ => e ▸ hn⟩

theorem returnTickets_mem {xs : List Ticket} {y : Ticket}
    (hy : y ∈ (xs.foldl (fun u x => u.returnTicket x) s).tickets) :
    y.state = .graded ∨ y ∈ s.tickets ∧ ∀ x ∈ xs, x.assignment.isSome = true → y.number ≠ x.number := by
  induction xs generalizing s with
  | nil => exact .inr ⟨hy, nofun⟩
  | cons x xs ih =>
    rcases ih hy with h | ⟨h, hxs⟩
    · exact .inl h
    · rcases returnTicket_mem h with h | ⟨h, hx⟩
      · exact .inl h
      · refine .inr ⟨h, fun z hz => ?_⟩
        rcases List.mem_cons.1 hz with rfl | hz
        · exact hx
        · exact hxs z hz

theorem State.mem_assignedTo {b : BinNo} {x : Ticket} :
    x ∈ s.assignedTo b ↔ x ∈ s.tickets ∧ x.state = .assigned ∧ x.assignment.map Assignment.dest = some b := by
  simp [State.assignedTo]

/-- When the ASSIGNED tickets of a bin have returned, it has none (R39). -/
theorem returnTickets_assignedTo (s : State) (b : BinNo) {t : State} (ht : t.tickets = s.tickets) :
    ((s.assignedTo b).foldl (fun u x => u.returnTicket x) t).assignedTo b = [] := by
  refine List.eq_nil_iff_forall_not_mem.2 fun y hy => ?_
  obtain ⟨hm, ha, hb⟩ := State.mem_assignedTo.1 hy
  rcases returnTickets_mem hm with h | ⟨h, hx⟩
  · rw [ha] at h; cases h
  · refine hx y (State.mem_assignedTo.2 ⟨ht ▸ h, ha, hb⟩) ?_ rfl
    obtain ⟨a, e, -⟩ := Option.map_eq_some_iff.1 hb
    rw [e]; rfl

end Returned

/-- Settles O24: what the hold clears is cleared before the legs settle, and nothing that follows names the bin
again. -/
theorem setBinHoldClearsTheBinsWork : Obligations.SetBinHoldClearsTheBinsWork := by
  intro s f b h heard hd hg
  have permitted : (s.grader f.station && h != .quality) = false := by
    rw [Bool.and_eq_false_imp]
    intro e
    rw [hg ((s.grader_iff _).1 e)]; rfl
  constructor
  · intro held
    exact answered_of_act heard hd (by simp [actSetBinHold, unlessFails, firstFailure, permitted, held, accept])
  intro free
  refine ⟨s.imposeHold b h, answered_of_act heard hd (by
    simp [actSetBinHold, unlessFails, firstFailure, permitted, free, accept]), ?_⟩
  unfold State.imposeHold
  extract_lets old s1 s2
  obtain ⟨s0, hs0⟩ : ∃ s0, s0 = s.setBin b { s.bin b with hold := some h } := ⟨_, rfl⟩
  have held0 : (s0.bin b).hold = some h := by rw [hs0, State.bin_setBin_same]
  have e1 : s1 = s0.holdEntries b := by rw [hs0]
  have q1 : Quiet s0 s1 := e1 ▸ holdEntries_quiet s0 b
  have r2 : TicketsReturned s1 s2 := returnTickets_returned s1 _
  have q3 : Quiet s2 (s2.endTransfers (s2.namingBin b)) := endTransfers_quiet s2 _
  have hold2 (c : BinNo) : (s2.bin c).hold = (s0.bin c).hold := (r2.bins c).2.trans (q1.bins c).2
  have held2 : (s2.bin b).hold.isSome = true := by rw [hold2, held0]; rfl
  have clear := endTransfers_transfersClear s2 held2
  have entries (n : EntryNo) : (s2.endTransfers (s2.namingBin b)).entryClear b n := by
    have h1 : s1.entryClear b n := e1 ▸ holdEntries_entryClear s0 (by rw [held0]; rfl) n
    have h2 : s2.entryClear b n := h1.congr (r2.bins b).2 (State.entry_congr (by rw [r2.frame]) n)
    exact h2.rearranged (endTransfers_rearranged s2 _)
  have tickets2 : s2.assignedTo b = [] := returnTickets_assignedTo s b (by rw [q1.frame, hs0]; rfl)
  generalize s2.endTransfers (s2.namingBin b) = t at q3 clear entries
  clear_value s1 s2
  refine ⟨?held, t.namingBin_eq_nil.2 clear.2, ?tickets, fun n => (entries n).2, fun c => ?layers, fun c hc => ?holds,
    fun k => ?berths, ?portions, r2.frame_between (by rw [hs0]; rfl) q1 q3⟩
  case held => rw [(q3.bins b).2, hold2, held0]
  case tickets =>
    have e : t.tickets = s2.tickets := by rw [q3.frame]
    unfold State.assignedTo at tickets2 ⊢
    rwa [e]
  case layers =>
    rw [(q3.bins c).1, (r2.bins c).1, (q1.bins c).1, hs0, State.bin_setBin]
    split
    · next e => rw [e]
    · rfl
  case holds => rw [(q3.bins c).2, hold2, hs0, State.bin_setBin_other s hc]
  case berths =>
    have e0 : s0.berth k = s.berth k := by rw [hs0]; rfl
    have e2 : s2.berth k = s1.berth k := by rw [r2.frame]; rfl
    have h1 := q1.berths k
    have h3 := q3.berths k
    rw [e0] at h1; rw [e2] at h3
    exact h1.trans h3
  case portions =>
    have e2 : s2.portions = s1.portions := by rw [r2.frame]; rfl
    rw [q3.portions, e2, q1.portions, hs0]; rfl

end Sys2Proof.Machine
end

section
/-! PROOFS. The cold start (R46, R84, R102, R131, R146, R170, R187, R190, R192, R193). -/

namespace Sys2Proof.Machine

section Cold
variable (s : State) (p : Pins)

/-! ### Event flags and enables of a start -/

theorem State.flag_clearAllFlags (f : Flag) : s.clearAllFlags.flag f = false := by
  unfold State.flag State.group State.clearAllFlags
  simp [Vector.get]

theorem State.group_enableAll (g : Fin 11) : s.enableAll.group g = { s.group g with enables := groupMask g } := by
  unfold State.group State.enableAll
  simp [Vector.get]
  exact ⟨rfl, rfl⟩

theorem State.flag_enableAll (f : Flag) : s.enableAll.flag f = s.flag f := by
  unfold State.flag; rw [State.group_enableAll]

/-! ### The records of a cold start -/

/-- The store, the settings and the lines are of the start; the rest is of reset (R193). -/
theorem coldStart_frame : s.coldStart p = { State.reset with
    settings := s.loadedUp.settings, bank0 := s.loadedUp.bank0, bank1 := s.loadedUp.bank1
    currentBank := s.loadedUp.currentBank, defaulted := s.loadedUp.defaulted, freeCount := s.loadedUp.freeCount
    pending := s.loadedUp.pending, estop := p.estop, resetLine := p.reset, backupLost := p.backupLost
    berths := (s.coldStart p).berths, events := (s.coldStart p).events } := by
  unfold State.coldStart
  rw [raiseIf_frame]
  rfl

theorem coldStart_flag (f : Flag) : (s.coldStart p).flag f =
    (s.loadedUp.defaulted && decide (f = flagSettingsDefaulted) || decide (f = flagStartCold)) := by
  unfold State.coldStart
  extract_lets s2 s3
  rw [State.flag_raiseIf, State.flag_raise, State.flag_enableAll, State.flag_clearAllFlags, Bool.or_false]
  rfl

theorem coldStart_enables (g : Fin 11) : ((s.coldStart p).group g).enables = groupMask g := by
  unfold State.coldStart
  extract_lets s2 s3
  rw [State.enables_raiseIf, State.enables_raise, State.group_enableAll]

/-- Main power lost with no commit under way leaves the store as it is. -/
theorem losePower_idle (h : s.commit = .idle) :
    s.losePower = { s with powered := false, receiver := .hunting, response := none, resetPending := false } := by
  have : s.abandonCommit = s := by unfold State.abandonCommit; rw [h]
  unfold State.losePower
  rw [this]

theorem losePower_pending : s.losePower.pending = s.pending := by
  unfold State.losePower
  rw [abandonCommit_frame]

/-- What a start with no commit under way loads (R190). -/
theorem loadedUp_store (h : s.commit = .idle) :
    s.loadedUp.bank0 = s.bank0 ∧ s.loadedUp.bank1 = s.bank1 ∧ s.loadedUp.freeCount = s.freeCount ∧
      (chooseBank s.bank0 s.bank1 = none →
        s.loadedUp.settings = Settings.factory ∧ s.loadedUp.currentBank = none ∧ s.loadedUp.defaulted = true) ∧
      ∀ b, chooseBank s.bank0 s.bank1 = some b → s.loadedUp.settings = (s.bank b).image.loaded ∧
        s.loadedUp.currentBank = some b ∧ s.loadedUp.defaulted = false := by
  have : s.abandonCommit = s := by unfold State.abandonCommit; rw [h]
  unfold State.loadedUp State.loadSettings
  rw [this]
  cases chooseBank s.bank0 s.bank1 with
  | none => exact ⟨rfl, rfl, rfl, fun _ => ⟨rfl, rfl, rfl⟩, nofun⟩
  | some b => exact ⟨rfl, rfl, rfl, nofun, fun c e => by cases e; exact ⟨rfl, rfl, rfl⟩⟩

end Cold

/-- Settles O60. -/
theorem coldStartEmptiesEveryRecord : Obligations.ColdStartEmptiesEveryRecord := by
  intro s p lost
  have started : exec (.mainPowerReturn p) s = .next (s.losePower.coldStart p) := by
    show Host.Outcome.next (s.returnPower p) = _
    unfold State.returnPower
    rw [if_pos lost]
  refine ⟨_, started, ?frame, (coldStart_berth p 0).2, (coldStart_berth p 1).2, ?_, ?_, ?_, fun x hx => ?raised,
    coldStart_enables _ p, fun idle => ?store⟩
  case frame =>
    have h := coldStart_frame s.losePower p
    have hp : s.losePower.loadedUp.pending = s.pending := by rw [loadedUp_frame]; exact losePower_pending s
    rw [hp, lost] at h
    generalize s.losePower.coldStart p = t at h
    rw [h]
    rfl
  case raised =>
    rw [coldStart_flag] at hx
    simp only [Bool.or_eq_true, Bool.and_eq_true, decide_eq_true_eq] at hx
    exact hx.symm.imp_right And.right
  case store =>
    rw [coldStart_frame]
    have h := loadedUp_store s.losePower (by rw [losePower_idle s idle]; exact idle)
    rw [losePower_idle s idle] at h ⊢
    exact h
  · rw [coldStart_flag]; simp
  · rw [coldStart_flag]; simp [flagStartWarm, flagSettingsDefaulted, flagStartCold]
  · rw [coldStart_flag]
    have : flagSettingsDefaulted ≠ flagStartCold := by decide
    simp only [this, decide_true, decide_false, Bool.and_true, Bool.or_false]
    rw [coldStart_frame]

end Sys2Proof.Machine
end

section
/-! PROOFS. What a committed launch leaves: its leg, its berth and its bins, for each place it can take (R113, R114,
R116, R156). -/

namespace Sys2Proof.Machine

/-! ### The place on the leg -/

/-- A leg on which a transfer has become ACTIVE, with its cleanout time (R116). -/
def Leg.starts (g : Leg) (time : Nat) (x : Transfer) : Leg :=
  { g with
    active := some { x with state := if g.lastCarried.admits x.identity = true ∨ time = 0 then .running else .cleanout time }
    lastCarried := if g.lastCarried.admits x.identity = true ∨ time = 0 then .carried x.identity else g.lastCarried }

/-- A leg whose ACTIVE transfer has given way (R113). -/
def Leg.yields (g : Leg) (a : Transfer) : Leg :=
  { g with active := none, suspended := some { a with state := .suspended } }

section Places
variable (s : State) (l : LegNo)

theorem enterActive_frame (x : Transfer) :
    s.enterActive l x = { s with legs := (s.enterActive l x).legs, berths := (s.enterActive l x).berths } := by
  unfold State.enterActive
  extract_lets g time s1
  have h : s1 = { s with legs := s1.legs } := by unfold s1; split <;> rfl
  split
  · rw [h]; rfl
  · rw [h]

theorem enterActive_leg (x : Transfer) (m : LegNo) :
    (s.enterActive l x).leg m = if m = l then (s.leg l).starts (s.settings.cleanout.get l) x else s.leg m := by
  unfold State.enterActive
  extract_lets g time s1
  have h1 : s1.leg m = if m = l then g.starts time x else s.leg m := by
    unfold s1 Leg.starts
    split
    · next hc =>
      have hc : g.lastCarried.admits x.identity = true ∨ time = 0 := by simpa using hc
      rw [if_pos hc, if_pos hc]; exact State.leg_setLeg _ _ _ _
    · next hc =>
      have hc : ¬ (g.lastCarried.admits x.identity = true ∨ time = 0) := by simpa using hc
      rw [if_neg hc, if_neg hc]; exact State.leg_setLeg _ _ _ _
  split
  · exact h1
  · exact h1

theorem preempt_frame : s.preempt l = { s with legs := (s.preempt l).legs, berths := (s.preempt l).berths } := by
  unfold State.preempt
  dsimp only
  split
  · rfl
  · split <;> rfl

theorem preempt_leg {a : Transfer} (ha : (s.leg l).active = some a) (m : LegNo) :
    (s.preempt l).leg m = if m = l then (s.leg l).yields a else s.leg m := by
  rw [← State.leg_setLeg]
  unfold State.preempt
  dsimp only
  rw [ha]
  dsimp only
  split <;> rfl

/-- A preempted berth that has a barge is READY or ASSIGNED as its conditions say (R151, R156). -/
theorem Berth.settleReady_assigned (b : Berth) : Berth.settleReady { b with state := .assigned } = { b with
    state := if b.barge ≠ none ∧ b.readyConditions = true then .ready else .assigned } := by
  have e : Berth.readyConditions { b with state := .assigned } = b.readyConditions := rfl
  unfold Berth.settleReady
  rw [e]
  cases b.barge <;> cases b.readyConditions <;> rfl

/-- The claim of a berth does not bear on READY (R151). -/
theorem Berth.settleReady_withClaim (b : Berth) (c : Option Nat) :
    Berth.settleReady { b with claim := c } = { b.settleReady with claim := c } := by
  unfold Berth.settleReady
  have e : Berth.readyConditions { b with claim := c } = b.readyConditions := rfl
  rw [e]
  dsimp only
  split <;> rfl

end Places

/-! ### The launch committed -/

section Commit
variable (s : State) (r : LaunchRequest) (g : Grant)

/-- The claims and the reservation of a launch, with the id counter (R104, R114). -/
def State.claimed (s : State) (r : LaunchRequest) (g : Grant) : State :=
  { s with nextTransfer := wrapNext Config.maxShortNo s.nextId }.holdFor (s.granted r g) g.slots

theorem takeClaim_frame (b : BinNo) (id : Nat) : s.takeClaim b id = { s with bins := (s.takeClaim b id).bins } := by
  unfold State.takeClaim; split <;> rfl

theorem holdFor_frame (x : Transfer) (n : Nat) :
    s.holdFor x n = { s with bins := (s.holdFor x n).bins, berths := (s.holdFor x n).berths } := by
  unfold State.holdFor
  extract_lets s1
  have h : s1 = { s with bins := s1.bins } := by
    unfold s1; split
    · exact takeClaim_frame _ _ _
    · rfl
  split
  · rw [h]; rfl
  · split
    · rw [h]; rfl
    · rw [reserve_frame, h]

theorem claimed_frame : s.claimed r g = { s with
    bins := (s.claimed r g).bins, berths := (s.claimed r g).berths
    nextTransfer := wrapNext Config.maxShortNo s.nextId } := by
  unfold State.claimed
  rw [holdFor_frame]

theorem claimed_leg (m : LegNo) : (s.claimed r g).leg m = s.leg m := by rw [claimed_frame]; rfl

theorem granted_berth_iff (k : BerthNo) : (s.granted r g).berth? = some k ↔ r.dest = .berth k := by
  unfold Transfer.berth?
  show (match r.dest with | .berth k => some k | .bin _ => none) = some k ↔ _
  cases r.dest <;> simp

theorem claimed_berth (k : BerthNo) : (s.claimed r g).berth k =
    if r.dest = .berth k then { s.berth k with claim := some s.nextId } else s.berth k :=
  ((holdFor_effect { s with nextTransfer := wrapNext Config.maxShortNo s.nextId } (s.granted r g) g.slots).2 k).trans
    (if_congr (granted_berth_iff s r g k) rfl rfl)

theorem enterActive_granted_berth (u : State) (l : LegNo) (k : BerthNo) : (u.enterActive l (s.granted r g)).berth k =
    if r.dest = .berth k then { u.berth k with state := .loading } else u.berth k :=
  ((enterActive_effect u l (s.granted r g)).2 k).trans (if_congr (granted_berth_iff s r g k) rfl rfl)

/-- The place a launch takes on its leg. -/
theorem commitLaunch_eq : s.commitLaunch r g =
    let u := if g.preempts then (s.claimed r g).preempt r.leg else s.claimed r g
    match g.slot with
    | .active => u.enterActive r.leg (s.granted r g)
    | .buffered | .suspended => u.setLeg r.leg { u.leg r.leg with buffered := some (s.granted r g) } := by
  unfold State.commitLaunch State.claimed
  cases g.slot <;> rfl

theorem commitLaunch_frame : s.commitLaunch r g = { s with
    bins := (s.claimed r g).bins, legs := (s.commitLaunch r g).legs, berths := (s.commitLaunch r g).berths
    nextTransfer := wrapNext Config.maxShortNo s.nextId } := by
  rw [commitLaunch_eq]
  extract_lets u
  have hu : u = { s with
      bins := (s.claimed r g).bins, legs := u.legs, berths := u.berths
      nextTransfer := wrapNext Config.maxShortNo s.nextId } := by
    unfold u; split
    · rw [preempt_frame, claimed_frame]
    · rw [claimed_frame]
  split
  · rw [enterActive_frame, hu]
  · rw [hu]; rfl
  · rw [hu]; rfl

theorem commitLaunch_bin (b : BinNo) : (s.commitLaunch r g).bin b = (s.claimed r g).bin b := by
  rw [commitLaunch_frame]; rfl

theorem claimed_cleanout (l : LegNo) : (s.claimed r g).settings.cleanout.get l = s.settings.cleanout.get l := by
  rw [claimed_frame]

/-- A launch into an empty ACTIVE slot (R113, R116). -/
theorem commitLaunch_active (hs : g.slot = .active) (hp : g.preempts = false) :
    (∀ m, (s.commitLaunch r g).leg m =
      if m = r.leg then (s.leg r.leg).starts (s.settings.cleanout.get r.leg) (s.granted r g) else s.leg m) ∧
    ∀ k, (s.commitLaunch r g).berth k =
      if r.dest = .berth k then { s.berth k with claim := some s.nextId, state := .loading } else s.berth k := by
  have e : s.commitLaunch r g = (s.claimed r g).enterActive r.leg (s.granted r g) := by rw [commitLaunch_eq, hs, hp]; rfl
  rw [e]
  refine ⟨fun m => ?_, fun k => ?_⟩
  · rw [enterActive_leg, claimed_leg, claimed_leg, claimed_cleanout]
  · rw [enterActive_granted_berth, claimed_berth]
    split <;> rfl

/-- A launch into BUFFERED (R113). -/
theorem commitLaunch_buffered (hs : g.slot = .buffered) (hp : g.preempts = false) :
    (∀ m, (s.commitLaunch r g).leg m =
      if m = r.leg then { s.leg r.leg with buffered := some (s.granted r g) } else s.leg m) ∧
    ∀ k, (s.commitLaunch r g).berth k =
      if r.dest = .berth k then { s.berth k with claim := some s.nextId } else s.berth k := by
  have e : s.commitLaunch r g = (s.claimed r g).setLeg r.leg
      { (s.claimed r g).leg r.leg with buffered := some (s.granted r g) } := by rw [commitLaunch_eq, hs, hp]; rfl
  rw [e]
  refine ⟨fun m => ?_, fun k => claimed_berth s r g k⟩
  rw [State.leg_setLeg, claimed_leg, claimed_leg]

/-- A launch that takes the ACTIVE slot from a YIELD transfer (R113, R156). -/
theorem commitLaunch_preempting (hs : g.slot = .active) (hp : g.preempts = true) {a : Transfer}
    (ha : (s.leg r.leg).active = some a) :
    (∀ m, (s.commitLaunch r g).leg m =
      if m = r.leg then ((s.leg r.leg).yields a).starts (s.settings.cleanout.get r.leg) (s.granted r g)
      else s.leg m) ∧
    ∀ k, (s.commitLaunch r g).berth k =
      let b := if a.dest = .berth k then Berth.settleReady { s.berth k with state := .assigned } else s.berth k
      if r.dest = .berth k then { b with claim := some s.nextId, state := .loading } else b := by
  have e : s.commitLaunch r g = ((s.claimed r g).preempt r.leg).enterActive r.leg (s.granted r g) := by
    rw [commitLaunch_eq, hs, hp]; rfl
  have ha' : ((s.claimed r g).leg r.leg).active = some a := by rw [claimed_leg]; exact ha
  have hclean : ((s.claimed r g).preempt r.leg).settings = s.settings := by rw [preempt_frame, claimed_frame]
  have hto (k : BerthNo) : a.berth? = some k ↔ a.dest = .berth k := by
    unfold Transfer.berth?; cases a.dest <;> simp
  rw [e]
  refine ⟨fun m => ?_, fun k => ?_⟩
  · rw [enterActive_leg, preempt_leg _ _ ha', preempt_leg _ _ ha', if_pos rfl, claimed_leg, claimed_leg, hclean]
    by_cases hm : m = r.leg <;> simp [hm]
  · have claims : Berth.settleReady { s.berth k with claim := some s.nextId, state := .assigned } =
        { Berth.settleReady { s.berth k with state := .assigned } with claim := some s.nextId } :=
      Berth.settleReady_withClaim { s.berth k with state := .assigned } (some s.nextId)
    rw [enterActive_granted_berth, (preempt_effect _ ha').2, claimed_berth, if_congr (hto k) rfl rfl]
    by_cases h1 : r.dest = .berth k <;> by_cases h2 : a.dest = .berth k <;> simp [h1, h2, claims]

/-- Berths that stand as they stood. -/
theorem State.berths_eq {t : State} (h : ∀ k, t.berth k = s.berth k) : t.berths = s.berths :=
  Vector.ext fun i hi => h ⟨i, hi⟩

end Commit

end Sys2Proof.Machine
end

section
/-! PROOFS. The dryer's discharge launched on request (R31, R92, R93, R97, R114, R116). -/

namespace Sys2Proof.Machine

section Discharge
variable (s : State)

/-- The grant of a discharge: the whole batch, into the empty ACTIVE slot (R92). -/
def Batch.dischargeGrant (b : Batch) : Grant :=
  { identity := b.identity, target := (b.portions.map Portion.kg).sum, slots := 0, clamps := ClampFlags.none
    slot := .active, preempts := false }

/-- The launch checks of a discharge pass (R92, R108 to R113). -/
theorem launchChecks_discharge {b : Batch} (hb : s.dryer.batch = some b) (estop : s.estop = false)
    (stopped : s.flag (flagStopped s.settings.dryer.dischargeLeg) = false) (hold : (s.bin b.dest).hold = none)
    (claim : (s.bin b.dest).claim = none) (owner : (s.bin b.dest).fillOwner = .dryer)
    (identity : (s.bin b.dest).identity = none ∨ (s.bin b.dest).identity = some b.identity)
    (grain : (b.portions.map Portion.kg).sum ≠ 0) (free : (s.leg s.settings.dryer.dischargeLeg).active = none) :
    s.launchChecks (s.dischargeRequest b) = .ok b.dischargeGrant := by
  have agrees : (s.bin b.dest).agrees b.identity = true := by
    unfold Bin.agrees
    rcases identity with e | e <;> rw [e]
    simp
  have passes : firstFailure (s.permissionChecks (s.dischargeRequest b) ++ s.claimChecks (s.dischargeRequest b) ++
      s.identityChecks (s.dischargeRequest b)) = none := by
    simp [firstFailure_eq_none, State.permissionChecks, State.claimChecks, State.identityChecks, State.dischargeRequest,
      LaunchRequest.binsNamed, LaunchRequest.selfTurn, Source.bin?, Dest.bin?, State.restrictedFor,
      State.sourceIdentity, estop, stopped, hold, claim, owner, hb, agrees]
  have place : (s.leg s.settings.dryer.dischargeLeg).place .ordinary = some (.active, false) := by
    unfold Leg.place; rw [free]
  have granted : ((s.dryer.batch.map Batch.portions).getD []) = b.portions := by rw [hb]; rfl
  unfold State.launchChecks
  rw [passes]
  simp [State.dischargeRequest, State.planTransfer, State.sourceIdentity, State.spaceCheck, hb, Plan.granted, grain,
    place, Batch.dischargeGrant, ClampFlags.none]

/-- A discharge hands the batch's reservation over, and claims nothing (R31). -/
theorem claimed_discharge (b : Batch) (g : Grant) : s.claimed (s.dischargeRequest b) g =
    State.handOver b.dest .batch (.transfer s.nextId) { s with nextTransfer := wrapNext Config.maxShortNo s.nextId } := by
  rfl

theorem dischargeNow_eq (stop : Bool) {u : State}
    (hu : u = { s with dryer := { s.dryer with state := .dischargeWait, autoDischarge := true, stopPending := stop } }) :
    s.dischargeNow stop = (u.tryDischarge.1, dischargeAnswer u.tryDischarge.2) := by subst hu; rfl

/-- The transfer of a discharge before it becomes ACTIVE. -/
def State.dischargeTransfer (s : State) (b : Batch) : Transfer := s.granted (s.dischargeRequest b) b.dischargeGrant

/-- The machine after a discharge that passes its checks: the transfer ACTIVE, the reservation its own, and the dryer
DISCHARGING (R31, R92, R114, R116). -/
theorem tryDischarge_launched {b : Batch} (hb : s.dryer.batch = some b)
    (hc : s.launchChecks (s.dischargeRequest b) = .ok b.dischargeGrant) :
    s.tryDischarge.2 = .placed s.nextId .active ∧
      s.tryDischarge.1 = { s with
        bins := s.tryDischarge.1.bins, legs := s.tryDischarge.1.legs
        nextTransfer := wrapNext Config.maxShortNo s.nextId
        dryer := { s.dryer with state := .discharging, discharge := some s.nextId } } ∧
      (∀ m, s.tryDischarge.1.leg m = if m = s.settings.dryer.dischargeLeg then
        (s.leg m).starts (s.settings.cleanout.get m) (s.dischargeTransfer b) else s.leg m) ∧
      ∀ c, s.tryDischarge.1.bin c = if c = b.dest then { s.bin b.dest with
        holders := (s.bin b.dest).holders.map fun h =>
          if h.who = .batch then { h with who := .transfer s.nextId } else h } else s.bin c := by
  obtain ⟨hn, -⟩ | ⟨b', hb', ⟨code, limit, he, -⟩ | ⟨g, hg, ht⟩⟩ := tryDischarge_cases s
  · rw [hb] at hn; cases hn
  · obtain rfl : b = b' := Option.some.inj (hb.symm.trans hb')
    rw [hc] at he; cases he
  obtain rfl : b = b' := Option.some.inj (hb.symm.trans hb')
  obtain rfl : b.dischargeGrant = g := Except.ok.inj (hc.symm.trans hg)
  obtain ⟨hleg, hberth⟩ := commitLaunch_active s (s.dischargeRequest b) b.dischargeGrant rfl rfl
  have hframe := commitLaunch_frame s (s.dischargeRequest b) b.dischargeGrant
  have hbin := commitLaunch_bin s (s.dischargeRequest b) b.dischargeGrant
  rw [State.berths_eq s (hberth · |>.trans (if_neg nofun))] at hframe
  rw [ht]
  generalize s.commitLaunch (s.dischargeRequest b) b.dischargeGrant = w at hleg hframe hbin
  refine ⟨rfl, ?_, fun m => ?_, fun c => ?_⟩
  · rw [hframe]; rfl
  · refine (hleg m).trans ?_
    by_cases hm : m = s.settings.dryer.dischargeLeg
    · subst hm; rfl
    · rw [if_neg hm]; exact if_neg hm
  · refine (hbin c).trans ?_
    rw [claimed_discharge]
    exact State.bin_setBin _ _ _ _

/-- Whether a request is heard does not depend on the dryer. -/
theorem Heard.withDryer {s : State} {f : Frame} {cs : Classes} (h : Heard s f cs) (d : Dryer) :
    Heard { s with dryer := d } f cs := ⟨h.listening, h.enabled, h.accepted⟩

end Discharge

/-- Settles O41: a refused try changes at most a flag, and a launched one is that of the whole batch. -/
theorem dischargeHandsTheReservationOver : Obligations.DischargeHandsTheReservationOver := by
  intro s f b h hp hs hb l u
  have hd := decodeNothing_nil hp
  have requested : exec (.discharge f) s = answered 0x4C#8 f u.tryDischarge.1 (dischargeAnswer u.tryDischarge.2) := by
    refine answered_of_act h hd ?_
    simp only [actDischarge, hs]
    exact dischargeNow_eq s _ (by rw [← hs])
  refine ⟨requested, fun code limit hr => ?refused, fun h1 h2 h3 h4 h5 h6 h7 h8 => ?launched,
    fun back => ⟨fun e dried estop => ?suspended, fun e => ?off⟩⟩
  case refused =>
    rw [requested]
    obtain ⟨hn, -⟩ | ⟨b', -, ⟨code', limit', -, ht⟩ | ⟨g, -, ht⟩⟩ := tryDischarge_cases u
    · rw [show u.dryer.batch = some b from hb] at hn; cases hn
    · rw [ht] at hr ⊢
      cases hr
      simp [State.raiseIf, dischargeAnswer]
    · rw [ht] at hr; cases hr
  case launched =>
    have hc := launchChecks_discharge u hb h1 h2 h3 h4 h5 h6 h7 h8
    obtain ⟨ho, hf, hleg, hbin⟩ := tryDischarge_launched u hb hc
    refine ⟨u.tryDischarge.1, _, requested.trans (by rw [ho]; rfl), hf, by rw [hleg, if_pos rfl]; rfl, rfl, rfl, rfl,
      rfl, rfl, rfl, rfl, (hbin b.dest).trans (if_pos rfl), fun c hne => (hbin c).trans (if_neg hne),
      fun m hm => (hleg m).trans (if_neg hm)⟩
  case suspended =>
    have hback : Heard back f (supervisorOr [.dryer]) := by rw [e]; exact h.withDryer _
    refine answered_of_act hback hd ?_
    have e1 : back.dryer.state = .suspended := by rw [e]
    have e2 : back.dryer.batch = some b := by rw [e]; exact hb
    have e3 : back.estop = false := by rw [e]; exact estop
    simp only [actResumeDryer, e1, e2, e3, dried, Bool.false_eq_true, if_false]
    exact dischargeNow_eq back _ (by rw [e, ← hs])
  case off =>
    intro v
    have hback : Heard back f (supervisorOr [.dryer]) := by rw [e]; exact h.withDryer _
    refine answered_of_act hback hd ?_
    have e1 : back.dryer.state = .off := by rw [e]
    have e2 : back.dryer.batch = some b := by rw [e]; exact hb
    simp only [actDischarge, e1, e2, Option.isSome_some, if_true]
    exact dischargeNow_eq back true (by rw [e, ← hs])

end Sys2Proof.Machine
end

section
/-! PROOFS. A staged transfer launched (R29, R32, R104, R107 to R116, R155, R156). -/

namespace Sys2Proof.Machine

/-! ### The checks of a staged launch pass -/

/-- A staged request passes every check but that of the slot (R108 to R112, R155). -/
structure State.StagedPasses (s : State) (l : LegNo) (q : Staging) (i : Identity) : Prop where
  legOpen : s.legOpen l
  unheld : s.stagedUnheld q
  permitted : s.stagedPermitted q
  free : s.stagedFree q
  ready : s.stagedReady q
  agrees : s.stagedAgrees q
  identity : (s.bin q.source).identity = some i
  granted : (s.stagedPlan q).granted ≠ 0
  space : s.stagedSpace q
  slots : s.stagedHasSlots q

/-- What a staged request is granted, at a place on its leg (R111, R112, R114). -/
def State.stagedGrant (s : State) (q : Staging) (i : Identity) (place : Slot × Bool) : Grant :=
  { identity := i, target := s.stagedTarget q, slots := s.stagedSlots q, clamps := s.stagedClamps q
    slot := place.1, preempts := place.2 }

section Checks
variable (s : State) {l : LegNo} {q : Staging} {i : Identity}

theorem selfTurn_staged : (q.request l).selfTurn = true ↔ q.dest = .bin q.source := by
  unfold LaunchRequest.selfTurn Staging.request
  cases q.dest with
  | berth k => exact ⟨nofun, nofun⟩
  | bin d => exact Iff.trans (by simp [Source.bin?, Dest.bin?]) eq_comm

/-! Target and slots, for a self-turn, for another bin and for a berth (R112). -/

section Figures
variable {s} {d : BinNo} {k : BerthNo}

theorem stagedTarget_turn (hd : q.dest = .bin q.source) : s.stagedTarget q = (s.stagedPlan q).granted := by
  unfold State.stagedTarget; rw [hd]; exact if_pos rfl

theorem stagedTarget_bin (hd : q.dest = .bin d) (h : d ≠ q.source) :
    s.stagedTarget q = min (s.stagedPlan q).granted (s.freeSpace d) := by
  unfold State.stagedTarget; rw [hd]; exact if_neg h

theorem stagedTarget_berth (hd : q.dest = .berth k) : s.stagedTarget q = (s.stagedPlan q).granted := by
  unfold State.stagedTarget; rw [hd]

theorem stagedSlots_turn (hd : q.dest = .bin q.source) : s.stagedSlots q = 1 := by
  unfold State.stagedSlots; rw [hd]; exact if_pos rfl

theorem stagedSlots_bin (hd : q.dest = .bin d) (h : d ≠ q.source) :
    s.stagedSlots q = (drawLayers (s.bin q.source).layers (s.stagedTarget q)).1.length := by
  unfold State.stagedSlots; rw [hd]; exact if_neg h

theorem stagedSlots_berth (hd : q.dest = .berth k) : s.stagedSlots q = 0 := by
  unfold State.stagedSlots; rw [hd]

end Figures

/-- The space check gives the target and the slots (R112). -/
theorem spaceCheck_staged (hs : s.stagedSpace q) (hn : s.stagedHasSlots q) :
    s.spaceCheck (q.request l) (s.stagedPlan q).granted = .ok (s.stagedTarget q, s.stagedSlots q) := by
  unfold State.spaceCheck Staging.request
  dsimp only
  cases hd : q.dest with
  | berth k => rw [stagedTarget_berth hd, stagedSlots_berth hd]
  | bin d =>
    have hslots := hn d hd
    by_cases h : d = q.source
    · rw [h] at hd hslots ⊢
      rw [stagedSlots_turn hd] at hslots ⊢
      rw [stagedTarget_turn hd]
      simp [Nat.not_lt.2 hslots]
    · rw [stagedSlots_bin hd h] at hslots ⊢
      rw [stagedTarget_bin hd h] at hslots ⊢
      simp [Ne.symm h, hs d hd h, Nat.not_lt.2 hslots]

/-- A plan of a request of 0 kg grants nothing (R34). -/
theorem planBin_zero (b : BinNo) (layers boundary : Option Nat) (berth : Option BerthBound) :
    (s.planBin b 0 layers boundary berth).granted = 0 := by
  unfold State.planBin
  cases (s.bin b).identity with
  | none => rfl
  | some i =>
    cases (s.bin b).layers with
    | nil => rfl
    | cons x xs => unfold planWalk; rfl

/-- The figures that are the least of a berth's, when the least is above 0, are known (R155). -/
theorem Figures.clamps_of_least {f : Figures} (h : f.least ≠ 0) : f.clamps = { ClampFlags.none with
    draft := decide (f.draft = some f.least), position := decide (f.position = some f.least)
    order := decide (f.order = some f.least) } := by
  have known (o : Option Nat) : (o.getD 0 == f.least) = decide (o = some f.least) := by
    cases o with
    | none => simpa using Ne.symm h
    | some n => simp [Bool.beq_eq_decide_eq]
  unfold Figures.clamps
  rw [known, known, known]

/-- The clamp flags of the launch (R35, R112, R155). -/
theorem clamps_staged (hg : (s.stagedPlan q).granted ≠ 0) :
    { (s.planTransfer (q.request l).source (q.request l).dest (q.request l).kg).clamps with
      space := decide (s.stagedTarget q < (s.stagedPlan q).granted) } = s.stagedClamps q := by
  have hp := s.planTransfer_staged q l
  unfold State.stagedClamps
  cases hd : q.dest with
  | bin d =>
    have e : (s.planTransfer (q.request l).source (q.request l).dest (q.request l).kg).clamps =
        (s.stagedPlan q).cause.clamps := by
      rw [← hp]; unfold Staging.request State.planTransfer; rw [hd]
    rw [e]
  | berth k =>
    have whole : s.stagedTarget q = (s.stagedPlan q).granted := stagedTarget_berth hd
    have e : (s.planTransfer (q.request l).source (q.request l).dest (q.request l).kg).clamps =
        if (s.stagedPlan q).cause = .met ∧ min q.kg (s.berth k).figures.least < q.kg then (s.berth k).figures.clamps
        else (s.stagedPlan q).cause.clamps := by
      rw [← hp]; unfold Staging.request State.planTransfer; rw [hd]
    have least : (s.berth k).figures.least ≠ 0 := by
      intro h0
      apply hg
      unfold State.stagedPlan
      rw [hd]
      dsimp only
      rw [h0, Nat.min_zero]
      exact planBin_zero s _ _ _ _
    have cut : min q.kg (s.berth k).figures.least < q.kg ↔ (s.berth k).figures.least < q.kg := by omega
    rw [e, whole, if_congr (and_congr_right fun _ => cut) rfl rfl, Figures.clamps_of_least least]
    dsimp only
    split
    · simp [ClampFlags.none]
    · cases (s.stagedPlan q).cause <;> simp [PlanCause.clamps, ClampFlags.none]

/-- The launch checks of a staged request that passes and finds a place (R108 to R113). -/
theorem launchChecks_staged (h : s.StagedPasses l q i) {place : Slot × Bool}
    (hp : (s.leg l).place q.attr = some place) : s.launchChecks (q.request l) = .ok (s.stagedGrant q i place) := by
  have permission : firstFailure (s.permissionChecks (q.request l)) = none := by
    have h1 := s.legOpen_iff l |>.1 h.legOpen
    have h2 := (s.stagedUnheld_iff q l).1 h.unheld
    have h3 := (s.stagedPermitted_iff q l).1 h.permitted
    rw [firstFailure_eq_none]
    simp only [State.permissionChecks, List.forall_mem_cons, List.not_mem_nil, false_implies, implies_true, and_true]
    exact ⟨h1, h2, h3⟩
  have passes : firstFailure (s.permissionChecks (q.request l) ++ s.claimChecks (q.request l) ++
      s.identityChecks (q.request l)) = none := by
    have h4 := (s.claimChecks_iff q l).2 ⟨h.free, h.ready⟩
    have h5 := (s.identityChecks_iff q l).2 h.agrees
    rw [firstFailure_eq_none] at permission h4 h5 ⊢
    intro c hc
    rcases List.mem_append.1 hc with hc | hc
    · rcases List.mem_append.1 hc with hc | hc
      · exact permission c hc
      · exact h4 c hc
    · exact h5 c hc
  have source : s.sourceIdentity (q.request l).source = some i := h.identity
  have clamps := clamps_staged s (l := l) h.granted
  unfold State.launchChecks
  rw [passes]
  dsimp only
  rw [source, s.planTransfer_staged q l]
  dsimp only
  rw [if_neg h.granted, spaceCheck_staged s h.space h.slots]
  dsimp only
  rw [show (s.leg (q.request l).leg).place (q.request l).attr = some place from hp, clamps]
  rfl

end Checks

end Sys2Proof.Machine
end

section
/-! PROOFS. The bins after a staged launch, its answer, and the three places it can take (R29, R32, R104, R113, R114,
R116, R156). -/

namespace Sys2Proof.Machine

section Bins
variable (s : State) {l : LegNo} {q : Staging} {i : Identity}

/-- A claim that is free is taken (R32). -/
theorem takeClaim_granted {b : BinNo} (hold : (s.bin b).hold = none) (claim : (s.bin b).claim = none)
    (owner : ∀ id, (s.bin b).fillOwner ≠ .transfer id) (id : Nat) :
    s.takeClaim b id = s.setBin b { s.bin b with claim := some id } := by
  have checks : firstFailure (s.bin b).claimChecks = none := by
    unfold Bin.claimChecks
    rw [hold, claim]
    cases h : (s.bin b).fillOwner with
    | transfer id => exact absurd h (owner id)
    | none | intake | dryer => rfl
  unfold State.takeClaim
  rw [checks]

/-- The source of a staged request is not being filled by a transfer (R109). -/
theorem State.StagedPasses.source (h : s.StagedPasses l q i) :
    (s.bin q.source).hold = none ∧ (s.bin q.source).claim = none ∧ ∀ id, (s.bin q.source).fillOwner ≠ .transfer id := by
  obtain ⟨hold, -⟩ := h.unheld
  obtain ⟨claim, free⟩ := h.free
  refine ⟨hold, claim, fun id => ?_⟩
  cases hd : q.dest with
  | berth k => rw [hd] at free; exact free.1 id
  | bin d =>
    rw [hd] at free
    dsimp only at free
    split at free
    · next e => rw [e] at free; rw [free]; nofun
    · exact free.1 id

theorem Bin.holders_of_unowned {x : Bin} (h : x.fillOwner = .none) : x.holders = [] := by
  unfold Bin.fillOwner at h
  split at h
  · assumption
  · split at h <;> cases h

theorem granted_selfTurn (g : Grant) : (s.granted (q.request l) g).selfTurn = true ↔ q.dest = .bin q.source := by
  unfold Transfer.selfTurn
  show (match Source.bin q.source, q.dest with | .bin b, .bin c => b == c | _, _ => false) = true ↔ _
  cases q.dest with
  | berth k => exact ⟨nofun, nofun⟩
  | bin d => exact Iff.trans (by simp) eq_comm

/-- The machine once the source's claim is taken, with the id counter (R104, R114). -/
def State.sourceClaimed (s : State) (a : BinNo) : State :=
  ({ s with nextTransfer := wrapNext Config.maxShortNo s.nextId } : State).setBin a
    { s.bin a with claim := some s.nextId }

theorem sourceClaimed_bin (a c : BinNo) :
    (s.sourceClaimed a).bin c = if c = a then { s.bin a with claim := some s.nextId } else s.bin c :=
  State.bin_setBin { s with nextTransfer := wrapNext Config.maxShortNo s.nextId } a _ c

/-- A claim takes neither space nor slots (R32). -/
theorem sourceClaimed_free (a c : BinNo) :
    (s.sourceClaimed a).freeSpace c = s.freeSpace c ∧ (s.sourceClaimed a).freeSlots c = s.freeSlots c := by
  unfold State.freeSpace State.freeSlots
  rw [sourceClaimed_bin]
  by_cases h : c = a
  · subst h; rw [if_pos rfl]; exact ⟨rfl, rfl⟩
  · rw [if_neg h]; exact ⟨rfl, rfl⟩

/-- A staged launch takes its source's claim first (R114). -/
theorem takeClaim_staged (h : s.StagedPasses l q i) :
    State.takeClaim q.source s.nextId { s with nextTransfer := wrapNext Config.maxShortNo s.nextId } =
      s.sourceClaimed q.source := by
  obtain ⟨hold, claim, owner⟩ := h.source
  exact takeClaim_granted { s with nextTransfer := wrapNext Config.maxShortNo s.nextId } hold claim owner s.nextId

/-- A launch to a bin reserves it for the transfer (R114). -/
theorem claimed_reserve (h : s.StagedPasses l q i) {d : BinNo} (hd : q.dest = .bin d) (place : Slot × Bool) :
    s.claimed (q.request l) (s.stagedGrant q i place) = (s.sourceClaimed q.source).reserve d (.transfer s.nextId) i
      (if q.dest = .bin q.source then 0 else s.stagedTarget q) (s.stagedSlots q) := by
  have turn := granted_selfTurn s (q := q) (l := l) (s.stagedGrant q i place)
  have hto : (s.granted (q.request l) (s.stagedGrant q i place)).dest = .bin d := hd
  unfold State.claimed State.holdFor
  rw [hto, if_congr turn rfl rfl]
  dsimp only
  rw [if_neg nofun]
  show (State.takeClaim q.source s.nextId _).reserve d _ _ _ _ = _
  rw [takeClaim_staged s h]
  rfl

/-- The bins after the claims of a launch to a berth (R114). -/
theorem claimed_berth_bin (h : s.StagedPasses l q i) {k : BerthNo} (hd : q.dest = .berth k) (place : Slot × Bool)
    (c : BinNo) : (s.claimed (q.request l) (s.stagedGrant q i place)).bin c =
      if c = q.source then { s.bin q.source with claim := some s.nextId } else s.bin c := by
  have hto : (s.granted (q.request l) (s.stagedGrant q i place)).dest = .berth k := hd
  rw [← sourceClaimed_bin, ← takeClaim_staged s h]
  unfold State.claimed State.holdFor
  rw [hto]
  rfl

/-- The bins after the claims of a self-turn: one slot is reserved (R114). -/
theorem claimed_turn_bin (h : s.StagedPasses l q i) (hd : q.dest = .bin q.source) (place : Slot × Bool) (c : BinNo) :
    (s.claimed (q.request l) (s.stagedGrant q i place)).bin c =
      if c = q.source then { s.bin q.source with
        claim := some s.nextId, holders := [{ who := .transfer s.nextId, kg := 0, slots := 1 }] }
      else s.bin c := by
  obtain ⟨hold, -, -⟩ := h.source
  have owner : (s.bin q.source).fillOwner = .none := by
    have free := h.free.2
    rw [hd] at free
    dsimp only at free
    rwa [if_pos rfl] at free
  have slots : 1 ≤ s.freeSlots q.source := by
    have := h.slots q.source hd
    rwa [stagedSlots_turn hd] at this
  have hb := (sourceClaimed_bin s q.source q.source).trans (if_pos rfl)
  obtain ⟨-, hslots⟩ := sourceClaimed_free s q.source q.source
  rw [claimed_reserve s h hd, if_pos hd, stagedSlots_turn hd,
    reserve_granted _ (by rw [hb]; exact hold) (by rw [hb]; simp [Bin.agrees, h.identity])
      (by rw [hb]; exact congrArg (FillOwner.permits · (.transfer s.nextId)) owner) (Nat.zero_le _) (by rw [hslots]; exact slots),
    State.bin_setBin, hb, sourceClaimed_bin]
  by_cases hc : c = q.source
  · rw [if_pos hc, if_pos hc]
    simp [Bin.reserveFor, h.identity, Bin.holders_of_unowned owner]
  · rw [if_neg hc, if_neg hc, if_neg hc]

/-- The bins after the claims of a launch to another bin (R26, R114). -/
theorem claimed_other_bin (h : s.StagedPasses l q i) {d : BinNo} (hd : q.dest = .bin d) (hne : d ≠ q.source)
    (place : Slot × Bool) (c : BinNo) : (s.claimed (q.request l) (s.stagedGrant q i place)).bin c =
      if c = d then { s.bin d with
        identity := some i
        holders := [{ who := .transfer s.nextId, kg := s.stagedTarget q, slots := s.stagedSlots q }] }
      else if c = q.source then { s.bin q.source with claim := some s.nextId } else s.bin c := by
  have hold : (s.bin d).hold = none := h.unheld.2 d hd
  have owner : (s.bin d).fillOwner = .none := by
    have free := h.free.2
    rw [hd] at free
    dsimp only at free
    rw [if_neg hne] at free
    exact free.2.2
  have agrees : (s.bin d).identity = none ∨ (s.bin d).identity = some i := (h.agrees i h.identity).1 d hd
  have other : q.dest ≠ .bin q.source := by rw [hd]; exact fun e => hne (Dest.bin.inj e)
  have space : s.stagedTarget q ≤ s.freeSpace d := by rw [stagedTarget_bin hd hne]; exact Nat.min_le_right _ _
  have hb := (sourceClaimed_bin s q.source d).trans (if_neg hne)
  obtain ⟨hspace, hslots⟩ := sourceClaimed_free s q.source d
  rw [claimed_reserve s h hd, if_neg other,
    reserve_granted _ (by rw [hb]; exact hold) (by rw [hb]; unfold Bin.agrees; rcases agrees with e | e <;> simp [e])
      (by rw [hb]; exact congrArg (FillOwner.permits · (.transfer s.nextId)) owner) (by rw [hspace]; exact space)
      (by rw [hslots]; exact h.slots d hd),
    State.bin_setBin, hb, sourceClaimed_bin]
  by_cases hc : c = d
  · rw [if_pos hc, if_pos hc]
    rcases agrees with e | e <;> simp [Bin.reserveFor, e, Bin.holders_of_unowned owner]
  · rw [if_neg hc, if_neg hc]

end Bins

end Sys2Proof.Machine
end

section
/-! PROOFS. A staged transfer launched by its owner: its answer, its frame, and each place it can take (R104, R107, R113,
R114, R116, R156). -/

namespace Sys2Proof.Machine

/-! ### Places -/

section Place
variable {g : Leg} {attr : Attr}

theorem Leg.place_empty (h : g.active = none) : g.place attr = some (.active, false) := by unfold Leg.place; rw [h]

theorem Leg.place_givesWay (h : g.givesWay attr) : g.place attr = some (.active, true) := by
  obtain ⟨hp, hs, a, ha, hy⟩ := h
  unfold Leg.place
  rw [ha]
  exact if_pos ⟨hp, hy, by rw [hs]; rfl⟩

theorem Leg.place_waits (ha : g.active ≠ none) (hg : ¬ g.givesWay attr) (hb : g.buffered = none) :
    g.place attr = some (.buffered, false) := by
  obtain ⟨a, ha⟩ := Option.ne_none_iff_exists'.1 ha
  unfold Leg.place
  rw [ha, hb]
  exact (if_neg fun ⟨h1, h2, h3⟩ => hg ⟨h1, by simpa using h3, a, ha, h2⟩).trans (if_pos rfl)

end Place

/-! ### The machine after the launch -/

/-- The machine after a staged launch is committed: the staging area is empty (R107). -/
def State.stagedLaunched (s : State) (l : LegNo) (q : Staging) (i : Identity) (place : Slot × Bool) : State :=
  let w := s.commitLaunch (q.request l) (s.stagedGrant q i place)
  w.setLeg l { w.leg l with staging := none }

/-- The transfer a staged launch makes, before it becomes ACTIVE (R114). -/
def State.stagedTransfer (s : State) (q : Staging) (i : Identity) : Transfer :=
  { id := s.nextId, origin := .station q.owner, source := .bin q.source, dest := q.dest, target := s.stagedTarget q
    delivered := 0, overrun := 0, identity := i, attr := q.attr, state := .buffered, clamps := s.stagedClamps q
    originalRemaining := if q.dest = .bin q.source then some (s.bin q.source).contents else none }

section Launched
variable (s : State) {f : Frame} {l : LegNo} {q : Staging} {i : Identity} {place : Slot × Bool}

theorem granted_staged : s.granted (q.request l) (s.stagedGrant q i place) = s.stagedTransfer q i := by
  have e : (if (q.request l).selfTurn = true then some (s.bin q.source).contents else none) =
      if q.dest = .bin q.source then some (s.bin q.source).contents else none := if_congr selfTurn_staged rfl rfl
  unfold State.stagedTransfer
  rw [← e]
  rfl

theorem stagedLaunched_frame : s.stagedLaunched l q i place = { s with
    bins := (s.stagedLaunched l q i place).bins, legs := (s.stagedLaunched l q i place).legs
    berths := (s.stagedLaunched l q i place).berths
    nextTransfer := if s.nextId < 65535 then s.nextId + 1 else 1 } := by
  unfold State.stagedLaunched
  dsimp only
  rw [commitLaunch_frame]
  rfl

theorem stagedLaunched_leg (m : LegNo) : (s.stagedLaunched l q i place).leg m = if m = l then
    { (s.commitLaunch (q.request l) (s.stagedGrant q i place)).leg l with staging := none }
    else (s.commitLaunch (q.request l) (s.stagedGrant q i place)).leg m := State.leg_setLeg _ _ _ _

/-- Every bin after a staged launch: the source claimed, the destination reserved (R29, R32, R114). -/
theorem stagedLaunched_bin (h : s.StagedPasses l q i) :
    (s.stagedLaunched l q i place).bin q.source = { s.bin q.source with
      claim := some s.nextId
      holders := if q.dest = .bin q.source then [{ who := .transfer s.nextId, kg := 0, slots := 1 }]
        else (s.bin q.source).holders } ∧
    (∀ d, q.dest = .bin d → d ≠ q.source → (s.stagedLaunched l q i place).bin d = { s.bin d with
      identity := some i
      holders := [{ who := .transfer s.nextId, kg := s.stagedTarget q, slots := s.stagedSlots q }] }) ∧
    ∀ b, b ≠ q.source → q.dest ≠ .bin b → (s.stagedLaunched l q i place).bin b = s.bin b := by
  have launched (c : BinNo) : (s.stagedLaunched l q i place).bin c =
      (s.claimed (q.request l) (s.stagedGrant q i place)).bin c := commitLaunch_bin s _ _ c
  simp only [launched]
  cases hd : q.dest with
  | berth k =>
    have h0 := claimed_berth_bin s h hd place
    exact ⟨by rw [h0, if_pos rfl, if_neg nofun], nofun, fun b hb _ => by rw [h0, if_neg hb]⟩
  | bin d =>
    by_cases e : d = q.source
    · subst e
      have h0 := claimed_turn_bin s h hd place
      exact ⟨by rw [h0, if_pos rfl, if_pos rfl], fun c hc hne => absurd (Dest.bin.inj hc).symm hne,
        fun b hb _ => by rw [h0, if_neg hb]⟩
    · have h0 := claimed_other_bin s h hd e place
      refine ⟨?_, fun c hc _ => ?_, fun b hb hne => ?_⟩
      · rw [h0, if_neg (Ne.symm e), if_pos rfl, if_neg fun x => e (Dest.bin.inj x)]
      · rw [← Dest.bin.inj hc, h0, if_pos rfl]
      · rw [h0, if_neg fun x => hne (by rw [x]), if_neg hb]

/-- A launch is asked for by the owner of the staged request, on a leg that is not locked (R107). -/
structure LaunchAsked (s : State) (f : Frame) (l : LegNo) (q : Staging) : Prop where
  heard : Heard s f (supervisorOr [.loadout])
  leg : decodeOne 1 f.payload = some l.val
  staged : (s.leg l).staging = some q
  owner : q.owner = f.station
  protect : s.flag (flagProtect l) = false
  sequence : s.flag (flagSequence l) = false

/-- A launch that is asked for and passes is committed and answered (R107, R114). -/
theorem exec_launch_staged (ask : LaunchAsked s f l q) (h : s.StagedPasses l q i)
    (hp : (s.leg l).place q.attr = some place) :
    exec (.launch f) s = answered 0x61#8 f (s.stagedLaunched l q i place)
      (launchAnswer l place.1 q.kg (s.stagedLaunched l q i place)) := by
  refine answered_of_act ask.heard ask.leg ?_
  have unlocked : s.legLocked l = false := by unfold State.legLocked; rw [ask.protect, ask.sequence]; rfl
  have launched : s.launch (q.request l) =
      (s.commitLaunch (q.request l) (s.stagedGrant q i place), .placed s.nextId place.1) := by
    unfold State.launch
    rw [launchChecks_staged s h hp]
    rfl
  unfold actLaunch
  rw [index_val]
  dsimp only
  rw [ask.staged]
  dsimp only
  rw [unlessFails_none (by simp [firstFailure, ask.owner, unlocked])]
  unfold State.launchStaged
  rw [launched]
  rfl

/-- The answer of a launch, from the transfer it has placed (R114). -/
theorem launchAnswer_of_slot {t : State} {slot : Slot} {kg : Nat} {x : Transfer} (h : (t.leg l).slot slot = some x) :
    launchAnswer l slot kg t = ⟨if x.target = kg then .ok else .clamped,
      short x.id ++ mass x.target ++ flagSet x.clamps.bits ++ small slot.code ++ small x.state.code⟩ := by
  unfold launchAnswer; rw [h]

/-- The launch is answered with the transfer it has placed, and what lies outside its leg, its bins and its berth stands
(R114). -/
def LaunchPlaced (s : State) (f : Frame) (l : LegNo) (q : Staging) (i : Identity) (t : State) (slot : Slot)
    (x : Transfer) : Prop :=
  exec (.launch f) s = answered 0x61#8 f t
    ⟨if x.target = q.kg then .ok else .clamped,
      short x.id ++ mass x.target ++ flagSet x.clamps.bits ++ small slot.code ++ small x.state.code⟩ ∧
  t = { s with
    bins := t.bins, legs := t.legs, berths := t.berths, nextTransfer := if s.nextId < 65535 then s.nextId + 1 else 1 } ∧
  (∀ m, m ≠ l → t.leg m = s.leg m) ∧
  t.bin q.source = { s.bin q.source with
    claim := some s.nextId
    holders := if q.dest = .bin q.source then [{ who := .transfer s.nextId, kg := 0, slots := 1 }]
      else (s.bin q.source).holders } ∧
  (∀ d, q.dest = .bin d → d ≠ q.source → t.bin d = { s.bin d with
    identity := some i
    holders := [{ who := .transfer s.nextId, kg := s.stagedTarget q, slots := s.stagedSlots q }] }) ∧
  ∀ b, b ≠ q.source → q.dest ≠ .bin b → t.bin b = s.bin b

theorem launch_placed (ask : LaunchAsked s f l q) (h : s.StagedPasses l q i)
    (hp : (s.leg l).place q.attr = some place) {x : Transfer}
    (hx : ((s.stagedLaunched l q i place).leg l).slot place.1 = some x)
    (others : ∀ m, m ≠ l → (s.commitLaunch (q.request l) (s.stagedGrant q i place)).leg m = s.leg m) :
    LaunchPlaced s f l q i (s.stagedLaunched l q i place) place.1 x :=
  ⟨(exec_launch_staged s ask h hp).trans (by rw [launchAnswer_of_slot hx]), stagedLaunched_frame s,
    fun m hm => ((stagedLaunched_leg s m).trans (if_neg hm)).trans (others m hm), stagedLaunched_bin s h⟩

/-- The transfer of a staged launch once it is ACTIVE (R116). -/
def State.startedTransfer (s : State) (l : LegNo) (q : Staging) (i : Identity) : Transfer :=
  { s.stagedTransfer q i with
    state := if (s.leg l).lastCarried.admits i = true ∨ s.settings.cleanout.get l = 0 then .running
      else .cleanout (s.settings.cleanout.get l) }

/-- The identity the leg carried last, once the transfer is ACTIVE (R116). -/
def State.carriedAfter (s : State) (l : LegNo) (i : Identity) : LastCarried :=
  if (s.leg l).lastCarried.admits i = true ∨ s.settings.cleanout.get l = 0 then .carried i else (s.leg l).lastCarried

/-- A launch into an empty ACTIVE slot (R113). -/
theorem launch_into_active (ask : LaunchAsked s f l q) (h : s.StagedPasses l q i) (ha : (s.leg l).active = none) :
    ∃ t, LaunchPlaced s f l q i t .active (s.startedTransfer l q i) ∧
      t.leg l = { s.leg l with
        active := some (s.startedTransfer l q i), staging := none, lastCarried := s.carriedAfter l i } ∧
      ∀ k, t.berth k = if q.dest = .berth k then { s.berth k with claim := some s.nextId, state := .loading }
        else s.berth k := by
  obtain ⟨hleg, hberth⟩ := commitLaunch_active s (q.request l) (s.stagedGrant q i (.active, false)) rfl rfl
  rw [granted_staged] at hleg
  have leg : (s.stagedLaunched l q i (.active, false)).leg l = { s.leg l with
      active := some (s.startedTransfer l q i), staging := none, lastCarried := s.carriedAfter l i } := by
    rw [stagedLaunched_leg, if_pos rfl, (hleg l).trans (if_pos rfl)]
    rfl
  exact ⟨_, launch_placed s ask h (Leg.place_empty ha) (by rw [leg]; rfl) fun m hm => (hleg m).trans (if_neg hm), leg,
    hberth⟩

/-- A launch into BUFFERED (R113). -/
theorem launch_into_buffered (ask : LaunchAsked s f l q) (h : s.StagedPasses l q i) (ha : (s.leg l).active ≠ none)
    (hg : ¬ (s.leg l).givesWay q.attr) (hb : (s.leg l).buffered = none) :
    ∃ t, LaunchPlaced s f l q i t .buffered (s.stagedTransfer q i) ∧
      t.leg l = { s.leg l with buffered := some (s.stagedTransfer q i), staging := none } ∧
      ∀ k, t.berth k = if q.dest = .berth k then { s.berth k with claim := some s.nextId } else s.berth k := by
  obtain ⟨hleg, hberth⟩ := commitLaunch_buffered s (q.request l) (s.stagedGrant q i (.buffered, false)) rfl rfl
  rw [granted_staged] at hleg
  have leg : (s.stagedLaunched l q i (.buffered, false)).leg l = { s.leg l with
      buffered := some (s.stagedTransfer q i), staging := none } := by
    rw [stagedLaunched_leg, if_pos rfl, (hleg l).trans (if_pos rfl)]
    rfl
  exact ⟨_, launch_placed s ask h (Leg.place_waits ha hg hb) (by rw [leg]; rfl) fun m hm => (hleg m).trans (if_neg hm),
    leg, hberth⟩

/-- A launch that takes the ACTIVE slot from a YIELD transfer (R113, R156). -/
theorem launch_preempting (ask : LaunchAsked s f l q) (h : s.StagedPasses l q i) {a : Transfer}
    (ha : (s.leg l).active = some a) (hg : (s.leg l).givesWay q.attr) :
    ∃ t, LaunchPlaced s f l q i t .active (s.startedTransfer l q i) ∧
      t.leg l = { s.leg l with
        active := some (s.startedTransfer l q i), suspended := some { a with state := .suspended }, staging := none
        lastCarried := s.carriedAfter l i } ∧
      ∀ k, t.berth k =
        let b := if a.dest = .berth k then { s.berth k with
            state := if (s.berth k).barge ≠ none ∧ (s.berth k).readyConditions = true then .ready else .assigned }
          else s.berth k
        if q.dest = .berth k then { b with claim := some s.nextId, state := .loading } else b := by
  obtain ⟨hleg, hberth⟩ := commitLaunch_preempting s (q.request l) (s.stagedGrant q i (.active, true)) rfl rfl ha
  rw [granted_staged] at hleg
  have leg : (s.stagedLaunched l q i (.active, true)).leg l = { s.leg l with
      active := some (s.startedTransfer l q i), suspended := some { a with state := .suspended }, staging := none
      lastCarried := s.carriedAfter l i } := by
    rw [stagedLaunched_leg, if_pos rfl, (hleg l).trans (if_pos rfl)]
    rfl
  refine ⟨_, launch_placed s ask h (Leg.place_givesWay hg) (by rw [leg]; rfl) fun m hm => (hleg m).trans (if_neg hm),
    leg, fun k => ?_⟩
  have hk := hberth k
  rw [Berth.settleReady_assigned] at hk
  exact hk

end Launched

/-- Settles O45: the second part, for every request and every place, and the first as its instance for two bins and an
empty ACTIVE slot. -/
theorem launchCommitsABinTransfer : Obligations.LaunchCommitsABinTransfer := by
  refine ⟨?bins, ?every⟩
  case every =>
    intro s f l q i hh hd staged owner protect sequence hopen unheld permitted free ready agrees identity granted space
      slots
    have ask : LaunchAsked s f l q := ⟨hh, hd, staged, owner, protect, sequence⟩
    have h : s.StagedPasses l q i :=
      ⟨hopen, unheld, permitted, free, ready, agrees, identity, granted, space, slots⟩
    rw [← owner]
    exact ⟨fun ha => launch_into_active s ask h ha, fun ha hg hb => launch_into_buffered s ask h ha hg hb,
      fun a ha hg => launch_preempting s ask h ha hg⟩
  case bins =>
    intro s f l a d kg attr i hh hd hne staged protect sequence stopped estop holdA holdD permitted claimA ownerA claimD
      free identity agrees active plan cut need hcut hneed clean x
    obtain ⟨q, hq⟩ : ∃ q : Staging, q = { owner := f.station, source := a, dest := .bin d, kg := kg, attr := attr } :=
      ⟨_, rfl⟩
    have dest : q.dest = .bin d := by rw [hq]
    have source : q.source = a := by rw [hq]
    have other : d ≠ q.source := by rw [source]; exact hne.symm
    have turn : q.dest ≠ .bin q.source := by rw [dest]; exact fun e => other (Dest.bin.inj e)
    have unowned : (s.bin d).fillOwner = .none := Bin.fillOwner_of_none free
    have hplan : s.stagedPlan q = plan := by rw [hq]; unfold State.stagedPlan; dsimp only; rw [if_neg hne.symm]
    have target : s.stagedTarget q = cut := by rw [stagedTarget_bin dest other, hplan]
    have slots : s.stagedSlots q = need := by rw [stagedSlots_bin dest other, target, source]
    have granted : plan.granted ≠ 0 ∧ s.freeSpace d ≠ 0 := by unfold cut at hcut; omega
    have ask : LaunchAsked s f l q := ⟨hh, hd, by rw [hq]; exact staged, by rw [hq], protect, sequence⟩
    have h : s.StagedPasses l q i := {
      legOpen := ⟨estop, stopped⟩
      unheld := ⟨by rw [source]; exact holdA, fun c e => by rw [dest] at e; cases e; exact holdD⟩
      permitted := by
        have hs : (s.station q.owner).cls = (s.station f.station).cls := by rw [hq]
        by_cases super : (s.station f.station).cls = .supervisor
        · exact .inl (hs.trans super)
        · have unrestricted : (s.binSet a).restricted = false ∧ (s.binSet d).restricted = false := by
            simpa using mt permitted super
          exact .inr ⟨by rw [source]; exact unrestricted.1, fun c e => by rw [dest] at e; cases e; exact unrestricted.2⟩
      free := by
        unfold State.stagedFree
        rw [dest, source]
        exact ⟨claimA, (if_neg hne.symm).mpr ⟨ownerA, claimD, unowned⟩⟩
      ready := fun k e => by rw [dest] at e; cases e
      agrees := fun j e => by
        rw [source, identity] at e
        cases e
        exact ⟨fun c e => by rw [dest] at e; cases e; exact agrees, fun k e => by rw [dest] at e; cases e⟩
      identity := by rw [source]; exact identity
      granted := by rw [hplan]; exact granted.1
      space := fun c e _ => by rw [dest] at e; cases e; exact granted.2
      slots := fun c e => by rw [dest] at e; cases e; rw [slots]; exact hneed }
    have started : s.startedTransfer l q i = x := by
      have clamps : s.stagedClamps q = { plan.cause.clamps with space := decide (cut < plan.granted) } := by
        unfold State.stagedClamps; rw [dest, hplan, target]
      unfold State.startedTransfer State.stagedTransfer
      rw [clamps, target, if_neg turn, hq]
    obtain ⟨t, ⟨answer, frame, legs, atA, atD, bins⟩, leg, berths⟩ := launch_into_active s ask h active
    have stands : t.berths = s.berths := State.berths_eq s fun k => (berths k).trans (if_neg (by rw [dest]; nofun))
    rw [started] at answer leg
    rw [stands] at frame
    rw [if_neg turn, source] at atA
    rw [target, slots] at atD
    exact ⟨t, by rw [hq] at answer; exact answer, frame, leg, atA, atD d dest other,
      fun b h1 h2 => bins b (by rw [source]; exact h1) (by rw [dest]; exact fun e => h2 (Dest.bin.inj e).symm), legs⟩

end Sys2Proof.Machine
end

section
/-! PROOFS. Weights, shrink and the scale sample: a converted weight is the nearest whole number of divisions (R50), the
shrink figures add back to the wet kilograms (R53), and a sample is converted, kept in the window and judged (R51, R63). -/

namespace Sys2Proof.Machine

/-! ### The conversion -/

/-- The whole number that `roundNearest` takes for a numerator without its sign: it is at most half a unit away, and at
exactly half a unit it is the larger of the two (R50). -/
theorem half_up_nearest (a : Nat) {q : Nat} (hq : 0 < q) :
    let m := (2 * a + q) / (2 * q)
    2 * a ≤ 2 * (m * q) + q ∧ 2 * (m * q) ≤ 2 * a + q ∧ 2 * a ≠ 2 * (m * q) + q := by
  intro m
  have below : m * (2 * q) ≤ 2 * a + q := Nat.div_mul_le_self _ _
  have above : 2 * a + q < (m + 1) * (2 * q) := Nat.lt_mul_of_div_lt (Nat.lt_succ_self _) (by omega)
  have scaled : m * (2 * q) = 2 * (m * q) := Nat.mul_left_comm m 2 q
  rw [Nat.add_mul, scaled] at above
  omega

/-- A quotient rounded to the nearest whole number, halves away from zero (R50). -/
theorem roundNearest_nearest (p : Int) {q : Nat} (hq : 0 < q) :
    2 * (p - roundNearest p q * q).natAbs ≤ q ∧
      (2 * (p - roundNearest p q * q).natAbs = q → p.natAbs ≤ (roundNearest p q * q).natAbs) := by
  obtain ⟨low, high, strict⟩ := half_up_nearest p.natAbs hq
  unfold roundNearest
  dsimp only
  set m := (2 * p.natAbs + q) / (2 * q)
  have size : ((m : Int) * q).natAbs = m * q := Int.natAbs_mul _ _
  have cast : ((m * q : Nat) : Int) = (m : Int) * q := Nat.cast_mul m q
  split
  · rw [Int.neg_mul, Int.natAbs_neg, size]
    omega
  · rw [size]
    omega

/-- Settles O29: the divisions of a converted weight are `roundNearest` of the raw product. -/
theorem conversionRoundsHalvesAwayFromZero : Obligations.ConversionRoundsHalvesAwayFromZero := by
  intro cal c hd
  have hq : 0 < 1000000 * cal.division := by omega
  have unit : ((1000000 * cal.division : Nat) : Int) = 1000000 * (cal.division : Int) := Nat.cast_mul _ _
  have nearest := roundNearest_nearest ((c - cal.zero) * cal.span) hq
  refine ⟨roundNearest ((c - cal.zero) * cal.span) (1000000 * cal.division), rfl, ?_⟩
  rw [← unit]
  exact nearest

/-! ### The shrink of a portion -/

/-- Within the ranges of R53 the figures add back: dry and handling to the dried kilograms, and those with the water to
the wet ones. -/
theorem shrink_parts (w inlet outlet : Nat) {h : Nat} (hh : h ≤ 100) :
    let x := shrink w inlet outlet h
    let dried := w * (1000 - inlet) / (1000 - effectiveMoisture outlet inlet)
    x.dry + x.handling = dried ∧ x.water + dried = w := by
  intro x dried
  have noDrier : effectiveMoisture outlet inlet ≤ inlet := by unfold effectiveMoisture; split <;> omega
  have lighter : dried ≤ w := Nat.div_le_of_le_mul (by
    rw [Nat.mul_comm]
    exact Nat.mul_le_mul_right w (by omega))
  have lost : dried * h ≤ dried * 100 := Nat.mul_le_mul_left dried hh
  have hdry : x.dry = dried - (dried * h + 5000) / 10000 := rfl
  have hhandling : x.handling = (dried * h + 5000) / 10000 := rfl
  have hwater : x.water = w - dried := rfl
  omega

/-- Settles O43. -/
theorem shrinkLosesNoKilogram : Obligations.ShrinkLosesNoKilogram := by
  intro w inlet outlet h _ hh x me d1
  obtain ⟨dry, water⟩ := shrink_parts w inlet outlet hh
  have sum := shrink_sum w inlet outlet hh
  exact ⟨rfl, rfl, dry, water, by rw [Nat.add_assoc]; exact sum⟩

/-! ### The scale sample -/

theorem listMax_le_iff {z c : Int} {zs : List Int} : listMax z zs ≤ c ↔ ∀ a ∈ z :: zs, a ≤ c := by
  unfold listMax
  induction zs generalizing z with
  | nil => simp
  | cons y zs ih => rw [List.foldl_cons, ih]; simp [and_assoc]

theorem le_listMin_iff {z c : Int} {zs : List Int} : c ≤ listMin z zs ↔ ∀ a ∈ z :: zs, c ≤ a := by
  unfold listMin
  induction zs generalizing z with
  | nil => simp
  | cons y zs ih => rw [List.foldl_cons, ih]; simp [and_assoc]

/-- The largest and the smallest weight are within the band exactly when any two are (R51). -/
theorem withinBand_iff (band division : Nat) (zs : List Int) :
    withinBand band division zs = true ↔ ∀ a ∈ zs, ∀ b ∈ zs, a - b ≤ (band : Int) * division := by
  cases zs with
  | nil => simp [withinBand]
  | cons z zs =>
    calc withinBand band division (z :: zs) = true
      _ ↔ listMax z zs ≤ (band * division : Nat) + listMin z zs := by
        rw [withinBand, decide_eq_true_eq, sub_le_iff_le_add]
      _ ↔ ∀ a ∈ z :: zs, a - (band * division : Nat) ≤ listMin z zs := by
        rw [listMax_le_iff]; simp only [sub_le_iff_le_add']
      _ ↔ ∀ a ∈ z :: zs, ∀ b ∈ z :: zs, a - b ≤ (band : Int) * division := by
        simp only [le_listMin_iff, Nat.cast_mul, sub_le_comm]

/-- The status of a channel after a sample, in the figures of R51 and R63. -/
theorem sampleStatus_eq (set : ScaleSettings) (window : List Sample) (w : Int) : sampleStatus set window w =
    if w > (set.cal.capacity : Int) + 9 * set.cal.division then .overload
    else if w < -(20 * (set.cal.division : Int)) then .underload
    else if window.length = set.n ∧
      ∀ a ∈ window, ∀ b ∈ window, a.weight - b.weight ≤ (set.band : Int) * set.cal.division then .stable
    else .motion := by
  unfold sampleStatus
  simp only [withinBand_iff, List.forall_mem_map, Nat.cast_add, Nat.cast_mul, Nat.cast_ofNat]

theorem faultStatus_eq (before after : ChannelStatus) :
    faultStatus before after = decide ((after = .overload ∨ after = .underload) ∧ after ≠ before) := by
  rw [Bool.eq_iff_iff]
  simp [faultStatus]

/-- Settles O28. -/
theorem scaleSampleIsConvertedAndJudged : Obligations.ScaleSampleIsConvertedAndJudged := by
  intro s f c x h hd set w all window status
  refine (answered_of_heard h hd).trans ?_
  have judged : sampleStatus set window w = status := sampleStatus_eq set window w
  have sampled : (s.channel c).sample (s.scaleSet c) s.timebase x =
      { window := window, lastSample := some s.timebase, signal := some 3, status := status } :=
    congrArg (Channel.mk window (some s.timebase) (some 3)) judged
  have calibrated : (s.scaleSet c).cal.calibrated = set.cal.calibrated := rfl
  unfold actScaleSample
  simp only [index_val, sampled, faultStatus_eq, calibrated]
  cases set.cal.calibrated <;> rfl

end Sys2Proof.Machine
end

section
/-! PROOFS. A grade report: the grade written, and the automatic assignment that follows it (R48, R72, R73, R75). -/

namespace Sys2Proof.Machine

/-- The lot table never refuses a binding with NO_SPACE (R3, R4). -/
theorem State.bindCheck_refused_ne_noSpace {s : State} {g : Grade} {kg : Nat} {code : Status}
    (h : s.bindCheck g kg = .refused code) : code ≠ .noSpace := by
  rintro rfl
  unfold State.bindCheck at h
  repeat' split at h
  all_goals cases h

/-- What a grade report makes of the ticket table (R72). -/
def State.graded (n : Nat) (g : Grade) (s : State) : State :=
  s.modTicket n fun x => { x with state := .graded, grade := some g }

/-- The answer of a grade report after automatic assignment, and the NO_SPACE event (R72, R75). -/
def gradeAnswer (wet : List Byte) : State × Except Status (BinNo × Nat) → State × Answer
  | (s, .ok x) => accept (wet ++ encodeAssigned (some (.ok x))) s
  | (s, .error code) => accept (wet ++ encodeAssigned (some (.error code))) (s.raiseIf (code == .noSpace) flagNoSpace)

section Report
variable {s : State} {st : StationNo} {r : GradeReport} {t : Ticket} {c : GrainClass}

/-- A report on a ticket that is assigned or dumped (R72). -/
theorem actGradeReport_bound (ht : s.ticket? r.ticket = some t) (hc : classOf r.commodity r.grade = some c)
    (hs : t.state = .assigned ∨ t.state = .dumped) : actGradeReport st r s = (s, ⟨.state, []⟩) := by
  unfold actGradeReport
  rw [ht]
  dsimp only
  rw [hc]
  exact unlessFails_some (by rcases hs with e | e <;> simp [firstFailure, e])

/-- A report on a ticket that is not yet assigned (R72). -/
theorem actGradeReport_unbound (ht : s.ticket? r.ticket = some t) (hc : classOf r.commodity r.grade = some c)
    (hs : t.state = .weighedIn ∨ t.state = .graded) :
    let u := s.graded r.ticket (r.toGrade c)
    let wet := onOff (s.isWet (r.toGrade c))
    actGradeReport st r s =
      if s.settings.intake.autoAssign = true then gradeAnswer wet (u.autoAssign st t (r.toGrade c))
      else accept (wet ++ encodeAssigned none) u := by
  obtain ⟨-, hn⟩ := State.ticket?_mem ht
  intro u wet
  have hu : s.modTicket t.number (fun x => { x with state := .graded, grade := some (r.toGrade c) }) = u := by
    rw [hn]; rfl
  unfold actGradeReport
  rw [ht]
  dsimp only
  rw [hc]
  dsimp only
  rw [unlessFails_none (by rcases hs with e | e <;> simp [firstFailure, e]), hu]
  have hauto : u.settings = s.settings := rfl
  rw [hauto]
  split
  · unfold gradeAnswer
    rcases u.autoAssign st t (r.toGrade c) with ⟨v, code | x⟩ <;> rfl
  · rfl

/-- Automatic assignment at the bin that R75 chooses is the lot check and the assignment (R73, R75). -/
theorem State.autoAssign_chosen {g : Grade} {b : BinNo} (h : s.DumpChoice st g (s.estimate t) b) :
    s.autoAssign st t g =
      match s.bindCheck g (s.estimate t) with
      | .refused code => (s, .error code)
      | bound => (s.assign t g b bound, .ok (b, bound.lot)) := by
  unfold State.autoAssign State.assignChecked
  rw [(s.chooseBin_eq_some st g _).2 h]
  cases s.bindCheck g (s.estimate t) <;> rfl

theorem State.autoAssign_noBin {g : Grade} (h : ∀ b, ¬ s.TakesDump st g (s.estimate t) b) :
    s.autoAssign st t g = (s, .error .noSpace) := by
  unfold State.autoAssign
  rw [(s.chooseBin_eq_none st g _).2 h]

end Report

/-- Settles O32. -/
theorem gradeReportGradesTheTicket : Obligations.GradeReportGradesTheTicket := by
  intro s f r t c h hd ht hc g wet u
  refine ⟨fun hs => answered_of_act h hd (actGradeReport_bound ht hc hs), fun hs => ?_⟩
  have act : actGradeReport f.station r s =
      if s.settings.intake.autoAssign = true then gradeAnswer wet (u.autoAssign f.station t g)
      else accept (wet ++ encodeAssigned none) u := actGradeReport_unbound ht hc hs
  refine ⟨fun manual => ?_, fun auto => ⟨fun full => ?_, fun b chosen => ?_⟩⟩
  · rw [manual] at act
    exact answered_of_act h hd act
  · rw [if_pos auto, State.autoAssign_noBin full] at act
    exact answered_of_act h hd act
  · rw [if_pos auto, State.autoAssign_chosen chosen] at act
    cases bound : u.bindCheck g (u.estimate t) with
    | refused code =>
      have other : (code == .noSpace) = false := beq_false_of_ne (State.bindCheck_refused_ne_noSpace bound)
      rw [bound] at act
      dsimp only [gradeAnswer] at act
      rw [other] at act
      exact answered_of_act h hd act
    | found n | created n kind =>
      rw [bound] at act
      exact answered_of_act h hd act

end Sys2Proof.Machine
end

section
/-! PROOFS. River changes: the load limits computed again stand through the ends of the transfers they halt (R58, R59,
R164 to R167). -/

namespace Sys2Proof.Machine

/-! ### Load limits that stand -/

/-- Every berth has the load limit it had. -/
def SameLimits (s t : State) : Prop := ∀ k, (t.berth k).loadLimit = (s.berth k).loadLimit

section Limits
variable {s t u : State}

theorem SameLimits.refl (s : State) : SameLimits s s := fun _ => rfl

theorem SameLimits.trans (h : SameLimits s t) (k : SameLimits t u) : SameLimits s u := fun b => (k b).trans (h b)

theorem SameLimits.foldl {α : Type} {f : State → α → State} (h : ∀ s a, SameLimits s (f s a)) (l : List α) (s : State) :
    SameLimits s (l.foldl f s) := by
  induction l generalizing s with
  | nil => exact .refl s
  | cons a l ih => exact (h s a).trans (ih _)

theorem Untouched.sameLimits (h : Untouched s t) : SameLimits s t := fun k => by rw [h.berth]

/-- A change of the berths that a transfer goes to, each of which keeps its limit. -/
theorem SameLimits.of_berths {p : BerthNo → Prop} [DecidablePred p] {f : Berth → Berth}
    (h : ∀ k, t.berth k = if p k then f (s.berth k) else s.berth k) (hf : ∀ b, (f b).loadLimit = b.loadLimit) :
    SameLimits s t := by
  intro k
  rw [h]
  split
  · exact hf _
  · rfl

end Limits

section Berths
variable (b : Berth)

theorem Berth.settleReady_loadLimit : b.settleReady.loadLimit = b.loadLimit := by
  unfold Berth.settleReady; split <;> rfl

theorem Berth.completedTo_loadLimit : b.completedTo.loadLimit = b.loadLimit := by
  unfold Berth.completedTo; split
  · rfl
  · exact Berth.settleReady_loadLimit _

theorem Berth.ended_loadLimit (reason : EndReason) : (b.ended reason).loadLimit = b.loadLimit := by
  unfold Berth.ended; split
  · rfl
  · rfl
  · split
    · rfl
    · rfl
    · exact b.completedTo_loadLimit
  · split
    · rfl
    · exact b.completedTo_loadLimit

theorem Berth.released_loadLimit (id : Nat) (reason : EndReason) : (b.released id reason).loadLimit = b.loadLimit :=
  Berth.ended_loadLimit _ _

end Berths

section Ends
variable (s : State)

theorem enterActive_sameLimits (l : LegNo) (t : Transfer) : SameLimits s (s.enterActive l t) :=
  .of_berths (f := fun b => { b with state := .loading }) (enterActive_effect s l t).2 fun _ => rfl

theorem endSlot_sameLimits (l : LegNo) (k : Slot) (reason : EndReason) : SameLimits s (s.endSlot l k reason) := by
  cases ht : (s.leg l).slot k with
  | none => rw [endSlot_empty s reason ht]; exact .refl s
  | some t =>
    exact .of_berths (f := fun b => b.released t.id reason) (endSlot_effect s reason ht).2 fun b =>
      b.released_loadLimit _ _

/-- A waiting transfer becomes active, or is ended and the next is taken (R115, R123). -/
theorem fillActive_sameLimits (l : LegNo) (n : Nat) : SameLimits s (s.fillActive l n) := by
  induction n generalizing s with
  | zero => unfold State.fillActive; exact .refl s
  | succ n ih =>
    have advance (t : Transfer) (g : Leg) : SameLimits s (State.fillActive.advance l n t g s) := by
      have put (g : Leg) : SameLimits s (s.setLeg l g) := fun _ => rfl
      unfold State.fillActive.advance
      split
      · exact (put _).trans (enterActive_sameLimits _ l _)
      · exact ((put _).trans (endSlot_sameLimits _ l _ _)).trans (ih _)
    unfold State.fillActive
    dsimp only
    split
    · exact .refl s
    · split
      · exact advance _ _
      · exact advance _ _
      · exact .refl s

theorem settleLeg_sameLimits (l : LegNo) : SameLimits s (s.settleLeg l) :=
  (fillActive_sameLimits s l 2).trans (Untouched.raiseIf _ _ _).sameLimits

/-- A launch to a bin that takes no slot from another transfer touches no berth (R113). -/
theorem commitLaunch_bin_sameLimits {r : LaunchRequest} {g : Grant} {d : BinNo} (hd : r.dest = .bin d)
    (hp : g.preempts = false) : SameLimits s (s.commitLaunch r g) := by
  have away (k : BerthNo) : r.dest ≠ .berth k := by rw [hd]; exact nofun
  have claimed : SameLimits s (s.claimed r g) := fun k => by rw [claimed_berth, if_neg (away k)]
  rw [commitLaunch_eq, hp]
  cases g.slot with
  | active => exact claimed.trans (enterActive_sameLimits _ _ _)
  | buffered | suspended => exact claimed

/-- The dryer's try is a launch to a bin (R92). -/
theorem tryDischarge_sameLimits : SameLimits s s.tryDischarge.1 := by
  obtain ⟨-, h⟩ | ⟨b, -, ⟨code, limit, -, h⟩ | ⟨g, hg, h⟩⟩ := tryDischarge_cases s <;> rw [h]
  · exact .refl s
  · exact (Untouched.raiseIf s _ _).sameLimits
  · exact commitLaunch_bin_sameLimits s (r := s.dischargeRequest b) rfl
      (Leg.place_preempts (launchChecks_ok s hg).2 nofun)

theorem examine_sameLimits : SameLimits s s.examine := fun k => by
  unfold State.berth; rw [(examine_examined s).berths_eq]

/-- The ends of transfers and all that follows them leave every load limit (R122, R123, R138). -/
theorem endTransfers_sameLimits (vs : List Victim) : SameLimits s (s.endTransfers vs) := by
  unfold State.endTransfers
  split
  · exact .refl s
  · extract_lets s1 legs s2 s3
    have ends : SameLimits s s1 := .foldl (fun t (v : Victim) => endSlot_sameLimits t v.leg v.slot v.reason) _ s
    have settled : SameLimits s1 s2 := .foldl (fun t l => settleLeg_sameLimits t l) _ _
    have tried : SameLimits s2 s3 := by
      unfold s3; split
      · exact tryDischarge_sameLimits _
      · exact .refl _
    exact ((ends.trans settled).trans tried).trans (examine_sameLimits _)

end Ends

/-! ### The limits computed again -/

/-- Every berth with a barge has the load limit of the stage in use, and is over limit as its cargo says (R58, R166). -/
def State.Limited (t : State) : Prop := ∀ k g, (t.berth k).barge = some g →
  (t.berth k).loadLimit = loadLimitOf t.settings.river t.river g ∧
    ((t.berth k).overLimit = true ↔ (t.berth k).loadLimit < (t.berth k).cargo.q)

section Recomputed
variable (s : State)

/-- Both load limits computed again: each berth has its limit and over limit before the halted transfers are ended, and
the ends keep them (R166). -/
theorem recomputeLimits_limited : s.recomputeLimits.Limited := by
  intro k g hg
  have kept := recomputeLimits_quiet s
  obtain ⟨cargo, -, -, -, barge⟩ := kept.berths k
  have river : s.recomputeLimits.settings = s.settings ∧ s.recomputeLimits.river = s.river := by
    rw [kept.frame]; exact ⟨rfl, rfl⟩
  obtain ⟨limit, past⟩ := Berth.relimited_limit s.settings.river s.river (barge.symm.trans hg)
  have sameLimit : (s.recomputeLimits.berth k).loadLimit = ((s.berth k).relimited s.settings.river s.river).loadLimit := by
    rw [← berth_relimited]; exact endTransfers_sameLimits _ _ k
  have sameOver : (s.recomputeLimits.berth k).overLimit = ((s.berth k).relimited s.settings.river s.river).overLimit := by
    rw [← berth_relimited]; exact (endTransfers_settles _ _).limits k
  rw [sameLimit, sameOver, cargo, river.1, river.2]
  exact ⟨limit, by rw [limit]; exact past⟩

/-- A flag that is set stays set when the limits are computed again (R182). -/
theorem recomputeLimits_flag {f : Flag} (h : s.flag f = true) : s.recomputeLimits.flag f = true := by
  have one (u : State) (k : BerthNo) (hu : u.flag f = true) : (u.recomputeLimit k).flag f = true := by
    unfold State.recomputeLimit
    dsimp only
    split
    · exact hu
    · have raised (v : State) (hv : v.events = u.events) (g : Flag) : (v.raise g).flag f = true := by
        rw [State.flag_raise, State.flag_congr hv, hu, Bool.or_true]
      split
      · split
        · exact hu
        · split <;> exact raised _ rfl _
      · exact hu
  exact (endTransfers_settles _ _).kept f (one _ 1 (one _ 0 h))

/-- A new stale time is the one river setting that computes no limit again (R167). -/
theorem setRiver_eq (x : RiverSetting) (h : ∀ n, x ≠ .staleTime n) : s.setRiver x =
    State.recomputeLimits { s with settings := { s.settings with river := s.settings.river.apply x } } := by
  cases x with
  | staleTime n => exact absurd rfl (h n)
  | _ => rfl

end Recomputed

/-- Settles O54. -/
theorem riverChangesSetBothLoadLimits : Obligations.RiverChangesSetBothLoadLimits := by
  refine ⟨fun s f z h hd => ?reading, fun s hp => ⟨fun stopped => ?stopped, fun running => ?expiry⟩,
    fun s f x h hd hr hi => ?setting⟩
  case reading =>
    exact ⟨_, answered_of_act h hd rfl, (recomputeLimits_quiet _).toNoGrainMoved, recomputeLimits_limited _⟩
  case stopped =>
    show Host.Outcome.next (s.whenPowered State.riverExpired) = _
    rw [State.whenPowered, if_pos hp, State.riverExpired, stopped]
    rfl
  case expiry =>
    refine ⟨_, ?_, ((Quiet.raise _ flagStageStale).trans (recomputeLimits_quiet _)).toNoGrainMoved,
      recomputeLimits_limited _, recomputeLimits_flag _ (State.flag_raise_same _ _)⟩
    show Host.Outcome.next (s.whenPowered State.riverExpired) = _
    rw [State.whenPowered, if_pos hp, State.riverExpired, if_pos (Option.isSome_iff_ne_none.2 running)]
  case setting =>
    have act : actSetRiverSettings f.station x s = (s.setRiver x, ⟨.ok, []⟩) :=
      unlessFails_none (by simp [firstFailure, hr, State.committing_eq_false.2 hi])
    refine ⟨?_, fun hx => ?_⟩
    · rintro n rfl
      exact answered_of_act h hd act
    · rw [setRiver_eq s x hx] at act
      exact ⟨_, answered_of_act h hd act, (recomputeLimits_quiet _).toNoGrainMoved, recomputeLimits_limited _⟩

end Sys2Proof.Machine
end

section
/-! PROOFS. Temperature Report and the stale expiry of a bin: the reading, the hot state, auto-turn, and the examination
that follows a change (R48, R132 to R134, R138, R143). -/

namespace Sys2Proof.Machine

/-! ### Auto-turn -/

section AutoTurn
variable (s : State) (b : BinNo)

/-- A schedule entry that a new turn may take (R143). -/
def State.openEntry (n : EntryNo) : Prop := ∀ e, s.entry n = some e → e.state = .ended ∧ e.inFlight = none

/-- A bin that becomes HOT is to be turned: auto-turn is on, there is no hold, and no entry that has not ended names it
(R143). -/
def State.toBeTurned : Prop :=
  (s.binSet b).autoTurn = true ∧ (s.bin b).hold = none ∧
    ¬ ∃ n e, s.entry n = some e ∧ (e.source = b ∨ e.dest = b) ∧ (e.state = .waiting ∨ e.state = .launched)

theorem mem_allEntries (n : EntryNo) : n ∈ allEntries := by revert n; decide

theorem fillable_iff (n : EntryNo) : fillable (s.entry n) = true ↔ s.openEntry n := by
  unfold fillable State.openEntry
  cases s.entry n <;> simp

theorem EntryState.ne_ended {x : EntryState} : x ≠ .ended ↔ x = .waiting ∨ x = .launched := by cases x <;> simp

/-- An entry that names a bin and has not ended. -/
theorem Entry.namesLive_iff (e : Entry) : (e.names b && e.state != .ended) = true ↔
    (e.source = b ∨ e.dest = b) ∧ (e.state = .waiting ∨ e.state = .launched) := by
  simp [Entry.names, EntryState.ne_ended]

/-- Auto-turn in full: the first entry that may be filled is, for a bin that is to be turned (R143). -/
theorem autoTurn_eq [Decidable (s.toBeTurned b)] : s.autoTurn b =
    if s.toBeTurned b then
      (allEntries.find? fun n => fillable (s.entry n)).elim s fun n =>
        s.setEntry n (some (autoEntry b s.settings.rotation.autoTurnLeg))
    else s := by
  unfold State.autoTurn
  dsimp only
  split
  · next refused =>
    rw [if_neg]
    rintro ⟨on, hold, free⟩
    simp only [on, hold, Bool.not_true, Bool.false_or, Option.isSome_none, Bool.or_false, List.any_eq_true] at refused
    obtain ⟨n, -, hn⟩ := refused
    cases he : s.entry n with
    | none => rw [he] at hn; cases hn
    | some e =>
      rw [he] at hn
      exact free ⟨n, e, he, (Entry.namesLive_iff b e).1 hn⟩
  · next allowed =>
    simp only [Bool.or_eq_true, Bool.not_eq_true', not_or, Bool.not_eq_false, Option.not_isSome_iff_eq_none,
      List.any_eq_true, not_exists, not_and] at allowed
    obtain ⟨⟨on, free⟩, hold⟩ := allowed
    rw [if_pos]
    · split <;> next found => rw [found]; rfl
    · refine ⟨on, hold, ?_⟩
      rintro ⟨n, e, he, names, live⟩
      refine free n (mem_allEntries n) ?_
      rw [he]
      exact (Entry.namesLive_iff b e).2 ⟨names, live⟩

variable {s b}

theorem autoTurn_idle (h : ¬ s.toBeTurned b) : s.autoTurn b = s := by
  classical rw [autoTurn_eq, if_neg h]

theorem autoTurn_full (h : ∀ n, ¬ s.openEntry n) : s.autoTurn b = s := by
  have full : (allEntries.find? fun n => fillable (s.entry n)) = none :=
    List.find?_eq_none.2 fun n _ => by rw [fillable_iff]; exact h n
  classical
  rw [autoTurn_eq, full]
  exact ite_self s

/-- Auto-turn fills the lowest entry that is open (R143). -/
theorem autoTurn_fills {n : EntryNo} (ht : s.toBeTurned b) (hn : s.openEntry n) (least : ∀ m, m < n → ¬ s.openEntry m) :
    s.autoTurn b = s.setEntry n (some (autoEntry b s.settings.rotation.autoTurnLeg)) := by
  have rising : allEntries = List.finRange 8 := by decide
  have first : (allEntries.find? fun n => fillable (s.entry n)) = some n := by
    rw [rising]
    refine List.find?_eq_some_iff_getElem.2 ⟨(fillable_iff s n).2 hn, n.val, ?_, ?_, fun j hj => ?_⟩
    · rw [List.length_finRange]; exact n.isLt
    · exact List.getElem_finRange _
    · rw [Bool.not_eq_true', ← Bool.not_eq_true, fillable_iff, List.getElem_finRange]
      exact least _ hj
  classical
  rw [autoTurn_eq, if_pos ht, first]
  rfl

theorem autoTurn_bins : (s.autoTurn b).bins = s.bins := by
  unfold State.autoTurn; dsimp only; split
  · rfl
  · split <;> rfl

end AutoTurn

/-! ### A reading -/

section Reading
variable (s : State) (b : BinNo) (z : Int)

theorem hotAfter_eq (hot : Bool) (reading baseline hotLimit riseLimit : Int) :
    hotAfter hot reading baseline hotLimit riseLimit =
      if hot = true then !decide (reading ≤ hotLimit - 20 ∧ reading - baseline < riseLimit - 20)
      else decide (hotLimit ≤ reading ∨ riseLimit ≤ reading - baseline) := by
  unfold hotAfter
  rw [Bool.decide_and, Bool.decide_or]

/-- The temperature fields after a reading (R132 to R134). -/
def State.tempAfter : TempFields :=
  let old := (s.bin b).temp
  let baseline := old.baseline.getD z
  { old with
    lastReading := some z, readingTime := some s.terminalTime, baseline := some baseline
    hot := hotAfter old.hot z baseline (s.binSet b).hotLimit (s.binSet b).riseLimit
    stale := false, staleTimer := some s.settings.rotation.staleTime }

/-- The bin with the reading taken, before what follows from it. -/
def State.withReading : State := s.setBin b { s.bin b with temp := s.tempAfter b z }

theorem State.setBin_setBin (x y : Bin) : (s.setBin b x).setBin b y = s.setBin b y := by simp [State.setBin]

theorem freshen_setTemp (x : TempFields) : (s.setBin b { s.bin b with temp := x }).freshen b =
    s.setBin b { s.bin b with
      temp := { x with stale := false, staleTimer := some s.settings.rotation.staleTime } } := by
  unfold State.freshen
  rw [State.bin_setBin_same, State.setBin_setBin]
  rfl

theorem freshen_raise (f : Flag) : (s.raise f).freshen b = (s.freshen b).raise f := rfl

/-- Auto-turn looks at no temperature field, and changes none. -/
theorem autoTurn_freshen : (s.autoTurn b).freshen b = (s.freshen b).autoTurn b := by
  have hold : ((s.freshen b).bin b).hold = (s.bin b).hold := by unfold State.freshen; rw [State.bin_setBin_same]
  have turned : (s.freshen b).toBeTurned b ↔ s.toBeTurned b := by unfold State.toBeTurned; rw [hold]; rfl
  have entries : (fun n => fillable ((s.freshen b).entry n)) = fun n => fillable (s.entry n) := rfl
  classical
  rw [autoTurn_eq, autoTurn_eq, entries]
  by_cases ht : s.toBeTurned b
  · rw [if_pos ht, if_pos (turned.2 ht)]
    cases allEntries.find? fun n => fillable (s.entry n) <;> rfl
  · rw [if_neg ht, if_neg (turned.not.2 ht)]

/-- A reading and the fresh bin, with auto-turn where the bin becomes HOT (R132, R133, R143). -/
theorem takeReading_freshen : (s.takeReading b z).freshen b =
    if (s.tempAfter b z).hot = true ∧ (s.bin b).temp.hot = false then
      ((s.withReading b z).raise flagBinHot).autoTurn b
    else s.withReading b z := by
  have hot : (s.tempAfter b z).hot = hotAfter (s.bin b).temp.hot z ((s.bin b).temp.baseline.getD z)
    (s.binSet b).hotLimit (s.binSet b).riseLimit := rfl
  have same (x : Bin) : (s.setBin b x).binSet b = s.binSet b := rfl
  unfold State.takeReading State.evaluateHot
  dsimp only
  rw [State.bin_setBin_same]
  dsimp only
  rw [same, ← hot, State.setBin_setBin]
  split
  · next h =>
    rw [if_pos (by simpa using h), autoTurn_freshen, freshen_raise, freshen_setTemp]
    rfl
  · next h =>
    rw [if_neg (by simpa using h), freshen_setTemp]
    rfl

/-- What a report does but for the examination: no grain moves, the bin has its new temperature fields, and no other
bin's change (R132). -/
theorem freshen_kept : Quiet s ((s.takeReading b z).freshen b) ∧
    (((s.takeReading b z).freshen b).bin b).temp = s.tempAfter b z ∧
    ∀ c, c ≠ b → (((s.takeReading b z).freshen b).bin c).temp = (s.bin c).temp := by
  have read : Quiet s (s.withReading b z) := setTemp_quiet s b _
  have own : ((s.withReading b z).bin b).temp = s.tempAfter b z := by
    unfold State.withReading; rw [State.bin_setBin_same]
  have others (c : BinNo) (hc : c ≠ b) : ((s.withReading b z).bin c).temp = (s.bin c).temp := by
    unfold State.withReading; rw [State.bin_setBin_other s hc]
  rw [takeReading_freshen]
  split
  · have bin (c : BinNo) : (((s.withReading b z).raise flagBinHot).autoTurn b).bin c = (s.withReading b z).bin c := by
      unfold State.bin; rw [autoTurn_bins]; rfl
    exact ⟨(read.trans (.raise _ _)).trans (autoTurn_quiet _ b), by rw [bin]; exact own,
      fun c hc => by rw [bin]; exact others c hc⟩
  · exact ⟨read, own, others⟩

/-- A report in full: what each change of the hot state brings, and the examination after a change (R132, R133, R143). -/
theorem reportTemperature_eq : s.reportTemperature b z =
    if (s.bin b).temp.hot = (s.tempAfter b z).hot then
      if (s.bin b).temp.stale = true then (s.withReading b z).examine else s.withReading b z
    else if (s.tempAfter b z).hot = true then (((s.withReading b z).raise flagBinHot).autoTurn b).examine
    else (s.withReading b z).examine := by
  have temp := (freshen_kept s b z).2.1
  have fresh : (s.tempAfter b z).stale = false := rfl
  unfold State.reportTemperature
  dsimp only
  rw [temp, fresh, takeReading_freshen]
  cases (s.bin b).temp.hot <;> cases (s.tempAfter b z).hot <;> cases (s.bin b).temp.stale <;> rfl

/-- A report moves no grain and writes the temperature fields of its bin alone (R132, R138). -/
theorem reportTemperature_kept : Quiet s (s.reportTemperature b z) ∧
    ((s.reportTemperature b z).bin b).temp = s.tempAfter b z ∧
    ∀ c, c ≠ b → ((s.reportTemperature b z).bin c).temp = (s.bin c).temp := by
  obtain ⟨quiet, own, others⟩ := freshen_kept s b z
  unfold State.reportTemperature
  dsimp only
  split
  · have examined := examine_examined ((s.takeReading b z).freshen b)
    exact ⟨quiet.trans examined.toQuiet, (examined.temps b).trans own, fun c hc => (examined.temps c).trans (others c hc)⟩
  · exact ⟨quiet, own, others⟩

end Reading

/-- Settles O49. -/
theorem temperatureReportsJudgeTheBin : Obligations.TemperatureReportsJudgeTheBin := by
  refine ⟨fun s f b z h hd => ?report, fun s b hp => ⟨fun stopped => ?stopped, fun running => ?expiry⟩⟩
  case report =>
    intro reading old baseline limits hot temp u heated turned open? served turns
    have judged : hotAfter old.hot reading baseline limits.hotLimit limits.riseLimit = hot := hotAfter_eq _ _ _ _ _
    have htemp : s.tempAfter b reading = temp := congrArg (fun x => { temp with hot := x }) judged
    have hread : s.withReading b reading = u := by unfold State.withReading; rw [htemp]
    have hhot : (s.tempAfter b reading).hot = hot := by rw [htemp]
    have report := reportTemperature_eq s b reading
    rw [hread, hhot] at report
    obtain ⟨quiet, own, others⟩ := reportTemperature_kept s b reading
    rw [htemp] at own
    have hold : (heated.bin b).hold = (s.bin b).hold := by
      show ((s.setBin b _).bin b).hold = _
      rw [State.bin_setBin_same]
    have hturns : heated.toBeTurned b ↔ turns := by
      unfold State.toBeTurned
      rw [hold]
      exact Iff.rfl
    refine ⟨s.reportTemperature b reading, answered_of_act h hd ?_, quiet.toNoGrainMoved, own, others, fun same fresh => ?_,
      fun same stale => ?_, fun was cool => ?_, fun was becomes => ?_⟩
    · have clamped : clampTemperature z = reading := rfl
      simp only [actTemperatureReport, index_val, clamped, own]
      rfl
    · rw [report, if_pos same, if_neg (by rw [fresh]; exact nofun)]
    · rw [report, if_pos same, if_pos stale]
    · rw [report, if_neg (by rw [was, cool]; exact nofun), if_neg (by rw [cool]; exact nofun)]
    · have turn : s.reportTemperature b reading = (heated.autoTurn b).examine := by
        rw [report, if_neg (by rw [was, becomes]; exact nofun), if_pos becomes]
      rw [turn]
      refine ⟨?_, fun no => ?_, fun yes full => ?_, fun n yes free least => ?_⟩
      · exact (examine_settles _).kept _ ((autoTurn_settles _ b).kept _ (State.flag_raise_same _ _))
      · rw [autoTurn_idle (hturns.not.2 no)]
      · rw [autoTurn_full (s := heated) full]
      · rw [autoTurn_fills (hturns.2 yes) free least]
        rfl
  case stopped =>
    show Host.Outcome.next (s.whenPowered (State.staleExpired b)) = _
    rw [State.whenPowered, if_pos hp, State.staleExpired, stopped]
    rfl
  case expiry =>
    have examined := examine_examined (s.staleNow b)
    have quiet : Quiet s (s.staleNow b) := (setTemp_quiet s b _).trans (.raise _ _)
    refine ⟨(s.staleNow b).examine, ?_, (quiet.trans examined.toQuiet).toNoGrainMoved,
      (examine_settles _).kept _ (State.flag_raise_same _ _), ?_, fun c hc => ?_, rfl⟩
    · show Host.Outcome.next (s.whenPowered (State.staleExpired b)) = _
      rw [State.whenPowered, if_pos hp, State.staleExpired, if_pos (Option.isSome_iff_ne_none.2 running)]
      rfl
    · rw [examined.temps, staleNow_bin, if_pos rfl]
      rfl
    · rw [examined.temps, staleNow_bin, if_neg hc]

end Sys2Proof.Machine
end

section
/-! PROOFS. The requests that write one setting of the working copy, and the set-up of the scale channels (R62, R64 to
R66, R79, R81, R100, R128, R135, R189). -/

namespace Sys2Proof.Machine

/-! ### Writing a setting -/

/-- A request that writes a setting in its range is BUSY while a commit writes, and makes its change otherwise (R189). -/
theorem answered_of_setting {α : Type} {code : Byte} {cs : Classes} {decode : List Byte → Option α}
    {act : StationNo → α → State → State × Answer} {f : Frame} {s t : State} {a : α} {bad : Bool} (h : Heard s f cs)
    (hd : decode f.payload = some a) (fits : bad = false)
    (ha : act f.station a s = unlessFails [(bad, .format), (s.committing, .busy)] s (accept [] t)) :
    Host.Outcome.next (serve code cs decode act f s) =
      if s.commit = .idle then answered code f t ⟨.ok, []⟩ else answered code f s ⟨.busy, []⟩ := by
  subst fits
  split
  · next idle =>
    have free : s.committing = false := State.committing_eq_false.2 idle
    exact answered_of_act h hd (ha.trans (unlessFails_none (by simp [firstFailure, free])))
  · next writing =>
    have busy : s.committing = true := by simpa using mt State.committing_eq_false.1 writing
    exact answered_of_act h hd (ha.trans (unlessFails_some (by simp [firstFailure, busy])))

/-! ### The ticket timeout -/

section Timeout
variable {s : State}

theorem overdue_eq_false {k : Ticket} :
    s.overdue k = false ↔ s.ticketAge k < s.settings.intake.ticketTimeout * 60 := by
  simp [State.overdue]

/-- No ticket stays past the timeout once the overdue ones have expired, whatever numbers the table holds (R79). -/
theorem overdue_of_mem_expireOverdue {k : Ticket} (hk : k ∈ s.expireOverdue.tickets) : s.overdue k = false := by
  unfold State.expireOverdue at hk
  rw [foldl_expire_tickets] at hk
  obtain ⟨mem, kept⟩ := List.mem_filter.1 hk
  refine eq_false_of_ne_true fun late => of_decide_eq_true kept ?_
  exact List.mem_map.2 ⟨k, List.mem_filter.2 ⟨mem, late⟩, rfl⟩

/-- The expiries leave the settings and the timebase, and so every ticket's age (R79). -/
theorem expireOverdue_settings_ticketAge :
    s.expireOverdue.settings = s.settings ∧ ∀ k, s.expireOverdue.ticketAge k = s.ticketAge k := by
  have frame := (expireOverdue_expiry s).frame
  have timebase : s.expireOverdue.timebase = s.timebase := (congrArg State.timebase frame :)
  exact ⟨(congrArg State.settings frame :), fun k => congrArg (fun n : Nat => (n : Int) - k.grossBase) timebase⟩

/-- Every intake setting but the ticket timeout is only written (R81). -/
theorem setIntake_written {x : IntakeSetting} (hx : ∀ m, x ≠ .ticketTimeout m) :
    s.setIntake x = { s with settings := { s.settings with intake := s.settings.intake.apply x } } := by
  cases x with
  | ticketTimeout m => exact absurd rfl (hx m)
  | dryLimit | defaultTare | tareValidity | autoAssign => rfl

end Timeout

/-- Settles O37. -/
theorem settingsRequestsWriteTheWorkingCopy : Obligations.SettingsRequestsWriteTheWorkingCopy := by
  refine ⟨fun s f x h hd fits => ?intake, fun s f x h hd fits => ?dryer, fun s f l n h hd fits => ?leg,
    fun s f x h hd fits => ?rotation⟩
  case intake =>
    intro u
    have answer : exec (.setIntakeSettings f) s = if s.commit = .idle then answered 0x3B#8 f (s.setIntake x) ⟨.ok, []⟩
        else answered 0x3B#8 f s ⟨.busy, []⟩ :=
      answered_of_setting h hd (bad := !x.inRange) (by rw [fits]; rfl) rfl
    refine ⟨fun writing => answer.trans (if_neg writing), fun idle hx => ?_, fun idle m hm => ?_⟩
    · rw [answer, if_pos idle, setIntake_written hx]
    · have expires : s.setIntake x = u.expireOverdue := by subst hm; rfl
      have limit : u.settings.intake.ticketTimeout = m := by subst hm; rfl
      have young (k : Ticket) : u.overdue k = false ↔ s.ticketAge k < m * 60 := by
        rw [overdue_eq_false, limit]; rfl
      obtain ⟨settings, age⟩ := expireOverdue_settings_ticketAge (s := u)
      rw [if_pos idle, expires] at answer
      refine ⟨_, answer, settings, fun k hk => ?_, fun all => expireOverdue_none fun k hk => (young k).2 (all k hk)⟩
      rw [age]
      exact (young k).1 (overdue_of_mem_expireOverdue hk)
  case dryer => exact answered_of_setting h hd (bad := !x.inRange) (by rw [fits]; rfl) rfl
  case leg =>
    exact answered_of_setting h hd (bad := decide (900 < n)) (by simpa using fits)
      (by simp only [actSetLegSettings, index_val]; rfl)
  case rotation => exact answered_of_setting h hd (bad := !x.inRange) (by rw [fits]; rfl) rfl

/-! ### Setting up a scale channel -/

section Channels
variable {s : State} {st : StationNo} {c : ChannelNo}

theorem State.scaleSet_setScaleSet_same (s : State) (c : ChannelNo) (x : ScaleSettings) :
    (s.setScaleSet c x).scaleSet c = x :=
  get_set_same _ _ _

theorem Channel.emptied_eq (x : Channel) : x.emptied =
    { x with window := [], status := if x.signal.isSome = true then .motion else .noSignal } := rfl

/-- New scale parameters empty the window, and the status is judged again on a CALIBRATED channel only (R65). -/
theorem emptyWindow_setScaleSet (n band : Nat) :
    (s.setScaleSet c { s.scaleSet c with n := n, band := band }).emptyWindow c =
      (s.setScaleSet c { s.scaleSet c with n := n, band := band }).setChannel c
        { s.channel c with
          window := []
          status := if (s.scaleSet c).cal.calibrated = false then (s.channel c).status
            else if (s.channel c).signal.isSome = true then .motion else .noSignal } := by
  unfold State.emptyWindow
  rw [State.scaleSet_setScaleSet_same]
  cases (s.scaleSet c).cal.calibrated <;> rfl

/-- A refusal of Zero Scale (R66). -/
theorem actZeroScale_refused {code : Status} (h : firstFailure (zeroChecks s c) = some code) :
    actZeroScale st c.val s = (s, ⟨code, []⟩) := by
  simp only [actZeroScale, index_val]
  exact unlessFails_some h

/-- A STABLE channel within its zero limit takes the mean of its window as its zero (R66). -/
theorem actZeroScale_zeroed (h : firstFailure (zeroChecks s c) = none) :
    actZeroScale st c.val s =
      ((s.setScaleSet c { s.scaleSet c with
          cal := { (s.scaleSet c).cal with zero := newZero (s.channel c).window } }).setChannel c
        { s.channel c with window := [], status := .motion }, ⟨.ok, counts (newZero (s.channel c).window)⟩) := by
  simp only [actZeroScale, index_val]
  exact unlessFails_none h

/-- The signal expiry with the timer running (R64). -/
theorem signalExpired_running (h : (s.channel c).signal.isSome = true) : s.signalExpired c =
    (s.setChannel c { s.channel c with window := [], signal := none, status := .noSignal }).raise flagScaleFault :=
  if_pos h

theorem signalExpired_stopped (h : (s.channel c).signal = none) : s.signalExpired c = s :=
  if_neg (by rw [h]; exact Bool.false_ne_true)

end Channels

/-- Settles O30. -/
theorem channelSetUpEmptiesTheWindow : Obligations.ChannelSetUpEmptiesTheWindow := by
  refine ⟨?calibration, ?parameters, ?zero, ?expiry⟩
  case calibration =>
    intro s f c q h idle hd hs1 hs2 hdiv hc1 hc2
    have fits : q.inRange = true := by
      simp only [Calibration.inRange, hs1, hs2, List.contains_iff_mem.2 hdiv, hc1, hc2, decide_true, Bool.and_self]
    exact (answered_of_setting h hd (bad := !q.inRange) (by rw [fits]; rfl)
      (by simp only [actSetCalibration, index_val]; rfl)).trans (if_pos idle)
  case parameters =>
    intro s f c n band h idle hd hn1 hn2 hb1 hb2
    exact (answered_of_setting h hd (bad := !(decide (3 ≤ n) && decide (n ≤ 16) && decide (1 ≤ band) && decide (band ≤ 5)))
      (by simp [hn1, hn2, hb1, hb2])
      (by simp only [actSetScaleParameters, index_val, emptyWindow_setScaleSet])).trans (if_pos idle)
  case zero =>
    intro s f c h hd set x
    refine ⟨fun uncal => ?_, fun cal moving => ?_, fun cal still unstable => ?_,
      fun cal stable idle last hl limit => ?_⟩
    · exact answered_of_act h hd (actZeroScale_refused (by simp [zeroChecks, firstFailure, uncal, set]))
    · exact answered_of_act h hd (actZeroScale_refused (by simp [zeroChecks, firstFailure, cal, moving, set, x]))
    · exact answered_of_act h hd
        (actZeroScale_refused (by simp [zeroChecks, firstFailure, cal, still, unstable, set, x]))
    · have current : x.current = some last.weight := by rw [Channel.current, hl]; rfl
      have free : s.committing = false := State.committing_eq_false.2 idle
      exact answered_of_act h hd (actZeroScale_zeroed
        (by simp [zeroChecks, firstFailure, zeroLimit, cal, stable, current, limit, free, set, x]))
  case expiry =>
    intro s c on
    have effect : exec (.signalExpiry c) s = .next (s.signalExpired c) :=
      congrArg Host.Outcome.next (State.whenPowered_on on _)
    exact ⟨fun running => effect.trans (congrArg _ (signalExpired_running running)),
      fun stopped => effect.trans (congrArg _ (signalExpired_stopped stopped))⟩

end Sys2Proof.Machine
end

section
/-! PROOFS. Dump Report and Weigh Out: what a capture takes, and the ticket settled by it (R67, R69, R76, R77). -/

namespace Sys2Proof.Machine

/-! ### A capture -/

section Capture
variable {s : State} {c : ChannelNo} {w : Int}

/-- A STABLE weight between one division and the capacity passes every check of a capture (R67). -/
theorem captureChecks_pass (cal : (s.scaleSet c).cal.calibrated = true) (stable : (s.channel c).status = .stable)
    (current : (s.channel c).current = some w) (least : ((s.scaleSet c).cal.division : Int) ≤ w)
    (most : w ≤ (s.scaleSet c).cal.capacity) : firstFailure (captureChecks s c) = none := by
  simp [captureChecks, firstFailure, cal, stable, current, least, most]

theorem captured_eq (current : (s.channel c).current = some w) : s.captured c = w.toNat := by
  unfold State.captured
  rw [current]
  rfl

end Capture

/-! ### Dump Report -/

section Settling
variable {s : State} {st : StationNo} {t : Ticket}

theorem actDumpReport_unassigned {n : Nat} (ht : s.ticket? n = some t) (hs : t.state ≠ .assigned) :
    actDumpReport st n s = (s, ⟨.state, []⟩) := by
  unfold actDumpReport
  rw [ht]
  exact unlessFails_some (by simp [firstFailure, hs])

/-- A dump of an ASSIGNED ticket: DUMPED, and closed on the stored tare when it is single-pass (R76). -/
theorem actDumpReport_assigned {n : Nat} (ht : s.ticket? n = some t) (hs : t.state = .assigned) :
    actDumpReport st n s =
      let u := s.modTicket n fun x => { x with state := .dumped }
      let r := t.settled (s.storedTare t.tag) .stored .storedTare s.terminalTime
      if t.singlePass = true then
        ({ u.closeTicket t (s.storedTare t.tag) with lastClosed := some r }, ⟨.ok, encodeSettlement r⟩)
      else (u, ⟨.ok, []⟩) := by
  unfold actDumpReport
  rw [ht]
  exact unlessFails_none (by simp [firstFailure, hs])

/-! ### Weigh Out -/

/-- A close and a void leave terminal time, which stamps the tare and the visit (R68, R69). -/
theorem closeTicket_terminalTime (tare : Nat) : (s.closeTicket t tare).terminalTime = s.terminalTime :=
  (congrArg State.terminalTime (closeTicket_expiry s t tare).frame :)

theorem voidTicket_terminalTime : (s.voidTicket t).terminalTime = s.terminalTime :=
  (congrArg State.terminalTime (voidTicket_expiry s t).frame :)

/-- A weigh-out that captures a weight settles the vehicle's open ticket with it (R77). -/
theorem actWeighOut_captured {c : ChannelNo} {tag : List Byte} {v : Vehicle} {w : Int} (hv : s.vehicle? tag = some v)
    (checks : firstFailure (captureChecks s c) = none) (current : (s.channel c).current = some w) :
    actWeighOut st (c.val, tag) s = s.weighOut tag w.toNat (v.openTicket.bind fun n => s.ticket? n) := by
  simp only [actWeighOut, index_val, hv, captured_eq current]
  exact unlessFails_none checks

end Settling

/-- Settles O34. -/
theorem dumpAndWeighOutSettleTickets : Obligations.DumpAndWeighOutSettleTickets := by
  refine ⟨?dump, ?weigh⟩
  case dump =>
    intro s f n t h hd ht u r
    refine ⟨fun hs => answered_of_act h hd (actDumpReport_unassigned ht hs), fun hs twice => ?_, fun hs once => ?_⟩
    · exact answered_of_act h hd ((actDumpReport_assigned ht hs).trans (if_neg (by rw [twice]; exact Bool.false_ne_true)))
    · exact answered_of_act h hd ((actDumpReport_assigned ht hs).trans (if_pos once))
  case weigh =>
    intro s f c tag v w h hd hv cal stable current least most seen tared
    have act : actWeighOut f.station (c.val, tag) s = s.weighOut tag w.toNat (v.openTicket.bind fun n => s.ticket? n) :=
      actWeighOut_captured hv (captureChecks_pass cal stable current least most) current
    refine ⟨fun unopened => ?_, fun t opened => ?_⟩
    · rw [unopened] at act
      exact answered_of_act h hd act
    rw [opened] at act
    intro closed rejected
    refine ⟨fun dumped => ?_, fun standing => ?_⟩
    · refine answered_of_act h hd (act.trans ((if_pos dumped).trans ?_))
      simp only [accept, State.storeTare, State.seen, State.modVehicle_terminalTime, closeTicket_terminalTime]
      rfl
    · refine answered_of_act h hd (act.trans ((if_neg standing).trans ?_))
      simp only [accept, State.seen, voidTicket_terminalTime]
      rfl

end Sys2Proof.Machine
end

section
/-! PROOFS. Weigh In: the number taken, the vehicle registered, and the entry a full registry retires (R67, R68, R70,
R71). -/

namespace Sys2Proof.Machine

/-! ### The entry retired -/

/-- One more entry is the one to retire when it has no open ticket and was seen before the one found so far (R68). -/
theorem retiree_concat (vs : List Vehicle) (u : Vehicle) : retiree (vs ++ [u]) =
    if u.openTicket.isSome = true then retiree vs
    else some ((retiree vs).elim u fun x => if u.lastSeen < x.lastSeen then u else x) := by
  unfold retiree
  rw [List.foldl_append, List.foldl_cons, List.foldl_nil]
  split
  · rfl
  · cases vs.foldl _ none with
    | none => rfl
    | some x => exact (apply_ite some _ _ _).symm

/-- The entry retired has no open ticket, and none without one was seen before it (R68). -/
theorem retiree_least {vs : List Vehicle} {w : Vehicle} (h : retiree vs = some w) :
    w.openTicket = none ∧ ∀ u ∈ vs, u.openTicket = none → w.lastSeen ≤ u.lastSeen := by
  induction vs using List.reverseRecOn generalizing w with
  | nil => cases h
  | append_singleton vs u ih =>
    simp only [List.mem_append, List.mem_singleton, or_imp, forall_and, forall_eq]
    rw [retiree_concat] at h
    split at h
    · next busy =>
      obtain ⟨free, least⟩ := ih h
      exact ⟨free, least, fun hu => by rw [hu] at busy; cases busy⟩
    · next idle =>
      have hu : u.openTicket = none := by simpa using idle
      cases hx : retiree vs with
      | none =>
        rw [hx] at h
        cases h
        have all := (retiree_spec vs).2 hx
        exact ⟨hu, fun x mem hn => absurd (all x mem) (by simp [hn]), fun _ => le_refl _⟩
      | some x =>
        obtain ⟨free, least⟩ := ih hx
        rw [hx, Option.elim_some, Option.some.injEq] at h
        split at h
        · next before =>
          subst h
          exact ⟨hu, fun y mem hn => before.le.trans (least y mem hn), fun _ => le_refl _⟩
        · next notBefore =>
          subst h
          exact ⟨free, least, fun _ => not_lt.1 notBefore⟩

/-- Of the entries with no open ticket the first of the earliest seen is retired (R68). -/
theorem retiree_eq_some {before after : List Vehicle} {v : Vehicle} (hv : v.openTicket = none)
    (hb : ∀ u ∈ before, u.openTicket = none → v.lastSeen < u.lastSeen)
    (ha : ∀ u ∈ after, u.openTicket = none → v.lastSeen ≤ u.lastSeen) : retiree (before ++ v :: after) = some v := by
  induction after using List.reverseRecOn with
  | nil =>
    rw [retiree_concat, if_neg (by simp [hv])]
    cases hx : retiree before with
    | none => rfl
    | some x => exact congrArg some (if_pos (hb x ((retiree_spec before).1 x hx) (retiree_least hx).1))
  | append_singleton after u ih =>
    have found := ih fun x hx => ha x (List.mem_append_left _ hx)
    rw [← List.cons_append, ← List.append_assoc, retiree_concat, found]
    split
    · rfl
    · next idle =>
      have hu := ha u (by simp) (by simpa using idle)
      exact congrArg some (if_neg (not_lt.2 hu))

/-- Without its own entry, a registry in which no tag stands twice keeps every other, in order. -/
theorem filter_tag_ne_split {before after : List Vehicle} {v : Vehicle}
    (distinct : ((before ++ v :: after).map Vehicle.tag).Nodup) :
    (before ++ v :: after).filter (fun u => u.tag != v.tag) = before ++ after := by
  rw [List.map_append, List.map_cons, List.nodup_middle, List.nodup_cons, ← List.map_append] at distinct
  have others : ∀ u ∈ before ++ after, (u.tag != v.tag) = true := fun u hu =>
    bne_iff_ne.2 fun e => distinct.1 (e ▸ List.mem_map_of_mem hu)
  rw [List.filter_append, List.filter_cons_of_neg (by simp), ← List.filter_append, List.filter_eq_self.2 others]

/-! ### The registry after a weigh-in -/

/-- The entries a registration of a new vehicle keeps: all, or in a full registry all but the one retired (R68). -/
def State.keptVehicles (s : State) : List Vehicle :=
  if s.vehicles.length < Config.maxVehicles then s.vehicles
  else
    match retiree s.vehicles with
    | some w => s.vehicles.filter fun v => v.tag != w.tag
    | none => s.vehicles

section Registry
variable {s : State} {tag other : List Byte}

theorem keptVehicles_room (h : s.vehicles.length < Config.maxVehicles) : s.keptVehicles = s.vehicles := if_pos h

theorem keptVehicles_retired (hl : Config.maxVehicles ≤ s.vehicles.length) {w : Vehicle}
    (hw : retiree s.vehicles = some w) : s.keptVehicles = s.vehicles.filter fun v => v.tag != w.tag := by
  rw [State.keptVehicles, if_neg (not_lt.2 hl), hw]

/-- A tag finds among the entries kept what it found in the registry, unless it is the tag of the entry retired. -/
theorem find?_keptVehicles (other : List Byte) :
    s.keptVehicles.find? (fun v => v.tag == other) = s.vehicle? other ∨
      s.keptVehicles.find? (fun v => v.tag == other) = none ∧ Config.maxVehicles ≤ s.vehicles.length ∧
        ∃ w, retiree s.vehicles = some w ∧ w.tag = other := by
  by_cases room : s.vehicles.length < Config.maxVehicles
  · rw [keptVehicles_room room]; exact .inl rfl
  · cases hw : retiree s.vehicles with
    | none => rw [State.keptVehicles, if_neg room, hw]; exact .inl rfl
    | some w =>
      rw [keptVehicles_retired (not_lt.1 room) hw, List.find?_filter]
      by_cases e : w.tag = other
      · refine .inr ⟨List.find?_eq_none.2 fun v _ => ?_, not_lt.1 room, w, rfl, e⟩
        simp [e]
      · refine .inl (List.find?_congr fun v _ => ?_)
        by_cases hv : v.tag = other <;> simp [hv, Ne.symm e]

/-- An unregistered tag stays unknown among the entries kept. -/
theorem find?_keptVehicles_new (hv : s.vehicle? tag = none) : s.keptVehicles.find? (fun v => v.tag == tag) = none :=
  (find?_keptVehicles tag).elim (·.trans hv) And.left

/-- Changing a vehicle changes what its tag finds, and nothing else. -/
theorem vehicle?_modVehicle (f : Vehicle → Vehicle) (hf : ∀ v, (f v).tag = v.tag) :
    (s.modVehicle tag f).vehicle? other = if other = tag then (s.vehicle? tag).map f else s.vehicle? other := by
  have same : (fun v : Vehicle => v.tag == other) ∘ (fun v => if v.tag = tag then f v else v) =
      fun v => v.tag == other := by
    funext v
    dsimp only [Function.comp]
    split <;> simp only [hf]
  unfold State.modVehicle
  show (s.vehicles.map _).find? _ = _
  rw [List.find?_map, same]
  show (s.vehicle? other).map _ = _
  split
  · next e =>
    subst e
    cases hv : s.vehicle? other with
    | none => rfl
    | some v => exact congrArg some (if_pos (State.vehicle?_mem hv).2)
  · next e =>
    cases hv : s.vehicle? other with
    | none => rfl
    | some v => exact congrArg some (if_neg fun h => e ((State.vehicle?_mem hv).2.symm.trans h))

/-- A weigh-in changes the registry, the ticket table and the next number (R70, R71). -/
theorem openTicket_frame (c : ChannelNo) (cls : Fin 4) (w : WeighIn) :
    s.openTicket c cls w = { s with
      vehicles := (s.openTicket c cls w).vehicles
      nextTicket := wrapNext Config.maxTicketNo s.nextTicketNo
      tickets := insertTicket (s.newTicket c w) s.tickets } := by
  unfold State.openTicket State.register
  split <;> rfl

/-- A registered vehicle keeps its place in the registry (R68). -/
theorem openTicket_vehicles_known {c : ChannelNo} {cls : Fin 4} {w : WeighIn} {v : Vehicle}
    (hv : s.vehicle? w.tag = some v) : (s.openTicket c cls w).vehicles =
      (s.modVehicle w.tag fun x =>
        { x with cls := cls, openTicket := some s.nextTicketNo, lastSeen := s.terminalTime }).vehicles := by
  unfold State.openTicket State.register
  rw [hv]
  show (s.vehicles.map _).map _ = s.vehicles.map _
  rw [List.map_map]
  refine List.map_congr_left fun x _ => ?_
  by_cases e : x.tag = w.tag <;> simp [e, State.newTicket]

/-- A new vehicle joins the entries kept at the end (R68). -/
theorem openTicket_vehicles_new {c : ChannelNo} {cls : Fin 4} {w : WeighIn} (hv : s.vehicle? w.tag = none) :
    (s.openTicket c cls w).vehicles = s.keptVehicles ++
      [{ tag := w.tag, cls := cls, tare := none, openTicket := some s.nextTicketNo, lastSeen := s.terminalTime }] := by
  have unregistered : ∀ x ∈ s.keptVehicles, x.tag ≠ w.tag := by simpa using find?_keptVehicles_new hv
  unfold State.openTicket State.register
  rw [hv]
  show (s.keptVehicles ++ [_]).map _ = _
  rw [List.map_append]
  refine congrArg₂ (· ++ ·) ?_ (by simp [State.newTicket])
  exact (List.map_congr_left fun x hx => if_neg (unregistered x hx)).trans (List.map_id _)

/-- What a tag finds after the weigh-in of a registered vehicle. -/
theorem vehicle?_openTicket_known {c : ChannelNo} {cls : Fin 4} {w : WeighIn} {v : Vehicle}
    (hv : s.vehicle? w.tag = some v) : (s.openTicket c cls w).vehicle? other =
      if other = w.tag then some { v with cls := cls, openTicket := some s.nextTicketNo, lastSeen := s.terminalTime }
      else s.vehicle? other := by
  have found := vehicle?_modVehicle (s := s) (tag := w.tag) (other := other) (fun x =>
    { x with cls := cls, openTicket := some s.nextTicketNo, lastSeen := s.terminalTime }) fun _ => by rfl
  rw [hv] at found
  unfold State.vehicle?
  rw [openTicket_vehicles_known hv]
  exact found

/-- What a tag finds after the weigh-in of a new vehicle. -/
theorem vehicle?_openTicket_new {c : ChannelNo} {cls : Fin 4} {w : WeighIn} (hv : s.vehicle? w.tag = none) :
    (s.openTicket c cls w).vehicle? other = if other = w.tag then
      some { tag := w.tag, cls := cls, tare := none, openTicket := some s.nextTicketNo, lastSeen := s.terminalTime }
      else s.keptVehicles.find? fun v => v.tag == other := by
  unfold State.vehicle?
  rw [openTicket_vehicles_new hv, List.find?_append]
  split
  · next e =>
    rw [e, find?_keptVehicles_new hv]
    simp
  · next e => simp [Ne.symm e]

end Registry

/-! ### The request -/

/-- A tag of printable characters, not all spaces. -/
theorem goodTag_iff {tag : List Byte} :
    goodTag tag = true ↔ (∀ b ∈ tag, printable b = true) ∧ ∃ b ∈ tag, b ≠ 0x20#8 := by
  simp [goodTag, allSpaces]

theorem hasOpenTicket_eq_false {s : State} {tag : List Byte} :
    s.hasOpenTicket tag = false ↔ ∀ v, s.vehicle? tag = some v → v.openTicket = none := by
  unfold State.hasOpenTicket
  cases s.vehicle? tag <;> simp

/-- A weigh-in that passes its checks opens its ticket (R67, R71). -/
theorem actWeighIn_opens {s : State} {st : StationNo} {c : ChannelNo} {cls : Fin 4} {tag : List Byte} {single : Bool}
    {w : Int} (tagged : goodTag tag = true) (checks : firstFailure (captureChecks s c) = none)
    (current : (s.channel c).current = some w) (idle : s.hasOpenTicket tag = false)
    (room : s.tickets.length < Config.maxTickets) :
    actWeighIn st ⟨c.val, tag, cls.val, single⟩ s =
      (s.openTicket c cls ⟨c.val, tag, cls.val, single⟩,
        ⟨.ok, long s.nextTicketNo ++ mass w.toNat ++ onOff (s.honoursSinglePass tag single)⟩) := by
  have captured := captured_eq current
  have pass : firstFailure ([(!goodTag tag, .format)] ++ captureChecks s c ++
      [(s.hasOpenTicket tag, .state), (decide (Config.maxTickets ≤ s.tickets.length), .full)]) = none := by
    rw [firstFailure_eq_none] at checks ⊢
    have full : decide (Config.maxTickets ≤ s.tickets.length) = false := decide_eq_false (not_le.2 room)
    simpa [tagged, idle, full] using checks
  simp only [actWeighIn, index_val]
  rw [unlessFails_none pass, ← captured]
  rfl

/-- Settles O31. -/
theorem weighInOpensATicket : Obligations.WeighInOpensATicket := by
  intro s f c tag cls single w h hd hprint hspace cal stable current least most idle room n honoured fresh
  have checks := captureChecks_pass cal stable current least most
  have act : actWeighIn f.station ⟨c.val, tag, cls.val, single⟩ s = _ :=
    actWeighIn_opens (goodTag_iff.2 ⟨hprint, hspace⟩) checks current (hasOpenTicket_eq_false.2 idle) room
  have free := nextTicketNo_not_mem room
  have captured : s.captured c = w.toNat := captured_eq current
  refine ⟨s.openTicket c cls ⟨c.val, tag, cls.val, single⟩, answered_of_act h hd act, ?number, ?frame, ?entry,
    fun other hne => ?others, fun hv => ?known, fun hv hl => ?joins,
    fun before v after hv hl distinct parts hopen hb ha => ?retires⟩
  case number => exact List.find?_eq_none.2 fun t ht => by simpa using fun e => free (List.mem_map.2 ⟨t, ht, e⟩)
  case frame =>
    refine (openTicket_frame c cls _).trans ?_
    unfold State.newTicket
    rw [captured]
    rfl
  case entry =>
    cases hv : s.vehicle? tag with
    | some v =>
      rw [vehicle?_openTicket_known hv, if_pos rfl, ← (State.vehicle?_mem hv).2]
      rfl
    | none =>
      rw [vehicle?_openTicket_new hv, if_pos rfl]
      rfl
  case others =>
    cases hv : s.vehicle? tag with
    | some v => exact .inl ((vehicle?_openTicket_known hv).trans (if_neg hne))
    | none =>
      rw [vehicle?_openTicket_new hv, if_neg hne]
      refine (find?_keptVehicles other).imp_right fun ⟨gone, full, v, hr, htag⟩ => ?_
      exact ⟨gone, rfl, full, v, (retiree_spec _).1 v hr, htag, retiree_least hr⟩
  case known =>
    obtain ⟨v, hv⟩ := Option.ne_none_iff_exists'.1 hv
    exact openTicket_vehicles_known hv
  case joins => rw [openTicket_vehicles_new hv, keptVehicles_room hl]
  case retires =>
    have found : retiree s.vehicles = some v := by rw [parts]; exact retiree_eq_some hopen hb ha
    rw [openTicket_vehicles_new hv, keptVehicles_retired hl found, parts, filter_tag_ne_split (parts ▸ distinct)]
    exact ⟨rfl, by simp⟩

end Sys2Proof.Machine
end

section
/-! PROOFS. One second of the oscillator on an empty queue (assumption log 12; R64, R79, R90, R116, R134, R153, R165,
R191). -/

namespace Sys2Proof.Machine

section Clock
variable (s : State)

/-- The second that passes is a running timer's last: it had one second left, or none. -/
def lastSecond (timer : Option Nat) : Bool := timer == some 1 || timer == some 0

theorem ranOut_countDown (timer : Option Nat) : ranOut (countDown timer) = lastSecond timer := by
  rcases timer with _ | _ | _ | n <;> rfl

/-! ### The records after a second -/

theorem countDown_channel (c : ChannelNo) : s.countDown.channel c = (s.channel c).countDown := Vector.get_map _ _ _

theorem countDown_bin (b : BinNo) : s.countDown.bin b = (s.bin b).countDown := Vector.get_map _ _ _

theorem countDown_leg (l : LegNo) : s.countDown.leg l = (s.leg l).countDown := Vector.get_map _ _ _

theorem countDown_berth (k : BerthNo) : s.countDown.berth k = (s.berth k).countDown := Vector.get_map _ _ _

/-- A ticket's age counts on the timebase (R79). -/
theorem countDown_overdue : s.countDown.overdue = fun t : Ticket =>
    decide ((s.settings.intake.ticketTimeout * 60 : Int) ≤ s.timebase + 1 - t.grossBase) := rfl

/-- A cleanout loses a second; a transfer that is in no cleanout keeps its state (R116). -/
theorem Leg.countDown_eq (g : Leg) : g.countDown = { g with active := g.active.map fun t =>
    { t with state := (t.state.cleanoutLeft.map fun n => .cleanout (n - 1)).getD t.state } } := by
  have each (t : Transfer) : (match t.state with
      | .cleanout n => { t with state := .cleanout (n - 1) }
      | _ => t) = { t with state := (t.state.cleanoutLeft.map fun n => .cleanout (n - 1)).getD t.state } := by
    obtain ⟨_, _, _, _, _, _, _, _, _, state, _, _⟩ := t
    cases state <;> rfl
  exact congrArg (fun f => { g with active := g.active.map f }) (funext each)

/-- The seconds left of a cleanout after one of them (R116). -/
theorem TransferState.cleanoutLeft_countDown (x : TransferState) :
    ((x.cleanoutLeft.map fun n => TransferState.cleanout (n - 1)).getD x).cleanoutLeft =
      Machine.countDown x.cleanoutLeft := by
  cases x <;> rfl

/-- The cleanouts that end with this second (R116). -/
theorem Leg.cleanoutDue_countDown (g : Leg) : g.countDown.cleanoutDue =
    lastSecond (g.active.bind fun t => t.state.cleanoutLeft) := by
  rw [Leg.countDown_eq]
  unfold Leg.cleanoutDue
  cases g.active with
  | none => rfl
  | some t => exact (congrArg ranOut t.state.cleanoutLeft_countDown).trans (ranOut_countDown _)

/-- The drying timer loses a second in DRYING, until it has expired (R90). -/
theorem Dryer.countDown_eq (d : Dryer) : d.countDown = { d with
    warmUp := Machine.countDown d.warmUp
    drying := if d.state = .drying ∧ d.drying.map DryingTimer.expired = some false
      then d.drying.map fun x => { x with remaining := x.remaining - 1 } else d.drying } := by
  refine congrArg (fun x => { d with warmUp := Machine.countDown d.warmUp, drying := x }) ?_
  by_cases hs : d.state = .drying
  · rcases d.drying with _ | ⟨left, _ | _⟩ <;> simp [hs]
  · rw [if_neg fun h => hs h.1]
    split
    · next e _ => exact absurd e hs
    · rfl

/-- The drying timer that ends with this second (R90). -/
theorem Dryer.dryingDue_countDown (d : Dryer) : d.countDown.dryingDue = true ↔
    (d.state = .drying ∧ d.drying.map DryingTimer.expired = some false) ∧
      lastSecond (d.drying.map DryingTimer.remaining) = true := by
  rw [← ranOut_countDown, Dryer.countDown_eq]
  unfold Dryer.dryingDue
  by_cases hs : d.state = .drying
  · rcases d.drying with _ | ⟨left, _ | _⟩ <;> simp [hs, Machine.countDown, ranOut]
  · simp [hs]

/-! ### The whole second -/

/-- The expiries that join the queue: those of the timers whose last second it was, and of the tickets whose age reaches
the timeout (assumption log 12). -/
theorem due_countDown : s.countDown.due =
    (allChannels.filter fun c => lastSecond (s.channel c).signal).map Instr.signalExpiry ++
    (s.tickets.filter fun t => decide ((s.settings.intake.ticketTimeout * 60 : Int) ≤ s.timebase + 1 - t.grossBase)).map
      (fun t => Instr.ticketExpiry t.number) ++
    (if lastSecond s.dryer.warmUp = true then [Instr.warmUpExpiry] else []) ++
    (if (s.dryer.state = .drying ∧ s.dryer.drying.map DryingTimer.expired = some false) ∧
      lastSecond (s.dryer.drying.map DryingTimer.remaining) = true then [Instr.dryingTimerExpiry] else []) ++
    (allLegs.filter fun l => lastSecond ((s.leg l).active.bind fun t => t.state.cleanoutLeft)).map Instr.cleanoutExpiry ++
    (allBins.filter fun b => lastSecond (s.bin b).temp.staleTimer).map Instr.staleExpiry ++
    (if lastSecond s.river.staleTimer = true then [Instr.riverStaleExpiry] else []) ++
    (allBerths.filter fun k => lastSecond (s.berth k).spoutTimer).map Instr.spoutTimerExpiry := by
  have channels (c : ChannelNo) : ranOut (s.countDown.channel c).signal = lastSecond (s.channel c).signal := by
    rw [countDown_channel]; exact ranOut_countDown _
  have bins (b : BinNo) : ranOut (s.countDown.bin b).temp.staleTimer = lastSecond (s.bin b).temp.staleTimer := by
    rw [countDown_bin]; exact ranOut_countDown _
  have berths (k : BerthNo) : ranOut (s.countDown.berth k).spoutTimer = lastSecond (s.berth k).spoutTimer := by
    rw [countDown_berth]; exact ranOut_countDown _
  have warmUp : ranOut s.countDown.dryer.warmUp = lastSecond s.dryer.warmUp := ranOut_countDown _
  have river : ranOut s.countDown.river.staleTimer = lastSecond s.river.staleTimer := ranOut_countDown _
  have drying : s.countDown.dryer.dryingDue = true ↔ _ := s.dryer.dryingDue_countDown
  unfold State.due
  simp only [channels, bins, berths, warmUp, river, drying, countDown_leg, Leg.cleanoutDue_countDown, countDown_overdue]
  rfl

/-- With main power on every clock and timer moves, and the expiries that are due join the queue (log 12). -/
theorem tick_powered (h : s.powered = true) : s.tick = { s.countDown with pending := s.pending ++ s.countDown.due } :=
  if_pos h

/-- Without main power only terminal time counts (log 19). -/
theorem tick_unpowered (h : s.powered = false) : s.tick = s.terminalTick :=
  if_neg (by rw [h]; exact Bool.false_ne_true)

theorem step_empty (h : s.pending = []) : step s = .next s.tick := by unfold step; rw [h]

end Clock

/-- Settles O2. -/
theorem emptyQueueLetsASecondPass : Obligations.EmptyQueueLetsASecondPass := by
  intro s empty time less last cleans dries
  refine ⟨fun off => ?_, fun on => ?_⟩
  · rw [step_empty s empty, tick_unpowered s off]
    rfl
  · have left : cleans = fun t => t.state.cleanoutLeft := by
      funext t
      unfold cleans
      cases t.state <;> rfl
    rw [step_empty s empty, tick_powered s on, empty, List.nil_append, due_countDown, left]
    unfold State.countDown
    rw [Dryer.countDown_eq, funext Leg.countDown_eq]
    rfl

end Sys2Proof.Machine
end

section
/-! PROOFS. The dryer's state, its batch and its discharge transfer: the law that stands at every moment within a step,
slot by slot (R92, R95, "The dryer record"). -/

namespace Sys2Proof.Machine

/-! ### What the dryer's law reads of the slots -/

/-- What of a transfer does not change while it is live (R104). -/
structure Trip where
  id : Nat
  origin : Origin
  source : Source
  dest : Dest

def Transfer.trip (x : Transfer) : Trip := ⟨x.id, x.origin, x.source, x.dest⟩

/-- The trip of the transfer in each slot. -/
def State.trips (s : State) (p : LegNo × Slot) : Option Trip := ((s.leg p.1).slot p.2).map Transfer.trip

section Trips
variable {s t : State}

theorem State.trips_of_slot {l : LegNo} {k : Slot} {x : Transfer} (h : (s.leg l).slot k = some x) :
    s.trips (l, k) = some x.trip := by
  unfold State.trips; rw [h]; rfl

theorem State.slot_of_trips {p : LegNo × Slot} {y : Trip} (h : s.trips p = some y) :
    ∃ x, (s.leg p.1).slot p.2 = some x ∧ x.trip = y := Option.map_eq_some_iff.1 h

theorem State.trips_congr (h : t.legs = s.legs) : t.trips = s.trips := by unfold State.trips State.leg; rw [h]

/-- A leg that keeps what its slots hold. -/
theorem State.trips_setLeg_kept (l : LegNo) {g : Leg}
    (h : ∀ k, (g.slot k).map Transfer.trip = ((s.leg l).slot k).map Transfer.trip) : (s.setLeg l g).trips = s.trips := by
  funext ⟨m, k⟩
  unfold State.trips
  rw [State.leg_setLeg]
  split
  · next e => rw [h]; exact congrArg (fun x => ((s.leg x).slot k).map Transfer.trip) e.symm
  · rfl

end Trips

/-! ### The tie -/

/-- The dryer's discharge is the one transfer of origin DRYER, and goes to its batch's destination. -/
structure Tied (T : LegNo × Slot → Option Trip) (d : Dryer) : Prop where
  named : ∀ p x, T p = some x → (x.origin = .dryer ↔ d.discharge = some x.id)
  one : ∀ p q x y, T p = some x → T q = some y → x.origin = .dryer → y.origin = .dryer → p = q
  route : ∀ p x, T p = some x → x.origin = .dryer →
    x.source = .dryer ∧ d.batch.map (fun b => Dest.bin b.dest) = some x.dest
  live : ∀ id, d.discharge = some id → ∃ p x, T p = some x ∧ x.id = id

section Tied
variable {T : LegNo × Slot → Option Trip} {d e : Dryer}

/-- Transfers change their slots. -/
theorem Tied.permute (h : Tied T d) (σ : Equiv.Perm (LegNo × Slot)) : Tied (T ∘ σ) d where
  named p := h.named (σ p)
  one p q x y hx hy ox oy := σ.injective (h.one _ _ x y hx hy ox oy)
  route p := h.route (σ p)
  live id hd := by
    obtain ⟨p, x, hx, e⟩ := h.live id hd
    exact ⟨σ.symm p, x, by rw [Function.comp, Equiv.apply_symm_apply]; exact hx, e⟩

/-- The tie is of the discharge and of the batch's destination. -/
theorem Tied.redo (h : Tied T d) (hd : e.discharge = d.discharge)
    (hb : e.batch.map (fun b => Dest.bin b.dest) = d.batch.map fun b => Dest.bin b.dest) : Tied T e where
  named := by rw [hd]; exact h.named
  one := h.one
  route := by rw [hb]; exact h.route
  live := by rw [hd]; exact h.live

/-- Without a transfer of the dryer's, and without a discharge. -/
theorem Tied.free (hT : ∀ p x, T p = some x → x.origin ≠ .dryer) (hd : d.discharge = none) : Tied T d where
  named p x hx := by rw [hd]; exact iff_of_false (hT p x hx) nofun
  one p _ x _ hx _ ox := absurd ox (hT p x hx)
  route p x hx ox := absurd ox (hT p x hx)
  live id h := by rw [hd] at h; cases h

theorem Tied.unnamed (h : Tied T d) (hT : ∀ p x, T p = some x → x.origin ≠ .dryer) : d.discharge = none := by
  refine Option.eq_none_iff_forall_ne_some.2 fun id hd => ?_
  obtain ⟨p, x, hx, rfl⟩ := h.live id hd
  exact hT p x hx ((h.named p x hx).2 hd)

theorem Tied.absent (h : Tied T d) (hd : d.discharge = none) {p : LegNo × Slot} {x : Trip} (hx : T p = some x) :
    x.origin ≠ .dryer := fun o => by
  have := (h.named p x hx).1 o
  rw [hd] at this; cases this

/-- What a slot holds after one has been given something else. -/
theorem update_eq_some {p q : LegNo × Slot} {o : Option Trip} {y : Trip} (h : Function.update T p o q = some y) :
    q = p ∧ o = some y ∨ q ≠ p ∧ T q = some y := by
  by_cases e : q = p
  · rw [e, Function.update_self] at h; exact .inl ⟨e, h⟩
  · rw [Function.update_of_ne e] at h; exact .inr ⟨e, h⟩

/-- A transfer of another origin leaves its slot. -/
theorem Tied.vacate (h : Tied T d) {p : LegNo × Slot} {x : Trip} (hx : T p = some x) (ho : x.origin ≠ .dryer) :
    Tied (Function.update T p none) d where
  named q y hy := by
    rcases update_eq_some hy with ⟨-, e⟩ | ⟨-, hy⟩
    · cases e
    · exact h.named q y hy
  one q r y z hy hz oy oz := by
    rcases update_eq_some hy with ⟨-, e⟩ | ⟨-, hy⟩
    · cases e
    rcases update_eq_some hz with ⟨-, e⟩ | ⟨-, hz⟩
    · cases e
    exact h.one q r y z hy hz oy oz
  route q y hy := by
    rcases update_eq_some hy with ⟨-, e⟩ | ⟨-, hy⟩
    · cases e
    · exact h.route q y hy
  live id hd := by
    obtain ⟨q, y, hy, rfl⟩ := h.live id hd
    refine ⟨q, y, ?_, rfl⟩
    rw [Function.update_of_ne fun e => ?_, hy]
    rw [e, hx] at hy
    cases hy
    exact ho ((h.named p x hx).2 hd)

/-- The dryer's transfer leaves its slot, and the dryer forgets it. -/
theorem Tied.discharged (h : Tied T d) {p : LegNo × Slot} {x : Trip} (hx : T p = some x) (ho : x.origin = .dryer)
    (he : e.discharge = none) : Tied (Function.update T p none) e := by
  refine .free (fun q y hy oy => ?_) he
  rcases update_eq_some hy with ⟨-, e⟩ | ⟨hne, hy⟩
  · cases e
  · exact hne (h.one q p y x hy hx oy ho)

/-- A transfer of a new id and of another origin enters an empty slot. -/
theorem Tied.enter (h : Tied T d) {p : LegNo × Slot} {x : Trip} (hp : T p = none)
    (fresh : ∀ q y, T q = some y → y.id ≠ x.id) (ho : x.origin ≠ .dryer) : Tied (Function.update T p (some x)) d where
  named q y hy := by
    rcases update_eq_some hy with ⟨-, e⟩ | ⟨-, hy⟩
    · cases e
      refine iff_of_false ho fun hd => ?_
      obtain ⟨r, z, hz, e⟩ := h.live _ hd
      exact fresh r z hz e
    · exact h.named q y hy
  one q r y z hy hz oy oz := by
    rcases update_eq_some hy with ⟨-, e⟩ | ⟨-, hy⟩
    · cases e; exact absurd oy ho
    rcases update_eq_some hz with ⟨-, e⟩ | ⟨-, hz⟩
    · cases e; exact absurd oz ho
    exact h.one q r y z hy hz oy oz
  route q y hy oy := by
    rcases update_eq_some hy with ⟨-, e⟩ | ⟨-, hy⟩
    · cases e; exact absurd oy ho
    · exact h.route q y hy oy
  live id hd := by
    obtain ⟨q, y, hy, e⟩ := h.live id hd
    refine ⟨q, y, ?_, e⟩
    rw [Function.update_of_ne fun e' => ?_, hy]
    rw [e', hp] at hy; cases hy

/-- The dryer's discharge of a new id enters a slot, and the dryer takes its id. -/
theorem Tied.launched (h : Tied T d) {p : LegNo × Slot} {x : Trip} (hd : d.discharge = none)
    (fresh : ∀ q y, T q = some y → y.id ≠ x.id) (hs : x.source = .dryer) (ho : x.origin = .dryer)
    (he : e.discharge = some x.id) (hb : e.batch.map (fun b => Dest.bin b.dest) = some x.dest) :
    Tied (Function.update T p (some x)) e where
  named q y hy := by
    rw [he]
    rcases update_eq_some hy with ⟨-, e⟩ | ⟨-, hy⟩
    · cases e; exact iff_of_true ho rfl
    · exact iff_of_false (h.absent hd hy) fun e => fresh q y hy (Option.some.inj e).symm
  one q r y z hy hz oy oz := by
    rcases update_eq_some hy with ⟨hq, -⟩ | ⟨-, hy⟩
    · rcases update_eq_some hz with ⟨hr, -⟩ | ⟨-, hz⟩
      · rw [hq, hr]
      · exact absurd oz (h.absent hd hz)
    · exact absurd oy (h.absent hd hy)
  route q y hy oy := by
    rcases update_eq_some hy with ⟨-, e⟩ | ⟨-, hy⟩
    · cases e; exact ⟨hs, hb⟩
    · exact absurd oy (h.absent hd hy)
  live id h := by
    rw [he] at h
    cases h
    exact ⟨p, x, Function.update_self _ _ _, rfl⟩

/-- The law of the discharge, slot by slot. -/
theorem DischargeLaw.tied {s : State} (h : DischargeLaw s) (hi : IdLaw s) : Tied s.trips s.dryer where
  named p y hy := by
    obtain ⟨x, hx, rfl⟩ := State.slot_of_trips hy
    exact h.named x (s.mem_live.2 ⟨_, _, hx⟩)
  one p q y z hy hz oy oz := by
    obtain ⟨x, hx, rfl⟩ := State.slot_of_trips hy
    obtain ⟨w, hw, rfl⟩ := State.slot_of_trips hz
    have hxd := (h.named x (s.mem_live.2 ⟨_, _, hx⟩)).1 oy
    have hwd := (h.named w (s.mem_live.2 ⟨_, _, hw⟩)).1 oz
    have hid : x.id = w.id := Option.some.inj (hxd.symm.trans hwd)
    obtain ⟨h1, h2⟩ := (idLaw_iff s).1 hi p.1 p.2 q.1 q.2 (x.id, x.berth?) (w.id, w.berth?)
      (by simp [State.holds, hx]) (by simp [State.holds, hw]) hid
    exact Prod.ext h1 h2
  route p y hy oy := by
    obtain ⟨x, hx, rfl⟩ := State.slot_of_trips hy
    exact h.route x (s.mem_live.2 ⟨_, _, hx⟩) oy
  live id hd := by
    obtain ⟨x, hx, hid⟩ := h.live id hd
    obtain ⟨l, k, hk⟩ := s.mem_live.1 hx
    exact ⟨(l, k), x.trip, State.trips_of_slot hk, hid⟩

theorem Tied.law {s : State} (h : Tied s.trips s.dryer)
    (hs : s.dryer.discharge.isSome = true ↔ s.dryer.state = .discharging) : DischargeLaw s where
  named x hx := by
    obtain ⟨l, k, hk⟩ := s.mem_live.1 hx
    exact h.named (l, k) x.trip (State.trips_of_slot hk)
  route x hx ox := by
    obtain ⟨l, k, hk⟩ := s.mem_live.1 hx
    exact h.route (l, k) x.trip (State.trips_of_slot hk) ox
  live id hd := by
    obtain ⟨p, y, hy, hid⟩ := h.live id hd
    obtain ⟨x, hx, rfl⟩ := State.slot_of_trips hy
    exact ⟨x, s.mem_live.2 ⟨_, _, hx⟩, hid⟩
  state := hs

end Tied

end Sys2Proof.Machine
end

section
/-! PROOFS. The dryer's law through the ends, the succession, the launches and the examination (R92, R93, R95, R113, R115,
R122, R123, R138). -/

namespace Sys2Proof.Machine

/-! ### What each state says of the batch -/

section Agrees
variable {d : Dryer}

theorem Dryer.agrees_off (h : d.state = .off) : d.agrees ↔ ∀ b, d.batch = some b → b.phase = .dried := by
  unfold Dryer.agrees; rw [h]

theorem Dryer.agrees_warming (h : d.state = .warming) :
    d.agrees ↔ if d.returnMark = true then ∃ b, d.batch = some b ∧ b.phase = .wet else d.batch = none := by
  unfold Dryer.agrees; rw [h]

theorem Dryer.agrees_ready (h : d.state = .ready) : d.agrees ↔ d.batch = none := by unfold Dryer.agrees; rw [h]

theorem Dryer.agrees_drying (h : d.state = .drying) : d.agrees ↔ ∃ b, d.batch = some b ∧ b.phase = .wet := by
  unfold Dryer.agrees; rw [h]

theorem Dryer.agrees_dried (h : d.state = .dischargeWait ∨ d.state = .discharging) :
    d.agrees ↔ ∃ b, d.batch = some b ∧ b.phase = .dried := by
  unfold Dryer.agrees; rcases h with h | h <;> rw [h]

theorem Dryer.agrees_suspended (h : d.state = .suspended) : d.agrees ↔ d.batch.isSome = true := by
  unfold Dryer.agrees; rw [h]

/-- In FAULT any batch may stand (R98). -/
theorem Dryer.agrees_fault (h : d.state = .fault) : d.agrees := by unfold Dryer.agrees; rw [h]; trivial

end Agrees

/-! ### The law within a step -/

/-- The dryer's state and batch agree, and, where `P` holds, so do its discharge and the slots; while the dryer is being
faulted, which is when `F` holds, the discharge that is to be ended is still there in FAULT (R98). -/
structure DryerStands (P F : Prop) (s : State) : Prop where
  agrees : s.dryer.agrees
  tied : P → Tied s.trips s.dryer
  held : P → s.dryer.discharge ≠ none → s.dryer.state = .discharging ∨ F
  holds : P → s.dryer.state = .discharging → s.dryer.discharge ≠ none

/-- Between steps: the law of the dryer, and that of its discharge where `P` holds. -/
theorem DryerLaw.stands {P : Prop} {s : State} (h : DryerLaw s) (hP : P → IdLaw s ∧ DischargeLaw s) :
    DryerStands P False s where
  agrees := h
  tied hp := (hP hp).2.tied (hP hp).1
  held hp hd := .inl ((hP hp).2.state.1 (Option.isSome_iff_ne_none.2 hd))
  holds hp hs := Option.isSome_iff_ne_none.1 ((hP hp).2.state.2 hs)

theorem DryerStands.law {P : Prop} {s : State} (h : DryerStands P False s) : DryerLaw s ∧ (P → DischargeLaw s) :=
  ⟨h.agrees, fun hp => (h.tied hp).law ⟨fun hd => (h.held hp (Option.isSome_iff_ne_none.1 hd)).resolve_right id,
    fun hs => Option.isSome_iff_ne_none.2 (h.holds hp hs)⟩⟩

/-- The slots hold the trips they held, and the dryer stands. -/
def Sits (s t : State) : Prop := t.trips = s.trips ∧ t.dryer = s.dryer

section Sits
variable {s t u : State}

theorem Sits.refl (s : State) : Sits s s := ⟨rfl, rfl⟩

theorem Sits.trans (h : Sits s t) (k : Sits t u) : Sits s u := ⟨k.1.trans h.1, k.2.trans h.2⟩

theorem Sits.of_legs (hl : t.legs = s.legs) (hd : t.dryer = s.dryer) : Sits s t := ⟨State.trips_congr hl, hd⟩

theorem Sits.raiseIf (s : State) (c : Bool) (f : Flag) : Sits s (s.raiseIf c f) :=
  .of_legs (State.raiseIf_legs ..) (State.raiseIf_dryer ..)

theorem Sits.foldl {α : Type} {f : State → α → State} (h : ∀ s a, Sits s (f s a)) (l : List α) (s : State) :
    Sits s (l.foldl f s) := by
  induction l generalizing s with
  | nil => exact .refl s
  | cons a l ih => exact (h s a).trans (ih _)

theorem Untouched.sits (h : Untouched s t) (hd : t.dryer = s.dryer) : Sits s t := .of_legs h.1 hd

/-- A leg that keeps what its slots hold. -/
theorem Sits.setLeg (s : State) (l : LegNo) {g : Leg}
    (h : ∀ k, (g.slot k).map Transfer.trip = ((s.leg l).slot k).map Transfer.trip) : Sits s (s.setLeg l g) :=
  ⟨State.trips_setLeg_kept l h, rfl⟩

end Sits

section Law
variable {P F : Prop} {s t : State}

theorem DryerStands.sits (h : DryerStands P F s) (k : Sits s t) : DryerStands P F t := by
  obtain ⟨h1, h2, h3, h4⟩ := h
  obtain ⟨k1, k2⟩ := k
  exact ⟨by rw [k2]; exact h1, by rw [k1, k2]; exact h2, by rw [k2]; exact h3, by rw [k2]; exact h4⟩

/-- Transfers change their slots, and the dryer stands. -/
theorem DryerStands.permute (h : DryerStands P F s) {σ : Equiv.Perm (LegNo × Slot)} (hT : t.trips = s.trips ∘ σ)
    (hd : t.dryer = s.dryer) : DryerStands P F t where
  agrees := by rw [hd]; exact h.agrees
  tied hp := by rw [hT, hd]; exact (h.tied hp).permute σ
  held := by rw [hd]; exact h.held
  holds := by rw [hd]; exact h.holds

/-- A new record of the dryer that goes on with the same discharge to the same destination. -/
theorem DryerStands.redo (h : DryerStands P F s) (hT : t.trips = s.trips) (ha : t.dryer.agrees)
    (hd : t.dryer.discharge = s.dryer.discharge)
    (hb : t.dryer.batch.map (fun b => Dest.bin b.dest) = s.dryer.batch.map fun b => Dest.bin b.dest)
    (hs : t.dryer.state = .discharging ↔ s.dryer.state = .discharging) : DryerStands P F t where
  agrees := ha
  tied hp := by rw [hT]; exact (h.tied hp).redo hd hb
  held := by rw [hd, hs]; exact h.held
  holds := by rw [hd, hs]; exact h.holds

/-- With no discharge, a record of the dryer in another state than DISCHARGING. -/
theorem DryerStands.idle (h : DryerStands P F s) (hT : t.trips = s.trips) (ha : t.dryer.agrees)
    (hs : P → s.dryer.discharge = none) (hd : t.dryer.discharge = s.dryer.discharge) (ht : t.dryer.state ≠ .discharging) :
    DryerStands P F t where
  agrees := ha
  tied hp := by
    rw [hT]
    exact .free (fun p x hx => (h.tied hp).absent (hs hp) hx) (hd.trans (hs hp))
  held hp hn := absurd (hd.trans (hs hp)) hn
  holds _ e := absurd e ht

/-- In another state than DISCHARGING the dryer has no discharge. -/
theorem DryerStands.undischarged (h : DryerStands P False s) (hs : s.dryer.state ≠ .discharging) (hp : P) :
    s.dryer.discharge = none := by
  by_contra hd
  exact hs ((h.held hp hd).resolve_right id)

end Law

/-! ### The end of a transfer -/

/-- The dryer's record after the end of its discharge (R95). -/
def Dryer.discharged (d : Dryer) : Dryer :=
  { d with
    discharge := none
    autoDischarge := false
    batch := d.batch.filter fun b => b.portions != []
    stopPending := match d.batch with
      | some b => if b.portions = [] ∧ d.state ≠ .fault then false else d.stopPending
      | none => d.stopPending
    state := match d.batch with
      | some b =>
        if b.portions = [] then
          if d.state = .fault then .fault else if d.stopPending = true then .off else .ready
        else if d.state = .discharging then .dischargeWait else d.state
      | none => d.state }

theorem dischargeEnd_discharged (s : State) : s.dischargeEnd.dryer = s.dryer.discharged := by
  unfold State.dischargeEnd Dryer.discharged
  dsimp only
  cases hb : s.dryer.batch with
  | none => simp
  | some b =>
    by_cases hp : b.portions = []
    · by_cases hf : s.dryer.state = .fault
      · simp [hp, hf, Option.filter]
      · by_cases hs : s.dryer.stopPending = true
        · simp [hp, hf, hs, Option.filter]
        · simp [hp, hf, hs, Option.filter]
    · simp [hp, Option.filter]

/-- The end of a discharge leaves state and batch in agreement, in another state than DISCHARGING. -/
theorem Dryer.discharged_agrees {d : Dryer} (h : d.agrees) :
    d.discharged.agrees ∧ d.discharged.state ≠ .discharging := by
  unfold Dryer.discharged Dryer.agrees at *
  cases hb : d.batch with
  | none => cases hs : d.state <;> simp_all
  | some b =>
    by_cases hp : b.portions = []
    · cases hs : d.state <;> cases hq : d.stopPending <;> simp_all
    · cases hs : d.state <;> simp_all

section Ends
variable {P F : Prop} {s : State}

theorem endEntry_dryer (s : State) (n : EntryNo) (reason : EntryEnd) : (s.endEntry n reason).dryer = s.dryer := by
  unfold State.endEntry; split <;> rfl

theorem autoTurn_dryer (s : State) (b : BinNo) : (s.autoTurn b).dryer = s.dryer := by
  unfold State.autoTurn; dsimp only; split
  · rfl
  · split <;> rfl

theorem evaluateHot_dryer (s : State) (b : BinNo) : (s.evaluateHot b).dryer = s.dryer := by
  unfold State.evaluateHot; dsimp only; split
  · split
    · exact autoTurn_dryer _ b
    · rfl
  · rfl

theorem passComplete_dryer (s : State) (n : EntryNo) (e : Entry) (x : Transfer) :
    (s.passComplete n e x).dryer = s.dryer := by
  unfold State.passComplete
  extract_lets s1 y turned old s2 z old' s3
  have h3 : s3.dryer = s.dryer := by
    unfold s3; split
    · exact evaluateHot_dryer _ _
    · rfl
  split
  · split
    · exact (endEntry_dryer _ _ _).trans h3
    · split <;> exact h3
  · exact h3

theorem passEnd_dryer (s : State) (n : EntryNo) (reason : EndReason) (x : Transfer) :
    (s.passEnd n reason x).dryer = s.dryer := by
  unfold State.passEnd; split
  · rfl
  · split
    · rfl
    · split
      · exact passComplete_dryer s _ _ _
      · rfl
      · dsimp only; split
        · exact endEntry_dryer _ _ _
        · rfl

/-- The dryer is told the end of its own transfer, and of no other. -/
theorem tellEnd_dryer (s : State) (x : Transfer) (reason : EndReason) :
    (s.tellEnd x reason).dryer = if x.origin = .dryer then s.dryer.discharged else s.dryer := by
  unfold State.tellEnd
  extract_lets s1
  have h1 : s1.dryer = if x.origin = .dryer then s.dryer.discharged else s.dryer := by
    unfold s1; split
    · next e => rw [if_pos e, dischargeEnd_discharged]
    · next e => rw [if_neg (by rw [e]; exact nofun), passEnd_dryer]
    · next e => rw [if_neg (by rw [e]; exact nofun)]
  cases x.berth? with
  | some k => exact (berthEnd_aside s1 k reason).dryer.trans h1
  | none => exact h1

theorem endSlot_dryer_eq (s : State) {l : LegNo} {k : Slot} (reason : EndReason) {x : Transfer}
    (hx : (s.leg l).slot k = some x) :
    (s.endSlot l k reason).dryer = if x.origin = .dryer then s.dryer.discharged else s.dryer := by
  obtain ⟨u, he, ha, -⟩ := endSlot_told s reason hx
  rw [he, tellEnd_dryer, ha.dryer]

theorem endSlot_trips (s : State) (l : LegNo) (k : Slot) (reason : EndReason) :
    (s.endSlot l k reason).trips = Function.update s.trips (l, k) none := by
  funext ⟨m, j⟩
  unfold State.trips
  dsimp only
  rw [endSlot_slot]
  by_cases e : m = l ∧ j = k
  · rw [if_pos e, e.1, e.2, Function.update_self]; rfl
  · rw [if_neg e, Function.update_of_ne fun h => e (Prod.mk.inj h)]

/-- The end of a transfer keeps the law (R95). -/
theorem DryerStands.endSlot (h : DryerStands P F s) (l : LegNo) (k : Slot) (reason : EndReason) :
    DryerStands P F (s.endSlot l k reason) := by
  cases hx : (s.leg l).slot k with
  | none => rw [endSlot_empty s reason hx]; exact h
  | some x =>
    have hd := endSlot_dryer_eq s reason hx
    have hT := endSlot_trips s l k reason
    have hy := State.trips_of_slot hx
    by_cases ho : x.origin = .dryer
    · rw [if_pos ho] at hd
      obtain ⟨ha, hs⟩ := Dryer.discharged_agrees h.agrees
      have hn : (s.endSlot l k reason).dryer.discharge = none := by rw [hd]; rfl
      exact ⟨by rw [hd]; exact ha, fun hp => by rw [hT]; exact (h.tied hp).discharged hy ho hn,
        fun _ e => absurd hn e, fun _ e => absurd (by rw [← hd]; exact e) hs⟩
    · rw [if_neg ho] at hd
      exact ⟨by rw [hd]; exact h.agrees, fun hp => by rw [hT, hd]; exact (h.tied hp).vacate hy ho,
        by rw [hd]; exact h.held, by rw [hd]; exact h.holds⟩

theorem DryerStands.foldl_endSlot (vs : List Victim) (h : DryerStands P F s) :
    DryerStands P F (vs.foldl (fun t v => t.endSlot v.leg v.slot v.reason) s) := by
  induction vs generalizing s with
  | nil => exact h
  | cons v vs ih => exact ih (h.endSlot v.leg v.slot v.reason)

end Ends

/-! ### Becoming active -/

section Active
variable {P F : Prop} {s : State}

/-- What stood at one place stands at another. -/
theorem update_eq_swap {T : LegNo × Slot → Option Trip} {p q : LegNo × Slot} {x : Trip} (hp : T p = some x)
    (hq : T q = none) : Function.update (Function.update T p none) q (some x) = T ∘ Equiv.swap p q := by
  funext r
  rw [Function.comp]
  by_cases h1 : r = q
  · rw [h1, Function.update_self, Equiv.swap_apply_right, hp]
  · rw [Function.update_of_ne h1]
    by_cases h2 : r = p
    · rw [h2, Function.update_self, Equiv.swap_apply_left, hq]
    · rw [Function.update_of_ne h2, Equiv.swap_apply_of_ne_of_ne h2 h1]

theorem trips_setSlot (s : State) (l : LegNo) (g : Leg) (k : Slot) (o : Option Transfer) :
    (s.setLeg l (g.setSlot k o)).trips = Function.update (s.setLeg l g).trips (l, k) (o.map Transfer.trip) := by
  funext ⟨m, j⟩
  rw [State.trips]
  dsimp only
  rw [State.leg_setLeg]
  by_cases hm : m = l
  · rw [if_pos hm, Leg.slot_setSlot]
    by_cases hj : j = k
    · rw [if_pos hj, hm, hj, Function.update_self]
    · rw [if_neg hj, Function.update_of_ne (by simp [hj]), State.trips, hm, State.leg_setLeg_same]
  · rw [if_neg hm, Function.update_of_ne (by simp [hm]), State.trips, State.leg_setLeg, if_neg hm]

theorem trips_emptied (s : State) (l : LegNo) (k : Slot) :
    (s.setLeg l ((s.leg l).setSlot k none)).trips = Function.update s.trips (l, k) none := by
  rw [trips_setSlot, State.setLeg_leg]; rfl

theorem Leg.starts_slot (g : Leg) (time : Nat) (x : Transfer) (k : Slot) :
    ((g.starts time x).slot k).map Transfer.trip = if k = .active then some x.trip else (g.slot k).map Transfer.trip := by
  cases k <;> rfl

theorem enterActive_trips (s : State) (l : LegNo) (x : Transfer) :
    (s.enterActive l x).trips = Function.update s.trips (l, .active) (some x.trip) := by
  funext ⟨m, j⟩
  rw [State.trips]
  dsimp only
  rw [enterActive_leg]
  by_cases hm : m = l
  · rw [if_pos hm, Leg.starts_slot, hm]
    by_cases hj : j = .active
    · rw [if_pos hj, hj, Function.update_self]
    · rw [if_neg hj, Function.update_of_ne (by simp [hj])]; rfl
  · rw [if_neg hm, Function.update_of_ne (by simp [hm])]; rfl

theorem enterActive_dryer (s : State) (l : LegNo) (x : Transfer) : (s.enterActive l x).dryer = s.dryer := by
  rw [enterActive_frame]

/-- A re-plan changes the target and the flags of a transfer alone (R115). -/
theorem replan_trip {x y : Transfer} (h : s.replan x = .ok y) : y.trip = x.trip := by
  unfold State.replan at h
  split at h
  · cases h; rfl
  · split at h
    · cases h
    · dsimp only at h
      split at h <;> cases h
      rfl

/-- A waiting transfer is resumed or promoted, or ended (R115, R123). -/
theorem DryerStands.advance {l : LegNo} {n : Nat} (ih : ∀ u, DryerStands P F u → DryerStands P F (u.fillActive l n))
    (h : DryerStands P F s) {k : Slot} {x : Transfer} (hx : (s.leg l).slot k = some x)
    (ha : (s.leg l).active = none) :
    DryerStands P F (State.fillActive.advance l n x ((s.leg l).setSlot k none) s) := by
  have swapped := update_eq_swap (State.trips_of_slot hx) (q := (l, .active)) (congrArg (Option.map Transfer.trip) ha)
  unfold State.fillActive.advance
  split
  · next y hy =>
    refine h.permute (σ := Equiv.swap (l, k) (l, .active)) ?_ (enterActive_dryer _ _ _)
    rw [enterActive_trips, trips_emptied, replan_trip hy, swapped]
  · next reason _ =>
    have hT := trips_setSlot s l ((s.leg l).setSlot k none) .active (some x)
    rw [trips_emptied] at hT
    exact ih _ ((h.permute (hT.trans swapped) rfl).endSlot l .active reason)

theorem DryerStands.fillActive (l : LegNo) (n : Nat) (h : DryerStands P F s) : DryerStands P F (s.fillActive l n) := by
  induction n generalizing s with
  | zero => unfold State.fillActive; exact h
  | succ n ih =>
    unfold State.fillActive
    dsimp only
    split
    · exact h
    · next ha =>
      have hn : (s.leg l).active = none := by simpa using ha
      split
      · next hs => exact h.advance (fun u hu => ih hu) (k := .suspended) hs hn
      · next hb => exact h.advance (fun u hu => ih hu) (k := .buffered) hb hn
      · exact h

theorem DryerStands.settleLeg (l : LegNo) (h : DryerStands P F s) : DryerStands P F (s.settleLeg l) :=
  (h.fillActive l 2).sits (.raiseIf _ _ _)

end Active

/-! ### Launches -/

section Launches
variable {P F : Prop} {s : State}

theorem preempt_trips (s : State) {l : LegNo} {a : Transfer} (ha : (s.leg l).active = some a)
    (hn : (s.leg l).suspended = none) :
    (s.preempt l).trips = s.trips ∘ Equiv.swap (l, .active) (l, .suspended) := by
  have hT := trips_setSlot s l ((s.leg l).setSlot .active none) .suspended (some { a with state := .suspended })
  rw [trips_emptied] at hT
  rw [← update_eq_swap (q := (l, .suspended)) (State.trips_of_slot (k := .active) ha)
    (congrArg (Option.map Transfer.trip) hn)]
  refine Eq.trans ?_ hT
  unfold State.trips
  funext p
  rw [preempt_leg s l ha, State.leg_setLeg]
  rfl

/-- The slot a launch takes is empty once an ACTIVE transfer has given way to it (R113). -/
theorem commitLaunch_trips {r : LaunchRequest} {g : Grant} (hg : s.launchChecks r = .ok g) :
    ∃ (σ : Equiv.Perm (LegNo × Slot)) (p : LegNo × Slot), (s.trips ∘ σ) p = none ∧
      (s.commitLaunch r g).trips = Function.update (s.trips ∘ σ) p (some (s.granted r g).trip) := by
  have leg (m : LegNo) := claimed_leg s r g m
  have hc : (s.claimed r g).trips = s.trips := by unfold State.trips; simp only [leg]
  rw [commitLaunch_eq]
  rcases Leg.place_cases (launchChecks_ok s hg).2 with ⟨ha, hs, hp⟩ | ⟨hs, hp, ha, hn⟩ | ⟨hs, hp, -, hb⟩ <;> rw [hs, hp]
  · refine ⟨1, (r.leg, .active), congrArg (Option.map Transfer.trip) ha, ?_⟩
    exact (enterActive_trips _ _ _).trans (by rw [← hc]; rfl)
  · obtain ⟨a, ha⟩ := Option.isSome_iff_exists.1 ha
    refine ⟨Equiv.swap (r.leg, .active) (r.leg, .suspended), (r.leg, .active), ?_, ?_⟩
    · rw [Function.comp, Equiv.swap_apply_left]; exact congrArg (Option.map Transfer.trip) hn
    · refine (enterActive_trips _ _ _).trans ?_
      rw [if_pos rfl, preempt_trips _ (by rw [leg]; exact ha) (by rw [leg]; exact hn), hc]
  · refine ⟨1, (r.leg, .buffered), congrArg (Option.map Transfer.trip) hb, ?_⟩
    refine (trips_setSlot _ r.leg ((s.claimed r g).leg r.leg) .buffered (some (s.granted r g))).trans ?_
    rw [if_neg Bool.false_ne_true, State.setLeg_leg, hc]; rfl

theorem commitLaunch_dryer (s : State) (r : LaunchRequest) (g : Grant) : (s.commitLaunch r g).dryer = s.dryer := by
  rw [commitLaunch_frame]

theorem trips_fresh (s : State) {p : LegNo × Slot} {x : Trip} (h : s.trips p = some x) : x.id ≠ s.nextId := by
  obtain ⟨y, hy, rfl⟩ := State.slot_of_trips h
  exact nextId_fresh s p.1 p.2 (y.id, y.berth?) (by simp [State.holds, hy])

/-- A launch of another origin keeps the law. -/
theorem DryerStands.commitLaunch (h : DryerStands P F s) {r : LaunchRequest} {g : Grant} (hg : s.launchChecks r = .ok g)
    (ho : r.origin ≠ .dryer) : DryerStands P F (s.commitLaunch r g) := by
  obtain ⟨σ, p, hp, hT⟩ := commitLaunch_trips hg
  have hd := commitLaunch_dryer s r g
  refine ⟨by rw [hd]; exact h.agrees, fun hP => ?_, by rw [hd]; exact h.held, by rw [hd]; exact h.holds⟩
  rw [hT, hd]
  exact ((h.tied hP).permute σ).enter hp (fun q y hy => trips_fresh s (p := σ q) hy) ho

theorem DryerStands.launch (h : DryerStands P F s) {r : LaunchRequest} (ho : r.origin ≠ .dryer) :
    DryerStands P F (s.launch r).1 := by
  obtain ⟨code, limit, -, e⟩ | ⟨g, hg, e⟩ := s.launch_cases r <;> rw [e]
  · exact h
  · exact h.commitLaunch hg ho

/-- The dryer's try, in DISCHARGE_WAIT, keeps the law (R92). -/
theorem DryerStands.tryDischarge (h : DryerStands P False s) (hw : s.dryer.state = .dischargeWait) :
    DryerStands P False s.tryDischarge.1 := by
  obtain ⟨-, e⟩ | ⟨b, hb, ⟨code, limit, -, e⟩ | ⟨g, hg, e⟩⟩ := tryDischarge_cases s <;> rw [e]
  · exact h
  · exact h.sits (.raiseIf _ _ _)
  · obtain ⟨σ, p, -, hT⟩ := commitLaunch_trips hg
    have hn := h.undischarged (by rw [hw]; exact nofun)
    have ha := (Dryer.agrees_dried (.inl hw)).1 h.agrees
    have hd := commitLaunch_dryer s (s.dischargeRequest b) g
    refine ⟨?_, fun hP => ?_, fun _ _ => .inl rfl, fun _ _ => nofun⟩
    · rw [hd]; exact (Dryer.agrees_dried (.inr rfl)).2 ha
    · have h1 : ((s.commitLaunch (s.dischargeRequest b) g).setDryer
          { (s.commitLaunch (s.dischargeRequest b) g).dryer with
            state := .discharging, discharge := some s.nextId }).trips = _ := hT
      rw [h1]
      refine ((h.tied hP).permute σ).launched (hn hP) (fun q y hy => trips_fresh s (p := σ q) hy) rfl rfl rfl ?_
      rw [hd]
      show s.dryer.batch.map _ = _
      rw [hb]; rfl

theorem DryerStands.launchPass (h : DryerStands P F s) (n : EntryNo) (e : Entry) : DryerStands P F (s.launchPass n e) := by
  unfold State.launchPass
  extract_lets kg r
  have hl : DryerStands P F (s.launch r).1 := h.launch nofun
  split
  · next e => rw [e] at hl; exact hl.sits ⟨rfl, rfl⟩
  · next e =>
    rw [e] at hl
    split
    · exact hl
    · exact hl
    all_goals exact hl.sits ((endEntry_untouched _ _ _).sits (endEntry_dryer _ _ _))

theorem DryerStands.examine (h : DryerStands P F s) : DryerStands P F s.examine := by
  unfold State.examine
  induction allEntries generalizing s with
  | nil => exact h
  | cons n ns ih =>
    refine ih ?_
    unfold State.examineEntry
    split
    · exact h
    · split
      · exact h.launchPass _ _
      · exact h

theorem DryerStands.launchStaged (h : DryerStands P F s) (l : LegNo) (x : Staging) :
    DryerStands P F (s.launchStaged l x).1 := by
  have hl : DryerStands P F (s.launch (x.request l)).1 := h.launch nofun
  unfold State.launchStaged
  split
  · next e => rw [e] at hl; exact hl.sits (.setLeg _ l fun k => by cases k <;> rfl)
  · next e => rw [e] at hl; exact hl.sits (.raiseIf _ _ _)

end Launches

/-! ### Ends and all that follows them -/

section Followed
variable {P F : Prop} {s : State}

/-- Ends that include that of the dryer's transfer while the dryer is being faulted. -/
theorem DryerStands.endTransfers (h : DryerStands P F s) (vs : List Victim)
    (hv : P → F → ∀ p x, s.trips p = some x → x.origin = .dryer → ∃ v ∈ vs, (v.leg, v.slot) = p) :
    DryerStands P False (s.endTransfers vs) := by
  have ended : DryerStands P False (vs.foldl (fun t v => t.endSlot v.leg v.slot v.reason) s) := by
    have h1 := h.foldl_endSlot vs
    refine ⟨h1.agrees, h1.tied, fun hP hd => (h1.held hP hd).imp_right fun hF => hd ?_, h1.holds⟩
    refine (h1.tied hP).unnamed fun p x hx ho => ?_
    obtain ⟨y, hy, rfl⟩ := State.slot_of_trips hx
    obtain ⟨hs, hne⟩ := foldl_endSlot_slot s vs p.1 p.2 hy
    obtain ⟨v, hvm, e⟩ := hv hP hF p y.trip (State.trips_of_slot hs) ho
    exact hne v hvm ⟨congrArg Prod.fst e.symm, congrArg Prod.snd e.symm⟩
  unfold State.endTransfers
  split
  · next hn => subst hn; exact ended
  · extract_lets s1 legs s2 s3
    have h2 : DryerStands P False s2 := by
      unfold s2
      generalize legs = ls
      change DryerStands P False s1 at ended
      clear_value s1
      induction ls generalizing s1 with
      | nil => exact ended
      | cons l ls ih => exact ih _ (ended.settleLeg l)
    have h3 : DryerStands P False s3 := by
      unfold s3; split
      · next hdue =>
        refine h2.tryDischarge ?_
        unfold dischargeDue at hdue
        split at hdue
        · cases hdue
        · simp only [Bool.and_eq_true, beq_iff_eq] at hdue; exact hdue.1.1
      · exact h2
    exact h3.examine

theorem DryerStands.ends (h : DryerStands P False s) (vs : List Victim) : DryerStands P False (s.endTransfers vs) :=
  h.endTransfers vs fun _ => nofun

end Followed

end Sys2Proof.Machine
end

section
/-! PROOFS. The dryer's law through every block's answer, the expiries, the lines and the starts. The operations say of a
warm-up only whether there is a batch; which state it starts from, and that the batch is WET, the requests say, so the law
goes by the requests. -/

namespace Sys2Proof.Machine

/-- What keeps the dryer's law. -/
def Keeps (P : Prop) (s t : State) : Prop := DryerStands P False s → DryerStands P False t

section Keeps
variable {P : Prop} {s t u : State}

theorem Keeps.refl (s : State) : Keeps P s s := id

theorem Keeps.trans (h : Keeps P s t) (k : Keeps P t u) : Keeps P s u := fun hs => k (h hs)

theorem Sits.keeps (h : Sits s t) : Keeps P s t := fun hs => hs.sits h

theorem Sits.ends (h : Sits s t) (vs : List Victim) : Keeps P s (t.endTransfers vs) := fun hs => (hs.sits h).ends vs

theorem Sits.examined (h : Sits s t) : Keeps P s t.examine := fun hs => (hs.sits h).examine

/-- A request refused by its checks changes nothing. -/
theorem Keeps.unlessFails {cs : List (Bool × Status)} {go : State × Answer}
    (h : (∀ c ∈ cs, c.1 = false) → Keeps P s go.1) : Keeps P s (unlessFails cs s go).1 := by
  cases hc : firstFailure cs with
  | none => rw [unlessFails_none hc]; exact h (firstFailure_eq_none.1 hc)
  | some code => rw [unlessFails_some hc]; exact .refl s

theorem Keeps.accept {p : List Byte} (h : Keeps P s t) : Keeps P s (accept p t).1 := h

theorem Expiry.sits (h : Expiry s t) : Sits s t := .of_legs (by rw [h.frame]) (by rw [h.frame])

theorem Sits.setBerth (s : State) (k : BerthNo) (x : Berth) : Sits s (s.setBerth k x) := ⟨rfl, rfl⟩

theorem Sits.raise (s : State) (f : Flag) : Sits s (s.raise f) := ⟨rfl, rfl⟩

end Keeps

/-! ### Lots, bins and scales -/

section Records
variable {P : Prop} (st : StationNo) (s : State)

theorem actCloseReceivingLot_sits (n : Nat) : Sits s (actCloseReceivingLot st n s).1 := by
  unfold actCloseReceivingLot unlessFails
  repeat' split
  all_goals exact ⟨rfl, rfl⟩

theorem actCloseIpLot_sits (n : Nat) : Sits s (actCloseIpLot st n s).1 := by
  unfold actCloseIpLot unlessFails
  repeat' split
  all_goals exact ⟨rfl, rfl⟩

theorem actSetLotHold_sits (q : Nat × LotHold) : Sits s (actSetLotHold st q s).1 := by
  unfold actSetLotHold unlessFails
  split <;> exact ⟨rfl, rfl⟩

theorem actClearLotHold_sits (n : Nat) : Sits s (actClearLotHold st n s).1 := by
  unfold actClearLotHold unlessFails
  repeat' split
  all_goals exact ⟨rfl, rfl⟩

theorem actAmendLot_sits (a : Amendment) : Sits s (actAmendLot st a s).1 := by
  unfold actAmendLot unlessFails
  repeat' split
  all_goals exact ⟨rfl, rfl⟩

theorem actRetireLot_sits (n : Nat) : Sits s (actRetireLot st n s).1 := by
  unfold actRetireLot unlessFails
  repeat' split
  all_goals exact ⟨rfl, rfl⟩

theorem actSetLotSize_sits (size : Nat) : Sits s (actSetLotSize st size s).1 := by
  unfold actSetLotSize unlessFails
  split <;> exact ⟨rfl, rfl⟩

theorem actSetBinSettings_keeps (q : Nat × BinSettings) : Keeps P s (actSetBinSettings st q s).1 := by
  unfold actSetBinSettings
  split
  · exact .refl s
  · exact .unlessFails fun _ => Sits.keeps (.raiseIf (s.setBinSet _ _) _ _)

theorem holdEntries_sits (b : BinNo) : Sits s (s.holdEntries b) := by
  refine .foldl (fun u n => ?_) _ s
  split
  · split
    · exact (endEntry_untouched u _ _).sits (endEntry_dryer u _ _)
    · exact .refl u
  · exact .refl u

theorem returnTicket_sits (t : Ticket) : Sits s (s.returnTicket t) := by
  unfold State.returnTicket; split <;> exact ⟨rfl, rfl⟩

theorem imposeHold_keeps (b : BinNo) (h : BinHold) : Keeps P s (s.imposeHold b h) := by
  have held : Sits s (s.setBin b { s.bin b with hold := some h }) := ⟨rfl, rfl⟩
  exact ((held.trans (holdEntries_sits _ b)).trans (.foldl returnTicket_sits _ _)).ends _

/-- The dryer tries its launch in DISCHARGE_WAIT alone (R40, R93). -/
theorem liftHold_keeps (b : BinNo) : Keeps P s (s.liftHold b) := fun hs => by
  unfold State.liftHold
  dsimp only
  split
  · next hc => exact DryerStands.tryDischarge (s := s.setBin b { s.bin b with hold := none }) (hs.sits ⟨rfl, rfl⟩) hc.2.1
  · exact hs.sits ⟨rfl, rfl⟩

theorem actSetBinHold_keeps (q : Nat × BinHold) : Keeps P s (actSetBinHold st q s).1 := by
  unfold actSetBinHold
  split
  · exact .refl s
  · refine .unlessFails fun _ => ?_
    split
    · exact Sits.keeps ⟨rfl, rfl⟩
    · exact imposeHold_keeps s _ _

theorem actClearBinHold_keeps (n : Nat) : Keeps P s (actClearBinHold st n s).1 := by
  unfold actClearBinHold
  split
  · exact .refl s
  · split
    · exact .refl s
    · exact .unlessFails fun _ => liftHold_keeps s _

theorem actSweepClose_keeps (n : Nat) : Keeps P s (actSweepClose st n s).1 := by
  unfold actSweepClose
  split
  · exact .refl s
  · refine .unlessFails fun _ => Sits.keeps ?_
    show Sits s (s.sweep _)
    unfold State.sweep
    dsimp only
    rw [foldl_modLot_frame]
    exact ⟨rfl, rfl⟩

theorem actScaleSample_keeps (q : Nat × Int) : Keeps P s (actScaleSample st q s).1 := by
  unfold actScaleSample
  split
  · exact .refl s
  · exact .unlessFails fun _ => Sits.keeps (.raiseIf (s.setChannel _ _) _ _)

theorem actSetCalibration_sits (q : Nat × Calibration) : Sits s (actSetCalibration st q s).1 := by
  unfold actSetCalibration unlessFails
  repeat' split
  all_goals exact ⟨rfl, rfl⟩

theorem actSetScaleParameters_sits (q : Nat × Nat × Nat) : Sits s (actSetScaleParameters st q s).1 := by
  unfold actSetScaleParameters unlessFails
  repeat' split
  all_goals exact ⟨rfl, rfl⟩

theorem actZeroScale_sits (n : Nat) : Sits s (actZeroScale st n s).1 := by
  unfold actZeroScale unlessFails
  split
  · exact .refl s
  · dsimp only
    split <;> exact ⟨rfl, rfl⟩

theorem signalExpired_sits (c : ChannelNo) : Sits s (s.signalExpired c) := by
  unfold State.signalExpired
  dsimp only
  split <;> exact ⟨rfl, rfl⟩

end Records

/-! ### Tickets -/

section Tickets
variable {P : Prop} (st : StationNo) (s : State)

theorem actWeighIn_keeps (w : WeighIn) : Keeps P s (actWeighIn st w s).1 := by
  unfold actWeighIn
  split
  · exact .refl s
  · split
    · exact .refl s
    · refine .unlessFails fun _ => Sits.keeps ?_
      show Sits s (s.openTicket _ _ w)
      rw [openTicket_frame]; exact ⟨rfl, rfl⟩

theorem assign_sits (t : Ticket) (g : Grade) (b : BinNo) (r : BindResult) : Sits s (s.assign t g b r) := by
  refine (assign_untouched s t g b r).sits ?_
  unfold State.assign
  rw [State.modTicket_dryer, reserve_frame, bindTo_frame]

theorem assignChecked_sits (t : Ticket) (g : Grade) (b : BinNo) : Sits s (s.assignChecked t g b).1 := by
  obtain ⟨code, h⟩ | ⟨r, -, -, h⟩ := s.assignChecked_cases t g b <;> rw [h]
  · exact .refl s
  · exact assign_sits s t g b r

theorem autoAssign_sits (t : Ticket) (g : Grade) : Sits s (s.autoAssign st t g).1 := by
  obtain ⟨code, h⟩ | ⟨b, r, -, -, -, h⟩ := s.autoAssign_cases st t g <;> rw [h]
  · exact .refl s
  · exact assign_sits s t g b r

theorem actGradeReport_keeps (r : GradeReport) : Keeps P s (actGradeReport st r s).1 := by
  unfold actGradeReport
  split
  · exact .refl s
  · next t _ =>
    split
    · exact .refl s
    · next c _ =>
      refine .unlessFails fun _ => Sits.keeps ?_
      extract_lets g u wet
      split
      · have h : Sits s (u.autoAssign st t g).1 := Sits.trans ⟨rfl, rfl⟩ (autoAssign_sits st u t g)
        split
        · next e => rw [e] at h; exact h
        · next e => rw [e] at h; exact h.trans (.raiseIf _ _ _)
      · exact ⟨rfl, rfl⟩

theorem actAssignDump_keeps (q : Nat × Nat) : Keeps P s (actAssignDump st q s).1 := by
  unfold actAssignDump
  split
  · exact .refl s
  · next t _ =>
    split
    · split
      · next g _ _ =>
        have h := autoAssign_sits st s t g
        split <;> next e => rw [e] at h; exact h.keeps
      · exact .refl s
    · split
      · exact .refl s
      · next b _ =>
        split
        · next g _ _ =>
          refine .unlessFails fun _ => ?_
          have h := assignChecked_sits s t g b
          split <;> next e => rw [e] at h; exact h.keeps
        · exact .refl s

theorem actDumpReport_keeps (n : Nat) : Keeps P s (actDumpReport st n s).1 := by
  unfold actDumpReport
  split
  · exact .refl s
  · refine .unlessFails fun _ => Sits.keeps ?_
    extract_lets u tare r
    split
    · exact Sits.trans (t := u) ⟨rfl, rfl⟩ (closeTicket_expiry u _ _).sits
    · exact ⟨rfl, rfl⟩

theorem actWeighOut_keeps (q : Nat × List Byte) : Keeps P s (actWeighOut st q s).1 := by
  unfold actWeighOut
  split
  · exact .refl s
  · split
    · exact .refl s
    · refine .unlessFails fun _ => Sits.keeps ?_
      unfold State.weighOut
      split
      · exact ⟨rfl, rfl⟩
      · split
        · exact (closeTicket_expiry s _ _).sits
        · exact (voidTicket_expiry s _).sits

theorem actVoidTicket_keeps (n : Nat) : Keeps P s (actVoidTicket st n s).1 := by
  unfold actVoidTicket
  split
  · exact .refl s
  · exact .unlessFails fun _ => Sits.keeps (Sits.trans (voidTicket_expiry s _).sits ⟨rfl, rfl⟩)

theorem actForgetVehicle_sits (tag : List Byte) : Sits s (actForgetVehicle st tag s).1 := by
  unfold actForgetVehicle unlessFails
  repeat' split
  all_goals exact ⟨rfl, rfl⟩

theorem actSetIntakeSettings_keeps (x : IntakeSetting) : Keeps P s (actSetIntakeSettings st x s).1 := by
  refine .unlessFails fun _ => Sits.keeps ?_
  show Sits s (s.setIntake x)
  unfold State.setIntake
  dsimp only
  split
  · exact Sits.trans ⟨rfl, rfl⟩ (expireOverdue_expiry { s with settings := _ }).sits
  · exact ⟨rfl, rfl⟩

theorem ticketExpiry_sits (n : Nat) : Sits s (match s.ticket? n with | some t => s.expireTicket t | none => s) := by
  split
  · exact (expireTicket_expiry s _).1.sits
  · exact .refl s

end Tickets

end Sys2Proof.Machine
end

section
/-! PROOFS. The dryer's own requests and timers keep its law, and so do flow reports (R86 to R99, R119). -/

namespace Sys2Proof.Machine

section Dryer
variable {P : Prop} {s : State}

/-- A record of the dryer that the requests of The Dryer write, before and after in other states than DISCHARGING. -/
theorem DryerStands.record (h : DryerStands P False s) (hs : s.dryer.state ≠ .discharging) {d : Dryer} (ha : d.agrees)
    (hd : d.discharge = s.dryer.discharge) (hn : d.state ≠ .discharging) : DryerStands P False (s.setDryer d) :=
  h.idle rfl ha (h.undischarged hs) hd hn

/-- A change of the dryer's timers and of its pending stop. -/
theorem DryerStands.timed (h : DryerStands P False s) (stop : Bool) (warmUp : Option Nat) (timer : Option DryingTimer) :
    DryerStands P False (s.setDryer { s.dryer with stopPending := stop, warmUp := warmUp, drying := timer }) :=
  h.redo rfl h.agrees rfl rfl Iff.rfl

end Dryer

section Requests
variable {P : Prop} (st : StationNo) (s : State)

theorem actStartDryer_keeps (x : Unit) : Keeps P s (actStartDryer st x s).1 := by
  have cleared : Keeps P s (if s.dryer.stopPending then accept [] (s.setDryer { s.dryer with stopPending := false })
      else refuse .state s).1 := by
    split
    · exact fun h => h.timed false _ _
    · exact .refl s
  refine .unlessFails fun _ => ?_
  split
  · next hs =>
    refine .unlessFails fun hc h => h.record (by rw [hs]; exact nofun) ((Dryer.agrees_warming rfl).2 ?_) rfl nofun
    simpa using hc
  · exact cleared
  · exact cleared
  · exact cleared
  all_goals exact .refl s

theorem actStopDryer_keeps (x : Unit) : Keeps P s (actStopDryer st x s).1 := by
  have pending : Keeps P s (s.setDryer { s.dryer with stopPending := true }) := fun h => h.timed true _ _
  have emptied {d : Dryer} (hb : d.batch = none) (ho : d.state = .off) : d.agrees := by
    rw [Dryer.agrees_off ho, hb]; exact nofun
  unfold actStopDryer
  split
  · exact .refl s
  · next hs =>
    split
    · exact .refl s
    · next hr =>
      refine fun h => h.record (by rw [hs]; exact nofun) (emptied ?_ rfl) rfl nofun
      have ha := (Dryer.agrees_warming hs).1 h.agrees
      rwa [if_neg hr] at ha
  · next hs =>
    exact fun h => h.record (by rw [hs]; exact nofun) (emptied ((Dryer.agrees_ready hs).1 h.agrees) rfl) rfl nofun
  · exact pending
  · exact pending
  · exact pending
  all_goals exact .refl s

theorem actSuspendDryer_keeps (x : Unit) : Keeps P s (actSuspendDryer st x s).1 := by
  refine .unlessFails fun hc h => ?_
  have hs : s.dryer.state = .drying := by simpa using hc
  obtain ⟨b, hb, -⟩ := (Dryer.agrees_drying hs).1 h.agrees
  exact h.record (by rw [hs]; exact nofun) ((Dryer.agrees_suspended rfl).2 (Option.isSome_iff_exists.2 ⟨b, hb⟩)) rfl nofun

/-- A discharge that a request tries has a DRIED batch (R93, R97). -/
theorem DryerStands.dischargeNow {s : State} (h : DryerStands P False s) (stop : Bool)
    (hs : s.dryer.state ≠ .discharging) (hb : ∃ b, s.dryer.batch = some b ∧ b.phase = .dried) :
    DryerStands P False (s.dischargeNow stop).1 :=
  DryerStands.tryDischarge (h.record hs ((Dryer.agrees_dried (.inl rfl)).2 hb) rfl nofun) rfl

theorem actDischarge_keeps (x : Unit) : Keeps P s (actDischarge st x s).1 := by
  unfold actDischarge
  split
  · next hs =>
    exact fun h => h.dischargeNow _ (by rw [hs]; exact nofun) ((Dryer.agrees_dried (.inl hs)).1 h.agrees)
  · next hs =>
    split
    · next hb =>
      obtain ⟨b, hb⟩ := Option.isSome_iff_exists.1 hb
      exact fun h => h.dischargeNow _ (by rw [hs]; exact nofun) ⟨b, hb, (Dryer.agrees_off hs).1 h.agrees b hb⟩
    · exact .refl s
  · exact .refl s

theorem actResumeDryer_keeps (x : Unit) : Keeps P s (actResumeDryer st x s).1 := by
  unfold actResumeDryer
  split
  · next b hs hb =>
    have hn : s.dryer.state ≠ .discharging := by rw [hs]; exact nofun
    split
    · exact .refl s
    · split
      · next hp => exact fun h => h.record hn ((Dryer.agrees_warming rfl).2 ⟨b, hb, hp⟩) rfl nofun
      · next hp => exact fun h => h.dischargeNow _ hn ⟨b, hb, hp⟩
  · exact .refl s

/-- A charge writes the batch and the state alone of the dryer's record, but for its drying timer (R89). -/
theorem charge_dryer (c : Charge) (tank dest : BinNo) (i : Identity) :
    ∃ b timer, (s.charge c tank dest i).dryer = { s.dryer with state := .drying, drying := timer, batch := some b } ∧
      b.phase = .wet := by
  unfold State.charge
  extract_lets plan need r s1 s2
  have hd : s2.dryer = s.dryer := by unfold s2 s1 r; rw [reserve_frame, foldl_modLot_frame, draw_frame]
  have put (d e : Dryer) (h : d = e) (t : Option DryingTimer) (b : Option Batch) :
      ({ d with state := .drying, drying := t, batch := b } : Dryer) =
        { e with state := .drying, drying := t, batch := b } := by rw [h]
  refine ⟨_, _, put _ _ hd _ (some _), ?_⟩
  rfl

theorem charge_keeps (c : Charge) (tank dest : BinNo) (i : Identity) (hs : s.dryer.state = .ready) :
    Keeps P s (s.charge c tank dest i) := by
  intro h
  obtain ⟨b, timer, hd, hb⟩ := charge_dryer s c tank dest i
  refine h.idle (State.trips_congr (charge_untouched c tank dest i).1) ?_ (h.undischarged (by rw [hs]; exact nofun)) ?_ ?_
    <;> rw [hd]
  · exact (Dryer.agrees_drying rfl).2 ⟨b, rfl, hb⟩
  · exact nofun

theorem actChargeBatch_keeps (c : Charge) : Keeps P s (actChargeBatch st c s).1 := by
  unfold actChargeBatch
  split
  · exact .refl s
  · split
    · refine .unlessFails fun hc => ?_
      dsimp only
      split
      · have hr := hc (s.dryer.state != .ready, .state) (by simp [State.chargeChecks])
        exact charge_keeps s c _ _ _ (by simpa using hr)
      · exact .refl s
    · exact .refl s

theorem actBatchDried_keeps (outlet : Nat) : Keeps P s (actBatchDried st outlet s).1 := by
  unfold actBatchDried
  split
  · next b hs hb =>
    intro h
    refine DryerStands.tryDischarge (h.idle (State.trips_congr (dryBatch_untouched b _).1) ?_
      (h.undischarged (by rw [hs]; exact nofun)) ?_ ?_) ?_ <;> rw [dryBatch_eq]
    · exact (Dryer.agrees_dried (.inl rfl)).2 ⟨_, rfl, rfl⟩
    · rfl
    · exact nofun
    · rfl
  · exact .refl s

/-- A fault ends the dryer's discharge wherever it stands (R98). -/
theorem faultDryer_stands (tied : P → Tied s.trips s.dryer) : DryerStands P False s.faultDryer := by
  have faulted : DryerStands P True ((s.setDryer { s.dryer with
      state := .fault, warmUp := none, returnMark := false, autoDischarge := false }).raise flagDryerFault) :=
    ⟨Dryer.agrees_fault rfl, fun hp => (tied hp).redo rfl rfl, fun _ _ => .inr trivial, fun _ => nofun⟩
  refine faulted.endTransfers _ fun hp _ p y hy ho => ?_
  obtain ⟨x, hx, rfl⟩ := State.slot_of_trips hy
  have hd : s.dryer.discharge = some x.id := ((tied hp).named p x.trip hy).1 ho
  refine ⟨{ leg := p.1, slot := p.2, reason := .aborted }, ?_, rfl⟩
  unfold State.dischargeVictims
  split
  · next id e =>
    have hid : x.id = id := Option.some.inj (hd.symm.trans e)
    exact (State.mem_victims _).2 ⟨p.1, p.2, x, hx, by simpa using hid, rfl⟩
  · next e => cases hd.symm.trans e

theorem faultDryer_keeps : Keeps P s s.faultDryer := fun h => faultDryer_stands s h.tied

theorem actDryerFault_keeps (x : Unit) : Keeps P s (actDryerFault st x s).1 := by
  unfold actDryerFault
  split
  · exact .refl s
  · exact (Sits.raise s _).keeps
  · exact faultDryer_keeps s

theorem actClearDryerFault_keeps (x : Unit) : Keeps P s (actClearDryerFault st x s).1 := by
  refine .unlessFails fun hc => ?_
  have hs : s.dryer.state ≠ .discharging := by
    have : s.dryer.state = .fault := by simpa using hc
    rw [this]; exact nofun
  show Keeps P s (s.setDryer _)
  split
  · next hb => exact fun h => h.record hs ((Dryer.agrees_suspended rfl).2 hb) rfl nofun
  · next hb =>
    refine fun h => h.record hs ((Dryer.agrees_off rfl).2 fun b e => ?_) rfl nofun
    exact absurd (Option.isSome_iff_exists.2 ⟨b, e⟩) hb

theorem actSetDryerSettings_sits (x : DryerSetting) : Sits s (actSetDryerSettings st x s).1 := by
  unfold actSetDryerSettings unlessFails
  split <;> exact ⟨rfl, rfl⟩

theorem warmUpExpired_keeps : Keeps P s s.warmUpExpired := by
  intro h
  unfold State.warmUpExpired
  split
  · next hc =>
    have hn : s.dryer.state ≠ .discharging := by rw [hc.1]; exact nofun
    have ha := (Dryer.agrees_warming hc.1).1 h.agrees
    split
    · next hr =>
      rw [if_pos hr] at ha
      exact h.record hn ((Dryer.agrees_drying rfl).2 ha) rfl nofun
    · next hr =>
      rw [if_neg hr] at ha
      exact (h.record (d := { s.dryer with state := .ready, warmUp := none }) hn ((Dryer.agrees_ready rfl).2 ha) rfl
        nofun).sits (.raise _ _)
  · exact h

theorem dryingExpired_keeps : Keeps P s s.dryingExpired := by
  intro h
  unfold State.dryingExpired
  split
  · split
    · exact h
    · exact (h.timed _ _ (some { remaining := 0, expired := true })).sits (.raise _ _)
  · exact h

end Requests

/-! ### Flow reports -/

section Flow
variable {P : Prop} {s u : State}

/-- What the pieces of a report leave of the dryer: the batch's destination and phase, and the record around it. -/
def Drawn (s u : State) : Prop :=
  u.legs = s.legs ∧ u.dryer = { s.dryer with batch := u.dryer.batch } ∧
    u.dryer.batch.map (fun b => (b.dest, b.phase)) = s.dryer.batch.map fun b => (b.dest, b.phase)

theorem Drawn.refl (s : State) : Drawn s s := ⟨rfl, rfl, rfl⟩

theorem Drawn.trans {v : State} (h : Drawn s u) (k : Drawn u v) : Drawn s v := by
  obtain ⟨h1, h2, h3⟩ := h
  obtain ⟨k1, k2, k3⟩ := k
  exact ⟨k1.trans h1, by rw [k2, h2], k3.trans h3⟩

theorem Drawn.of_same (h : u.legs = s.legs) (k : u.dryer = s.dryer) : Drawn s u := ⟨h, by rw [k], by rw [k]⟩

theorem drawPortion_drawn (s : State) (x : Nat) : Drawn s (s.drawPortion x) := by
  unfold State.drawPortion
  split
  · exact .refl s
  · next b hb =>
    split
    · exact .refl s
    · split <;> exact ⟨rfl, rfl, by rw [hb]; rfl⟩

theorem takePiece_drawn (s : State) (t : Transfer) (x : Nat) : Drawn s (s.takePiece t x) := by
  refine ⟨(takePiece_untouched s t x).1, ?_⟩
  unfold State.takePiece
  split
  · exact (drawPortion_drawn s x).2
  · next b _ =>
    have hd : (s.draw b x).2.dryer = s.dryer := by rw [draw_frame]
    dsimp only
    split
    · rw [State.returnSlots_dryer, hd]; exact ⟨rfl, rfl⟩
    · rw [hd]; exact ⟨rfl, rfl⟩

theorem movePiece_drawn {t : Transfer} {p : Portion} {x : Nat} (h : s.movePiece t p x = some u) : Drawn s u := by
  have ht := takePiece_drawn s t x
  unfold State.movePiece at h
  dsimp only at h
  split at h
  · split at h
    · cases h
    · cases h
      exact ht.trans (.of_same (by rw [loadPiece_frame]) (by rw [loadPiece_frame]))
  · obtain ⟨v, hv, rfl⟩ := Option.map_eq_some_iff.1 h
    exact (ht.trans (.of_same (deposit_untouched _ hv).1 (deposit_expiry hv).sits.2)).trans
      (.of_same rfl rfl)

theorem movePieces_drawn (t : Transfer) (rounds movable : Nat) (s : State) : Drawn s (s.movePieces t rounds movable).2 :=
  movePieces_induction (R := fun _ s u => Drawn s u) .refl (fun _ _ _ _ _ _ _ _ _ h1 _ hr => (movePiece_drawn h1).trans hr)
    rounds movable s

theorem DryerStands.drawn (h : DryerStands P False s) (k : Drawn s u) : DryerStands P False u := by
  obtain ⟨k1, k2, k3⟩ := k
  refine h.redo (State.trips_congr k1) ?_ (by rw [k2]) ?_ (by rw [k2])
  · have h1 := h.agrees
    rw [k2]
    unfold Dryer.agrees at h1 ⊢
    dsimp only
    cases hs : s.dryer.batch <;> cases hu : u.dryer.batch <;> rw [hs, hu] at k3 <;> simp_all
  · have := congrArg (Option.map fun p : BinNo × Phase => Dest.bin p.1) k3
    rw [Option.map_map, Option.map_map] at this
    exact this

theorem moveReport_keeps {l : LegNo} {t : Transfer} (ha : (s.leg l).active = some t) (kg : Nat) :
    Keeps P s (s.moveReport l t kg).2 := by
  intro h
  unfold State.moveReport
  extract_lets movable r t1 old
  have hr : Drawn s r.2 := movePieces_drawn t _ _ s
  have hl : r.2.leg l = s.leg l := by unfold State.leg; rw [hr.1]
  refine ((h.drawn hr).sits (.setLeg r.2 l fun k => ?_)).sits (.raiseIf _ _ _)
  cases k with
  | active => rw [hl]; exact (congrArg (Option.map Transfer.trip) ha).symm
  | buffered => rfl
  | suspended => rfl

theorem overdraftCheck_sits (s : State) (k : BerthNo) (live : Bool) : Sits s (s.overdraftCheck k live) := by
  unfold State.overdraftCheck
  dsimp only
  split
  · have h1 : Sits s ((s.setBerth k { s.berth k with overLimit := true }).raiseIf (!(s.berth k).overLimit)
      (flagOverdraft k)) := (Sits.setBerth s k _).trans (.raiseIf _ _ _)
    split
    · exact h1.trans (.setBerth _ _ _)
    · exact h1
  · exact .refl s

theorem closeReport_keeps (s : State) (l : LegNo) (t : Transfer) (reason : Option EndReason) :
    Keeps P s (s.closeReport l t reason) := by
  unfold State.closeReport
  extract_lets s1
  have h1 : Sits s s1 := by
    unfold s1; split
    · exact overdraftCheck_sits s _ _
    · exact .refl s
  split
  · exact h1.ends _
  · exact h1.keeps

theorem flowReport_keeps {l : LegNo} {t : Transfer} (ha : (s.leg l).active = some t) (kg : Nat) :
    Keeps P s (s.flowReport l t kg).1 := by
  rw [flowReport_eq]
  exact (moveReport_keeps ha kg).trans (closeReport_keeps _ _ _ _)

end Flow

end Sys2Proof.Machine
end

section
/-! PROOFS. The dryer's law through the requests of the legs, the schedules, the berths and the part, through the lines,
the starts and the clock, and so through every step. -/

namespace Sys2Proof.Machine

/-! ### Legs and schedules -/

section Legs
variable {P : Prop} (st : StationNo) (s : State)

theorem setStaging_sits (l : LegNo) (x : Option Staging) : Sits s (s.setLeg l { s.leg l with staging := x }) :=
  .setLeg s l fun k => by cases k <;> rfl

theorem actStageTransfer_keeps (r : StageRequest) : Keeps P s (actStageTransfer st r s).1 := by
  unfold actStageTransfer
  split
  · exact .refl s
  · split
    · exact .refl s
    · refine .unlessFails fun _ => ?_
      split
      · exact (setStaging_sits s _ _).keeps
      · exact (Sits.raise s _).keeps

theorem actLaunch_keeps (n : Nat) : Keeps P s (actLaunch st n s).1 := by
  unfold actLaunch
  split
  · exact .refl s
  · split
    · exact (Sits.raise s _).keeps
    · exact .unlessFails fun _ h => h.launchStaged _ _

theorem actWithdrawStaging_keeps (n : Nat) : Keeps P s (actWithdrawStaging st n s).1 := by
  unfold actWithdrawStaging
  split
  · exact .refl s
  · exact .unlessFails fun _ => (setStaging_sits s _ _).keeps

theorem actFlowReport_keeps (q : Nat × Nat) : Keeps P s (actFlowReport st q s).1 := by
  unfold actFlowReport
  split
  · exact .refl s
  · split
    · exact .refl s
    · split
      · exact .refl s
      · next ht => exact flowReport_keeps (Option.filter_eq_some_iff.1 ht).1 _

theorem actAbortTransfer_keeps (q : Nat × Slot) : Keeps P s (actAbortTransfer st q s).1 := by
  unfold actAbortTransfer
  split
  · exact .refl s
  · split
    · exact .refl s
    · exact .accept ((Sits.refl s).ends _)

theorem actClearLegFlags_sits (n : Nat) : Sits s (actClearLegFlags st n s).1 := by
  unfold actClearLegFlags unlessFails
  repeat' split
  all_goals exact ⟨rfl, rfl⟩

theorem actMarkLegClean_keeps (n : Nat) : Keeps P s (actMarkLegClean st n s).1 := by
  unfold actMarkLegClean
  split
  · exact .refl s
  · exact .unlessFails fun _ => Sits.keeps (.setLeg s _ fun k => by cases k <;> rfl)

theorem actSetLegSettings_sits (q : Nat × Nat) : Sits s (actSetLegSettings st q s).1 := by
  unfold actSetLegSettings unlessFails
  repeat' split
  all_goals exact ⟨rfl, rfl⟩

/-- The cleanout's end changes the state of a transfer alone (R116). -/
theorem cleanoutDone_sits (l : LegNo) : Sits s (s.cleanoutDone l) := by
  unfold State.cleanoutDone
  dsimp only
  split
  · next x hx =>
    split
    · refine .setLeg s l fun k => ?_
      cases k with
      | active => exact (congrArg (Option.map Transfer.trip) hx).symm
      | buffered => rfl
      | suspended => rfl
    · exact .refl s
  · exact .refl s

theorem reportTemperature_keeps (b : BinNo) (z : Int) : Keeps P s (s.reportTemperature b z) := by
  have read : Sits s ((s.takeReading b z).freshen b) := by
    refine Untouched.sits (((setBin_untouched s b _).trans (evaluateHot_untouched _ b)).trans (setBin_untouched _ _ _)) ?_
    exact evaluateHot_dryer _ b
  unfold State.reportTemperature
  dsimp only
  split
  · exact read.examined
  · exact read.keeps

theorem actTemperatureReport_keeps (q : Nat × Int) : Keeps P s (actTemperatureReport st q s).1 := by
  unfold actTemperatureReport
  split
  · exact .refl s
  · exact reportTemperature_keeps s _ _

theorem staleExpired_keeps (b : BinNo) : Keeps P s (s.staleExpired b) := by
  unfold State.staleExpired
  dsimp only
  split
  · exact Sits.examined ⟨rfl, rfl⟩
  · exact .refl s

theorem actSetSchedule_keeps (r : ScheduleRequest) : Keeps P s (actSetSchedule st r s).1 := by
  unfold actSetSchedule
  split
  · exact .refl s
  · split
    · exact .unlessFails fun _ => .accept (Sits.examined (t := s.setEntry _ _) ⟨rfl, rfl⟩)
    · exact .refl s

theorem endSchedule_keeps (n : EntryNo) (e : Entry) (abort : Bool) : Keeps P s (s.endSchedule n e abort) := by
  unfold State.endSchedule
  extract_lets s1
  have h1 : Sits s s1 := by
    unfold s1; split
    · exact .refl s
    · exact (endEntry_untouched s _ _).sits (endEntry_dryer s _ _)
  split
  · exact h1.ends _
  · exact h1.keeps

theorem actEndSchedule_keeps (q : Nat × Bool) : Keeps P s (actEndSchedule st q s).1 := by
  unfold actEndSchedule
  split
  · exact .refl s
  · split
    · exact .refl s
    · exact endSchedule_keeps s _ _ _

theorem actSetRotationSettings_sits (x : RotationSetting) : Sits s (actSetRotationSettings st x s).1 := by
  unfold actSetRotationSettings unlessFails
  split <;> exact ⟨rfl, rfl⟩

end Legs

/-! ### Berths and the river -/

section Berths
variable {P : Prop} (st : StationNo) (s : State) (k : BerthNo)

theorem settleReady_sits : Sits s (s.settleReady k) := .setBerth s k _

theorem completionTest_sits : Sits s (s.completionTest k) :=
  .of_legs (completionTest_legs s k) (completionTest_aside s k).dryer

theorem recomputeLimit_sits : Sits s (s.recomputeLimit k) :=
  .of_legs (recomputeLimit_legs s k) (recomputeLimit_aside s k).dryer

theorem Sits.recomputed {s t : State} (h : Sits s t) : Keeps P s t.recomputeLimits := by
  have limited : Sits t (allBerths.foldl (fun t k => t.recomputeLimit k) t) := .foldl recomputeLimit_sits _ t
  exact (h.trans limited).ends _

theorem orderChanged_sits : Sits s (s.orderChanged k) := by
  unfold State.orderChanged
  dsimp only
  split
  · split
    · exact .refl s
    · exact .setBerth s k _
  · exact settleReady_sits s k

theorem conditionChanged_keeps (lost : Bool) (cause : HaltCause) : Keeps P s (s.conditionChanged k lost cause) := by
  unfold State.conditionChanged State.haltLoading
  split
  · exact (Sits.setBerth s k _).ends _
  · exact (settleReady_sits s k).keeps

theorem actAcceptBarge_keeps (q : Nat × Barge) : Keeps P s (actAcceptBarge st q s).1 := by
  unfold actAcceptBarge
  split
  · exact .refl s
  · exact .unlessFails fun _ => ((Sits.setBerth s _ _).trans (recomputeLimit_sits _ _)).keeps

theorem actSetLoadOrder_keeps (r : OrderRequest) : Keeps P s (actSetLoadOrder st r s).1 := by
  unfold actSetLoadOrder
  split
  · exact .refl s
  · split
    · exact .refl s
    · exact .unlessFails fun _ => ((Sits.setBerth s _ _).trans (orderChanged_sits _ _)).keeps

theorem actSetPositionPlan_keeps (q : Nat × List Nat) : Keeps P s (actSetPositionPlan st q s).1 := by
  unfold actSetPositionPlan
  split
  · exact .refl s
  · exact .unlessFails fun _ => ((Sits.setBerth s _ _).trans (orderChanged_sits _ _)).keeps

theorem actSetBerthEnable_keeps (q : Nat × Bool) : Keeps P s (actSetBerthEnable st q s).1 := by
  unfold actSetBerthEnable
  split
  · exact .refl s
  · exact (Sits.setBerth s _ _).keeps.trans (conditionChanged_keeps _ _ _ _)

theorem actSetSpoutPosition_keeps (c : SpoutCommand) : Keeps P s (actSetSpoutPosition st c s).1 := by
  unfold actSetSpoutPosition
  split
  · exact .refl s
  · exact .unlessFails fun _ => ((Sits.setBerth s _ _).trans (settleReady_sits _ _)).keeps

theorem actSpoutArrived_keeps (q : Nat × Nat) : Keeps P s (actSpoutArrived st q s).1 := by
  unfold actSpoutArrived
  split
  · exact .refl s
  · exact .unlessFails fun _ => (((Sits.setBerth s _ _).trans (.raiseIf _ _ _)).trans (settleReady_sits _ _)).keeps

theorem spoutExpired_sits : Sits s (s.spoutExpired k) := by
  unfold State.spoutExpired
  dsimp only
  split
  · exact ((Sits.setBerth s k _).trans (.raise _ _)).trans (settleReady_sits _ k)
  · exact .refl s

theorem actResumeBerth_keeps (n : Nat) : Keeps P s (actResumeBerth st n s).1 := by
  unfold actResumeBerth
  split
  · exact .refl s
  · exact .unlessFails fun _ => (completionTest_sits s _).keeps

theorem actReleaseBarge_keeps (n : Nat) : Keeps P s (actReleaseBarge st n s).1 := by
  unfold actReleaseBarge
  split
  · exact .refl s
  · refine .unlessFails fun _ => Sits.keeps ?_
    show Sits s (s.releaseBarge _)
    unfold State.releaseBarge
    dsimp only
    rw [foldl_modLot_frame]
    exact ⟨rfl, rfl⟩

theorem actStageReading_keeps (z : Int) : Keeps P s (actStageReading st z s).1 := by
  show Keeps P s (s.readStage z)
  unfold State.readStage
  exact Sits.recomputed ⟨rfl, rfl⟩

theorem riverExpired_keeps : Keeps P s s.riverExpired := by
  unfold State.riverExpired
  split
  · exact Sits.recomputed ⟨rfl, rfl⟩
  · exact .refl s

theorem actSetRiverSettings_keeps (x : RiverSetting) : Keeps P s (actSetRiverSettings st x s).1 := by
  refine .unlessFails fun _ => ?_
  show Keeps P s (s.setRiver x)
  have set (y : RiverSettings) : Sits s { s with settings := { s.settings with river := y } } := ⟨rfl, rfl⟩
  cases x with
  | staleTime n => exact (set _).keeps
  | channelDepth n | clearance n | staleMargin n => exact (set _).recomputed

theorem presentChanged_keeps (level : Bool) : Keeps P s (s.presentChanged k level) := by
  unfold State.presentChanged
  split
  · exact .refl s
  · exact ((Sits.setBerth s k _).trans (.raise _ _)).keeps.trans (conditionChanged_keeps _ k _ _)

theorem mooredChanged_keeps (level : Bool) : Keeps P s (s.mooredChanged k level) := by
  unfold State.mooredChanged
  split
  · exact .refl s
  · exact ((Sits.setBerth s k _).trans (.raise _ _)).keeps.trans (conditionChanged_keeps _ k _ _)

theorem buttonPressed_sits : Sits s (s.buttonPressed k) := by
  unfold State.buttonPressed
  split <;> exact ⟨rfl, rfl⟩

end Berths

/-! ### Stations, events, settings and time -/

section System
variable {P : Prop} (st : StationNo) (s : State)

theorem dropStagings_sits (n : StationNo) : Sits s (s.dropStagings n) := by
  refine .foldl (fun u l => ?_) _ s
  split
  · exact setStaging_sits u l none
  · exact .refl u

theorem actSetStation_keeps (q : Nat × Station) : Keeps P s (actSetStation st q s).1 := by
  unfold actSetStation
  split
  · exact .refl s
  · refine .unlessFails fun _ => Sits.keeps ?_
    simp only [accept]
    split
    · exact Sits.trans (t := s.setStation _ q.2) ⟨rfl, rfl⟩ (dropStagings_sits _ _)
    · exact ⟨rfl, rfl⟩

theorem actClearEvents_sits (q : Nat × BitVec 16) : Sits s (actClearEvents st q s).1 := by
  unfold actClearEvents
  split <;> exact ⟨rfl, rfl⟩

theorem actSetEventEnables_sits (q : Nat × BitVec 16) : Sits s (actSetEventEnables st q s).1 := by
  unfold actSetEventEnables
  split <;> exact ⟨rfl, rfl⟩

theorem actCommitSettings_sits (x : Unit) : Sits s (actCommitSettings st x s).1 := by
  unfold actCommitSettings unlessFails
  split <;> exact ⟨rfl, rfl⟩

theorem actResetPart_sits (x : Unit) : Sits s (actResetPart st x s).1 := by
  unfold actResetPart unlessFails
  split <;> exact ⟨rfl, rfl⟩

theorem setBank_sits (b : Fin 2) (x : Bank) : Sits s (s.setBank b x) := by
  rw [State.setBank_frame]; exact ⟨rfl, rfl⟩

theorem commitEnds_sits : Sits s s.commitEnds := by
  unfold State.commitEnds
  split
  · exact .refl s
  · exact (setBank_sits s _ _).trans ⟨rfl, rfl⟩

theorem commitFails_sits : Sits s s.commitFails := by
  unfold State.commitFails
  split
  · exact .refl s
  · exact (setBank_sits s _ _).trans ⟨rfl, rfl⟩

/-! ### Lines, starts and the clock -/

theorem stopLegs_sits : Sits s s.stopLegs :=
  .foldl (fun u l => (Sits.setLeg u l fun k => by cases k <;> rfl).trans (.raiseIf _ _ _)) _ s

/-- ESTOP leaves a dryer that agrees with its batch, and no discharge begun or ended (R96). -/
theorem Dryer.stopped_agrees {d : Dryer} (h : d.agrees) :
    d.stopped.agrees ∧ d.stopped.discharge = d.discharge ∧ d.stopped.batch = d.batch ∧
      (d.stopped.state = .discharging ↔ d.state = .discharging) := by
  unfold Dryer.stopped
  cases hs : d.state with
  | drying =>
    obtain ⟨b, hb, -⟩ := (Dryer.agrees_drying hs).1 h
    exact ⟨(Dryer.agrees_suspended rfl).2 (Option.isSome_iff_exists.2 ⟨b, hb⟩), rfl, rfl, nofun, nofun⟩
  | warming =>
    have hw := (Dryer.agrees_warming hs).1 h
    cases hr : d.returnMark <;> rw [hr] at hw
    · exact ⟨(Dryer.agrees_off rfl).2 fun b e => (by cases hw.symm.trans e), rfl, rfl, nofun, nofun⟩
    · obtain ⟨b, hb, -⟩ := hw
      exact ⟨(Dryer.agrees_suspended rfl).2 (Option.isSome_iff_exists.2 ⟨b, hb⟩), rfl, rfl, nofun, nofun⟩
  | ready =>
    have hb := (Dryer.agrees_ready hs).1 h
    exact ⟨(Dryer.agrees_off rfl).2 fun b e => (by cases hb.symm.trans e), rfl, rfl, nofun, nofun⟩
  | off | dischargeWait | discharging | suspended | fault => exact ⟨h, rfl, rfl, by rw [hs]⟩

theorem assertEstop_keeps : Keeps P s s.assertEstop := by
  unfold State.assertEstop
  split
  · exact .refl s
  · intro h
    obtain ⟨ha, hd, hb, hs⟩ := Dryer.stopped_agrees h.agrees
    have h0 : DryerStands P False { s with estop := true, dryer := s.dryer.stopped } :=
      h.redo rfl ha hd (congrArg _ hb) hs
    exact (stopLegs_sits _).ends _ h0

theorem loadedUp_sits : Sits s s.loadedUp := by rw [loadedUp_frame]; exact ⟨rfl, rfl⟩

theorem losePower_sits : Sits s s.losePower := by rw [losePower_frame]; exact ⟨rfl, rfl⟩

/-- With every slot empty the dryer has no discharge. -/
theorem DryerStands.emptied {s : State} (h : DryerStands P False s) (he : ∀ l k, (s.leg l).slot k = none) (hp : P) :
    s.dryer.discharge = none :=
  (h.tied hp).unnamed fun p y hy => by
    obtain ⟨x, hx, -⟩ := State.slot_of_trips hy
    rw [he] at hx; cases hx

/-- Ends leave the dryer with the batch it had, or with none (R95). -/
theorem resetTransfers_batch : s.resetTransfers.dryer.batch = none ∨ s.resetTransfers.dryer.batch = s.dryer.batch := by
  refine resetTransfers_induction (P := fun u => u.dryer.batch = none ∨ u.dryer.batch = s.dryer.batch)
    (fun u l k hu => ?_) (.inr rfl)
  cases hx : (u.leg l).slot k with
  | none => rw [endSlot_empty u _ hx]; exact hu
  | some x =>
    rw [endSlot_dryer_eq u .reset hx]
    split
    · show u.dryer.batch.filter _ = none ∨ u.dryer.batch.filter _ = s.dryer.batch
      rcases hu with e | e <;> rw [e]
      · exact .inl rfl
      · cases s.dryer.batch with
        | none => exact .inl rfl
        | some b =>
          cases hp : (b.portions != [])
          · exact .inl (by simp [Option.filter, hp])
          · exact .inr (by simp [Option.filter, hp])
    · exact hu

/-- The state a warm start gives the dryer agrees with the batch that is left (R102). -/
theorem Dryer.warm_agrees {d e : Dryer} (h : d.agrees) (hb : e.batch = none ∨ e.batch = d.batch)
    (he : e.state = warmDryerState d e.batch) : e.agrees := by
  unfold warmDryerState at he
  have off (ho : e.state = .off) (hd : ∀ b, d.batch = some b → b.phase = .dried) : e.agrees := by
    refine (Dryer.agrees_off ho).2 fun b hb' => ?_
    rcases hb with hb | hb
    · cases hb.symm.trans hb'
    · exact hd b (hb.symm.trans hb')
  have gone (ho : e.state = .off) (hn : e.batch = none) : e.agrees :=
    (Dryer.agrees_off ho).2 fun b hb' => by cases hn.symm.trans hb'
  cases hs : d.state with
  | off => rw [hs] at he; exact off he ((Dryer.agrees_off hs).1 h)
  | ready =>
    rw [hs] at he
    exact off he fun b e => by cases ((Dryer.agrees_ready hs).1 h).symm.trans e
  | dischargeWait | discharging =>
    rw [hs] at he
    obtain ⟨c, hc, hp⟩ := (Dryer.agrees_dried (by rw [hs]; simp)).1 h
    exact off he fun b e => by cases hc.symm.trans e; exact hp
  | fault => rw [hs] at he; exact Dryer.agrees_fault he
  | drying | suspended =>
    rw [hs] at he
    cases hn : e.batch with
    | none => exact gone (by rw [he, hn]; rfl) hn
    | some b => exact (Dryer.agrees_suspended (by rw [he, hn]; rfl)).2 (by rw [hn]; rfl)
  | warming =>
    rw [hs] at he
    have hw := (Dryer.agrees_warming hs).1 h
    cases hn : e.batch with
    | none => exact gone (by rw [he, hn]; simp) hn
    | some b =>
      cases hr : d.returnMark
      · rw [hr] at hw
        exact off (by rw [he, hr]; rfl) fun b e => by cases hw.symm.trans e
      · exact (Dryer.agrees_suspended (by rw [he, hn, hr]; rfl)).2 (by rw [hn]; rfl)

theorem warmStart_keeps (p : Pins) : Keeps P s (s.warmStart p) := by
  intro h
  have ended : DryerStands P False s.loadedUp.resetTransfers :=
    resetTransfers_induction (fun u l k hu => hu.endSlot l k .reset) (h.sits (loadedUp_sits s))
  have hd : (s.beforeExamination p).dryer = { s.loadedUp.resetTransfers.dryer with
      state := warmDryerState s.dryer s.loadedUp.resetTransfers.dryer.batch, returnMark := false, autoDischarge := false
      stopPending := false, warmUp := none } := by
    rw [← (warmStart_examined s p).dryer, warmStart_dryer]
  have hbatch := resetTransfers_batch s.loadedUp
  rw [loadedUp_dryer] at hbatch
  have hT (q : LegNo × Slot) : (s.beforeExamination p).trips q = s.loadedUp.resetTransfers.trips q := by
    unfold State.trips; rw [beforeExamination_slot, resetTransfers_slot]
  rw [warmStart_eq]
  refine DryerStands.examine (ended.idle (funext hT) ?_ (ended.emptied (resetTransfers_slot _)) ?_ ?_) <;> rw [hd]
  · exact Dryer.warm_agrees h.agrees hbatch rfl
  · dsimp only
    rcases warmDryerState_waits s.dryer s.loadedUp.resetTransfers.dryer.batch with e | e | e <;> rw [e] <;> exact nofun

theorem coldStart_keeps (p : Pins) : Keeps P s (s.coldStart p) := by
  intro _
  have hd : (s.coldStart p).dryer = State.reset.dryer := by rw [coldStart_frame]
  have hT (q : LegNo × Slot) : (s.coldStart p).trips q = none := by
    unfold State.trips State.leg
    rw [(coldStart_berth p 0).1]
    show Option.map _ ((State.reset.leg q.1).slot q.2) = none
    rw [State.reset_leg]
    cases q.2 <;> rfl
  refine ⟨?_, fun _ => .free (fun q x hx => by rw [hT] at hx; cases hx) ?_, fun _ hn => absurd ?_ hn, fun _ => ?_⟩ <;>
    rw [hd]
  · exact (Dryer.agrees_off rfl).2 nofun
  · rfl
  · rfl
  · exact nofun

theorem tick_keeps : Keeps P s s.tick := by
  intro h
  unfold State.tick
  split
  · have hT : s.countDown.trips = s.trips := by
      funext q
      unfold State.trips
      rw [countDown_leg, Leg.countDown_eq]
      cases q.2 with
      | active =>
        show Option.map _ (Option.map _ _) = _
        rw [Option.map_map]; rfl
      | buffered => rfl
      | suspended => rfl
    refine DryerStands.sits (s := s.countDown) (t := { s.countDown with pending := _ }) ?_ ⟨rfl, rfl⟩
    exact (h.timed s.dryer.stopPending s.dryer.countDown.warmUp s.dryer.countDown.drying).sits ⟨hT, rfl⟩
  · exact h.sits ⟨rfl, rfl⟩

end System
end Sys2Proof.Machine
end

section
/-! PROOFS. The dryer's law through every command and so through every step (The Dryer, the state table; R92, R95). -/

namespace Sys2Proof.Machine

/-- A command that keeps the dryer's law, with the port aside. -/
def KeepsDryer (P : Prop) (s : State) (r : Result) : Prop := ∃ t, r = .next t ∧ Keeps P s t

section Commands
variable {P : Prop}

theorem Keeps.result {s t : State} (h : Keeps P s t) : KeepsDryer P s (.next t) := ⟨t, rfl, h⟩

/-- A request whose block's answer keeps the law. -/
theorem KeepsDryer.serve {α : Type} {code : Byte} {cs : Classes} {decode : List Byte → Option α}
    {act : StationNo → α → State → State × Answer} {f : Frame} {s : State} (h : ∀ st a, Keeps P s (act st a s).1) :
    KeepsDryer P s (.next (Machine.serve code cs decode act f s)) := by
  refine Keeps.result ?_
  unfold Machine.serve
  split
  · have taken : Keeps P s (takeRequest cs decode act f s).1 := by
      unfold takeRequest
      split
      · exact .refl s
      · split
        · exact .refl s
        · split
          · exact .refl s
          · exact h _ _
    exact taken.trans (Sits.keeps ⟨rfl, rfl⟩)
  · exact .refl s

/-- A request whose block's answer leaves the dryer and the slots alone. -/
theorem KeepsDryer.sits {α : Type} {code : Byte} {cs : Classes} {decode : List Byte → Option α}
    {act : StationNo → α → State → State × Answer} {f : Frame} {s : State} (h : ∀ st a, Sits s (act st a s).1) :
    KeepsDryer P s (.next (Machine.serve code cs decode act f s)) := .serve fun st a => (h st a).keeps

/-- A read. -/
theorem KeepsDryer.read {α : Type} {code : Byte} {cs : Classes} {decode : List Byte → Option α}
    {act : StationNo → α → State → State × Answer} {f : Frame} {s : State} (h : ∀ st a, (act st a s).1 = s) :
    KeepsDryer P s (.next (Machine.serve code cs decode act f s)) := .sits fun st a => by rw [h]; exact .refl s

/-- An event, which main power off makes nothing of. -/
theorem KeepsDryer.whenPowered {s : State} {effect : State → State} (h : Keeps P s (effect s)) :
    KeepsDryer P s (.next (s.whenPowered effect)) := by
  unfold State.whenPowered
  split
  · exact h.result
  · exact (Keeps.refl s).result

/-- Every request with its code: a block's answer, or a read. -/
theorem execRequest_keeps {code : Byte} {f : Frame} {s : State} {r : Result} (h : execRequest code f s = some r) :
    KeepsDryer P s r := by
  unfold execRequest at h
  split at h <;> first | (obtain rfl := Option.some.inj h) | cases h
  · exact .read fun st a => actReadLot_fst st s a
  · exact .read fun st a => actFindLots_fst st s a
  · exact .sits fun st a => actCloseReceivingLot_sits st s a
  · exact .sits fun st a => actCloseIpLot_sits st s a
  · exact .sits fun st a => actSetLotHold_sits st s a
  · exact .sits fun st a => actClearLotHold_sits st s a
  · exact .sits fun st a => actAmendLot_sits st s a
  · exact .sits fun st a => actRetireLot_sits st s a
  · exact .read fun st a => actReadBin_fst st s a
  · exact .read fun st a => actReadLayers_fst st s a
  · exact .serve fun st a => actSetBinSettings_keeps st s a
  · exact .serve fun st a => actSetBinHold_keeps st s a
  · exact .serve fun st a => actClearBinHold_keeps st s a
  · exact .serve fun st a => actSweepClose_keeps st s a
  · exact .serve fun st a => actScaleSample_keeps st s a
  · exact .sits fun st a => actSetCalibration_sits st s a
  · exact .sits fun st a => actSetScaleParameters_sits st s a
  · exact .sits fun st a => actZeroScale_sits st s a
  · exact .serve fun st a => actWeighIn_keeps st s a
  · exact .serve fun st a => actGradeReport_keeps st s a
  · exact .serve fun st a => actAssignDump_keeps st s a
  · exact .serve fun st a => actDumpReport_keeps st s a
  · exact .serve fun st a => actWeighOut_keeps st s a
  · exact .serve fun st a => actVoidTicket_keeps st s a
  · exact .sits fun st a => actForgetVehicle_sits st s a
  · exact .serve fun st a => actSetIntakeSettings_keeps st s a
  · exact .read fun st a => actReadScale_fst st s a
  · exact .read fun st a => actReadVehicle_fst st s a
  · exact .read fun st a => actReadTicket_fst st s a
  · exact .read fun st a => actListTickets_fst st s a
  · exact .read fun _ _ => rfl
  · exact .serve fun st a => actStartDryer_keeps st s a
  · exact .serve fun st a => actStopDryer_keeps st s a
  · exact .serve fun st a => actChargeBatch_keeps st s a
  · exact .serve fun st a => actBatchDried_keeps st s a
  · exact .serve fun st a => actDischarge_keeps st s a
  · exact .serve fun st a => actSuspendDryer_keeps st s a
  · exact .serve fun st a => actResumeDryer_keeps st s a
  · exact .serve fun st a => actDryerFault_keeps st s a
  · exact .serve fun st a => actClearDryerFault_keeps st s a
  · exact .sits fun st a => actSetDryerSettings_sits st s a
  · exact .read fun _ _ => rfl
  · exact .serve fun st a => actStageTransfer_keeps st s a
  · exact .serve fun st a => actLaunch_keeps st s a
  · exact .serve fun st a => actWithdrawStaging_keeps st s a
  · exact .serve fun st a => actFlowReport_keeps st s a
  · exact .serve fun st a => actAbortTransfer_keeps st s a
  · exact .sits fun st a => actClearLegFlags_sits st s a
  · exact .serve fun st a => actMarkLegClean_keeps st s a
  · exact .sits fun st a => actSetLegSettings_sits st s a
  · exact .read fun st a => actReadLeg_fst st s a
  · exact .serve fun st a => actTemperatureReport_keeps st s a
  · exact .serve fun st a => actSetSchedule_keeps st s a
  · exact .serve fun st a => actEndSchedule_keeps st s a
  · exact .sits fun st a => actSetRotationSettings_sits st s a
  · exact .read fun _ _ => rfl
  · exact .serve fun st a => actAcceptBarge_keeps st s a
  · exact .serve fun st a => actSetLoadOrder_keeps st s a
  · exact .serve fun st a => actSetPositionPlan_keeps st s a
  · exact .serve fun st a => actSetBerthEnable_keeps st s a
  · exact .serve fun st a => actSetSpoutPosition_keeps st s a
  · exact .serve fun st a => actSpoutArrived_keeps st s a
  · exact .serve fun st a => actResumeBerth_keeps st s a
  · exact .serve fun st a => actReleaseBarge_keeps st s a
  · exact .serve fun st a => actStageReading_keeps st s a
  · exact .serve fun st a => actSetRiverSettings_keeps st s a
  · exact .read fun st a => actReadBerth_fst st s a
  · exact .read fun _ _ => rfl
  · exact .read fun _ _ => rfl
  · exact .serve fun st a => actSetStation_keeps st s a
  · exact .read fun _ _ => rfl
  · exact .sits fun st a => actClearEvents_sits st s a
  · exact .sits fun st a => actSetEventEnables_sits st s a
  · exact .sits fun st a => actCommitSettings_sits st s a
  · exact .sits fun _ _ => ⟨rfl, rfl⟩
  · exact .read fun _ _ => rfl
  · exact .sits fun st a => actResetPart_sits st s a
  · exact .sits fun st a => actSetLotSize_sits st s a

theorem takeFrame_keeps (code : Byte) (f : Frame) (s : State) : KeepsDryer P s (takeFrame code f s) := by
  unfold takeFrame
  split
  · next r hr => exact execRequest_keeps hr
  · refine Keeps.result ?_
    split
    · unfold takeUnknown
      split <;> exact Sits.keeps ⟨rfl, rfl⟩
    · exact .refl s

theorem execFrameDiscarded_keeps (bytes : List Byte) (s : State) : KeepsDryer P s (execFrameDiscarded bytes s) := by
  unfold execFrameDiscarded
  split
  · split
    · refine Keeps.result ?_
      exact Sits.keeps ⟨rfl, rfl⟩
    · exact takeFrame_keeps _ _ s
  · exact (Keeps.refl s).result

theorem endResponse_keeps (p : Pins) (s : State) : Keeps P s (s.endResponse p) := by
  unfold State.endResponse
  split
  · exact .refl s
  · split
    · exact warmStart_keeps s p
    · exact Sits.keeps ⟨rfl, rfl⟩

theorem returnPower_keeps (p : Pins) (s : State) : Keeps P s (s.returnPower p) := by
  unfold State.returnPower
  split
  · exact (losePower_sits s).keeps.trans (coldStart_keeps _ p)
  · exact (losePower_sits s).keeps.trans (warmStart_keeps _ p)

theorem assertReset_keeps (p : Pins) (s : State) : Keeps P s (s.assertReset p) := by
  unfold State.assertReset
  split
  · exact .refl s
  · exact warmStart_keeps s p

/-- Every command keeps the dryer's law. -/
theorem exec_keeps (c : Instr) (s : State) : KeepsDryer P s (exec c s) := by
  cases hk : request? c with
  | some k => exact execRequest_keeps (exec_eq_execRequest s hk)
  | none =>
    cases c
    case unknownRequest code f => exact takeFrame_keeps code f s
    case frameDiscarded bytes => exact execFrameDiscarded_keeps bytes s
    case frameGapTimeout b => exact .whenPowered (Sits.keeps ⟨rfl, rfl⟩)
    case responseSent p => exact .whenPowered (endResponse_keeps p s)
    case signalExpiry c => exact .whenPowered (signalExpired_sits s c).keeps
    case ticketExpiry n => exact .whenPowered (ticketExpiry_sits s n).keeps
    case warmUpExpiry => exact .whenPowered (warmUpExpired_keeps s)
    case dryingTimerExpiry => exact .whenPowered (dryingExpired_keeps s)
    case cleanoutExpiry l => exact .whenPowered (cleanoutDone_sits s l).keeps
    case staleExpiry b => exact .whenPowered (staleExpired_keeps s b)
    case riverStaleExpiry => exact .whenPowered (riverExpired_keeps s)
    case spoutTimerExpiry k => exact .whenPowered (spoutExpired_sits s k).keeps
    case commitDone => exact .whenPowered (commitEnds_sits s).keeps
    case commitFailed => exact .whenPowered (commitFails_sits s).keeps
    case estopAsserted => exact .whenPowered (assertEstop_keeps s)
    case resetAsserted p => exact .whenPowered (assertReset_keeps p s)
    case mainPowerReturn p => exact (returnPower_keeps p s).result
    case mainPowerLoss => exact .whenPowered (losePower_sits s).keeps
    case presentChange k v => exact .whenPowered (presentChanged_keeps s k v)
    case mooredChange k v => exact .whenPowered (mooredChanged_keeps s k v)
    case buttonPress k => exact .whenPowered (buttonPressed_sits s k).keeps
    case estopReleased | resetReleased | backupLostChange | buttonRelease => exact .whenPowered (Sits.keeps ⟨rfl, rfl⟩)
    all_goals cases hk

theorem step_keeps_dryer {s t : State} (h : step s = .next t) : Keeps P s t := by
  unfold step at h
  split at h
  · cases h; exact tick_keeps s
  · next c rest _ =>
    obtain ⟨u, hu, hk⟩ := exec_keeps (P := P) c { s with pending := rest }
    cases hu.symm.trans h
    have queued : Sits s { s with pending := rest } := ⟨rfl, rfl⟩
    exact queued.keeps.trans hk

/-- Settles O10: the law of the discharge, told slot by slot, is carried along with the state table. -/
theorem everyStepKeepsTheDryerLaw : Obligations.EveryStepKeepsTheDryerLaw := by
  intro s t hd h
  have kept (P : Prop) (hP : P → IdLaw s ∧ DischargeLaw s) := (step_keeps_dryer h (hd.stands hP)).law
  exact ⟨(kept False nofun).1, fun hi hs => (kept True fun _ => ⟨hi, hs⟩).2 trivial⟩

end Commands

end Sys2Proof.Machine
end

section
/-! PROOFS. Start, Stop, Suspend, Resume and Clear Dryer Fault by the dryer's state, and the dryer's two timers (R85, R86,
R87, R90, R96 to R99). -/

namespace Sys2Proof.Machine

section Requests
variable (st : StationNo) (s : State)

/-- Start Dryer by the dryer's state (R85, R86). -/
theorem actStartDryer_eq : actStartDryer st () s =
    if s.estop = true then (s, ⟨.state, []⟩)
    else if s.dryer.state = .off ∧ s.dryer.batch = none then
      (s.setDryer { s.dryer with
        state := .warming, returnMark := false, warmUp := some s.settings.dryer.warmUp }, ⟨.ok, []⟩)
    else if (s.dryer.state = .drying ∨ s.dryer.state = .dischargeWait ∨ s.dryer.state = .discharging) ∧
        s.dryer.stopPending = true then
      (s.setDryer { s.dryer with stopPending := false }, ⟨.ok, []⟩)
    else (s, ⟨.state, []⟩) := by
  unfold actStartDryer unlessFails State.warmUpDryer
  cases he : s.estop
  · cases hs : s.dryer.state with
    | off => cases hb : s.dryer.batch <;> simp [firstFailure, accept, refuse]
    | drying | dischargeWait | discharging => cases hp : s.dryer.stopPending <;> simp [firstFailure, accept, refuse]
    | warming | ready | suspended | fault => simp [firstFailure, refuse]
  · simp [firstFailure, refuse]

/-- Stop Dryer by the dryer's state (R99). -/
theorem actStopDryer_eq : actStopDryer st () s =
    if s.dryer.state = .off then (s, ⟨.ok, []⟩)
    else if s.dryer.state = .ready then (s.setDryer { s.dryer with state := .off }, ⟨.ok, []⟩)
    else if s.dryer.state = .warming ∧ s.dryer.returnMark = false then
      (s.setDryer { s.dryer with state := .off, warmUp := none }, ⟨.ok, []⟩)
    else if s.dryer.state = .drying ∨ s.dryer.state = .dischargeWait ∨ s.dryer.state = .discharging then
      (s.setDryer { s.dryer with stopPending := true }, ⟨.ok, []⟩)
    else (s, ⟨.state, []⟩) := by
  unfold actStopDryer
  cases hs : s.dryer.state with
  | warming => cases hr : s.dryer.returnMark <;> simp [accept, refuse]
  | off | ready | drying | dischargeWait | discharging => simp [accept]
  | suspended | fault => simp [refuse]

/-- Suspend Dryer (R96). -/
theorem actSuspendDryer_eq : actSuspendDryer st () s =
    if s.dryer.state = .drying then (s.setDryer { s.dryer with state := .suspended }, ⟨.ok, []⟩)
    else (s, ⟨.state, []⟩) := by
  unfold actSuspendDryer unlessFails
  by_cases hs : s.dryer.state = .drying <;> simp [firstFailure, hs, accept, refuse]

/-- Resume Dryer of a WET batch (R97). -/
theorem actResumeDryer_wet {b : Batch} (hb : s.dryer.batch = some b) (hp : b.phase = .wet) : actResumeDryer st () s =
    if s.dryer.state = .suspended ∧ s.estop = false then
      (s.setDryer { s.dryer with
        state := .warming, returnMark := true, warmUp := some s.settings.dryer.warmUp }, ⟨.ok, []⟩)
    else (s, ⟨.state, []⟩) := by
  unfold actResumeDryer State.warmUpDryer
  rw [hb]
  cases hs : s.dryer.state with
  | suspended => cases he : s.estop <;> simp [hp, accept, refuse]
  | off | warming | ready | drying | dischargeWait | discharging | fault => simp [refuse]

/-- Clear Dryer Fault (R98). -/
theorem actClearDryerFault_eq : actClearDryerFault st () s =
    if s.dryer.state ≠ .fault then (s, ⟨.state, []⟩)
    else if s.dryer.batch = none then
      (s.setDryer { s.dryer with state := .off, stopPending := false }, ⟨.ok, []⟩)
    else (s.setDryer { s.dryer with state := .suspended }, ⟨.ok, []⟩) := by
  unfold actClearDryerFault unlessFails
  by_cases hs : s.dryer.state = .fault
  · cases hb : s.dryer.batch <;> simp [firstFailure, hs, accept]
  · simp [firstFailure, hs, refuse]

/-- The warm-up's expiry (R87). -/
theorem warmUpExpired_eq : s.warmUpExpired =
    if s.dryer.state = .warming ∧ s.dryer.warmUp ≠ none then
      if s.dryer.returnMark = true then
        s.setDryer { s.dryer with state := .drying, returnMark := false, warmUp := none }
      else (s.setDryer { s.dryer with state := .ready, warmUp := none }).raise flagDryerReady
    else s := by
  unfold State.warmUpExpired
  simp only [Option.isSome_iff_ne_none]

/-- The drying timer's expiry (R90). -/
theorem dryingExpired_eq {timer : DryingTimer} (h : s.dryer.drying = some timer) : s.dryingExpired =
    if s.dryer.state = .drying ∧ timer.expired = false then
      (s.setDryer { s.dryer with drying := some { remaining := 0, expired := true } }).raise flagDryTimeout
    else s := by
  unfold State.dryingExpired
  rw [h]
  cases hs : s.dryer.state with
  | drying => cases he : timer.expired <;> simp [he]
  | off | warming | ready | dischargeWait | discharging | suspended | fault => simp

end Requests

/-- Settles O38: each request and each timer by the dryer's state. -/
theorem dryerRequestsFollowTheStateTable : Obligations.DryerRequestsFollowTheStateTable := by
  refine ⟨fun s f h hp => ?requests, fun s f h hp => ?clear, fun s h => ⟨?warmUp, fun timer ht => ?drying⟩⟩
  case requests =>
    have hd := decodeNothing_nil hp
    refine ⟨(answered_of_heard h hd).trans ?_, (answered_of_heard h hd).trans ?_, (answered_of_heard h hd).trans ?_,
      fun b hb hw => (answered_of_heard h hd).trans ?_⟩
    · rw [actStartDryer_eq]; split_ifs <;> rfl
    · rw [actStopDryer_eq]; split_ifs <;> rfl
    · rw [actSuspendDryer_eq]; split_ifs <;> rfl
    · rw [actResumeDryer_wet _ s hb hw]; split_ifs <;> rfl
  case clear =>
    refine (answered_of_heard h (decodeNothing_nil hp)).trans ?_
    rw [actClearDryerFault_eq]; split_ifs <;> rfl
  case warmUp =>
    show Host.Outcome.next (s.whenPowered _) = _
    rw [State.whenPowered_on h, warmUpExpired_eq]
    rfl
  case drying =>
    show Host.Outcome.next (s.whenPowered _) = _
    rw [State.whenPowered_on h, dryingExpired_eq s ht]
    rfl

end Sys2Proof.Machine
end

section
/-! PROOFS. The lines and main power: what emergency stop empties and what it leaves, the releases, and the loss of main
power (R96, R125, R171, R189, R192). -/

namespace Sys2Proof.Machine

/-! ### Under ESTOP nothing is launched -/

section Stopped
variable {s t : State}

theorem Quiet.estop (h : Quiet s t) : t.estop = s.estop := by rw [h.frame]

/-- Emergency stop is the first of the launch checks (R108). -/
theorem launch_of_estop (h : s.estop = true) (r : LaunchRequest) : s.launch r = (s, .refused .state none) := by
  have hc : s.launchChecks r = .error (.state, none) := by
    simp [State.launchChecks, State.permissionChecks, firstFailure, h]
  unfold State.launch
  rw [hc]

theorem tryDischarge_of_estop (h : s.estop = true) : s.tryDischarge.1 = s := by
  unfold State.tryDischarge
  split
  · rfl
  · simp only [launch_of_estop h]
    rfl

theorem examineEntry_legs_of_estop (h : s.estop = true) (n : EntryNo) : (s.examineEntry n).legs = s.legs := by
  unfold State.examineEntry
  split
  · rfl
  · split
    · unfold State.launchPass
      simp only [launch_of_estop h]
      exact (endEntry_untouched _ _ _).1
    · rfl

theorem examine_legs_of_estop (h : s.estop = true) : s.examine.legs = s.legs := by
  unfold State.examine
  generalize allEntries = ns
  induction ns generalizing s with
  | nil => rfl
  | cons n ns ih =>
    have hq : Quiet s (s.examineEntry n) := by
      unfold State.examineEntry
      split
      · exact .refl s
      · split
        · exact launchPass_quiet s _ _
        · exact .refl s
    exact (ih (hq.estop.trans h)).trans (examineEntry_legs_of_estop h n)

end Stopped

/-! ### A leg with no transfer -/

section Legs
variable (s : State)

theorem Leg.empty_iff (g : Leg) : g.empty = true ↔ ∀ k, g.slot k = none := by
  refine ⟨fun h k => ?_, Leg.empty_of_slots⟩
  simp only [Leg.empty, Bool.and_eq_true, Option.isNone_iff_eq_none] at h
  obtain ⟨⟨ha, hb⟩, hs⟩ := h
  cases k with
  | active => exact ha
  | buffered => exact hb
  | suspended => exact hs

/-- An empty leg has nothing to succeed (R123). -/
theorem settleLeg_of_empty {l : LegNo} (h : (s.leg l).empty = true) : s.settleLeg l = s.raise (flagAllDone l) := by
  have hk := (Leg.empty_iff _).1 h
  have ha : (s.leg l).active = none := hk .active
  have hb : (s.leg l).buffered = none := hk .buffered
  have hs : (s.leg l).suspended = none := hk .suspended
  have hf : s.fillActive l 2 = s := by
    unfold State.fillActive
    simp [ha, hb, hs]
  unfold State.settleLeg
  rw [hf]
  simp [h, State.raiseIf]

/-- Succession on empty legs sets their ALL_DONE flags only. -/
theorem foldl_settleLeg_of_empty (h : ∀ l, (s.leg l).empty = true) (ls : List LegNo) :
    ls.foldl (fun t l => t.settleLeg l) s = ls.foldl (fun t l => t.raise (flagAllDone l)) s := by
  induction ls generalizing s with
  | nil => rfl
  | cons l ls ih =>
    simp only [List.foldl_cons, settleLeg_of_empty s (h l)]
    exact ih _ h

theorem foldl_raise_keeps (fs : LegNo → Flag) (ls : List LegNo) :
    (ls.foldl (fun t l => t.raise (fs l)) s).legs = s.legs ∧
      (ls.foldl (fun t l => t.raise (fs l)) s).dryer = s.dryer ∧
      (ls.foldl (fun t l => t.raise (fs l)) s).estop = s.estop := by
  induction ls generalizing s with
  | nil => exact ⟨rfl, rfl, rfl⟩
  | cons l ls ih => exact ih (s.raise (fs l))

/-- What a leg last carried is no concern of an end. -/
theorem endSlot_lastCarried (l : LegNo) (k : Slot) (reason : EndReason) (m : LegNo) :
    ((s.endSlot l k reason).leg m).lastCarried = (s.leg m).lastCarried := by
  unfold State.endSlot
  split
  · rfl
  · next x _ =>
    extract_lets old s1 s2 s3 s4 s5
    have h2 : s2.legs = s1.legs := by
      unfold s2; split
      · exact (dropClaim_untouched _ _ _).1
      · rfl
    have h3 : s3.legs = s2.legs := by
      unfold s3 State.dropBerthClaim; split
      · split <;> rfl
      · rfl
    have h5 : s5.legs = s4.legs := (Untouched.foldl (fun u b => ⟨by rfl, by rfl⟩) _ _ : Untouched s4 s5).1
    have hlegs : ((s5.raiseIf (reason != .complete) (flagAbnormalEnd l)).tellEnd x reason).legs = s1.legs := by
      rw [tellEnd_legs, State.raiseIf_legs, h5, (endReservation_untouched _ _ _).1, h3, h2]
    unfold State.leg
    rw [hlegs]
    show (s1.leg m).lastCarried = _
    rw [State.leg_setLeg]
    split
    · next e => subst e; cases k <;> rfl
    · rfl

theorem foldl_endSlot_lastCarried (vs : List Victim) (m : LegNo) :
    ((vs.foldl (fun t v => t.endSlot v.leg v.slot v.reason) s).leg m).lastCarried = (s.leg m).lastCarried := by
  induction vs generalizing s with
  | nil => rfl
  | cons v vs ih => exact (ih _).trans (endSlot_lastCarried s v.leg v.slot v.reason m)

/-- Ends of transfers that are not the dryer's are nothing to it. -/
theorem foldl_endSlot_dryer (vs : List Victim) (h : ∀ l k x, (s.leg l).slot k = some x → x.origin ≠ .dryer) :
    (vs.foldl (fun t v => t.endSlot v.leg v.slot v.reason) s).dryer = s.dryer := by
  induction vs generalizing s with
  | nil => rfl
  | cons v vs ih =>
    have hd : (s.endSlot v.leg v.slot v.reason).dryer = s.dryer := by
      cases hx : (s.leg v.leg).slot v.slot with
      | none => rw [endSlot_empty s _ hx]
      | some x => rw [endSlot_dryer_eq s _ hx, if_neg (h _ _ x hx)]
    refine (ih _ fun l k x hx => ?_).trans hd
    rw [endSlot_slot] at hx
    split at hx
    · cases hx
    · exact h l k x hx

/-- Every transfer of every leg, as a victim, leaves the legs empty when it has ended. -/
theorem foldl_endSlot_empties (reason : EndReason) (l : LegNo) :
    (((s.victims (fun _ => true) reason).foldl (fun t v => t.endSlot v.leg v.slot v.reason) s).leg l).empty = true := by
  refine Leg.empty_of_slots fun k => Option.eq_none_iff_forall_not_mem.2 fun x hx => ?_
  obtain ⟨hs, hv⟩ := foldl_endSlot_slot s _ l k hx
  exact hv _ (s.mem_victims.2 ⟨l, k, x, hs, rfl, rfl⟩) ⟨rfl, rfl⟩

/-- All transfers ended under ESTOP: what follows the ends leaves the legs and the dryer as the ends left them. -/
theorem endTransfers_all_of_estop (h : s.estop = true) (reason : EndReason) :
    let u := (s.victims (fun _ => true) reason).foldl (fun t v => t.endSlot v.leg v.slot v.reason) s
    (s.endTransfers (s.victims (fun _ => true) reason)).legs = u.legs ∧
      (s.endTransfers (s.victims (fun _ => true) reason)).dryer = u.dryer := by
  intro u
  by_cases hv : s.victims (fun _ => true) reason = []
  · have hu : u = s := by unfold u; rw [hv]; rfl
    unfold State.endTransfers
    rw [if_pos hv, hu]
    exact ⟨rfl, rfl⟩
  · unfold State.endTransfers
    rw [if_neg hv]
    extract_lets v legs s2 s3
    have hu : u.estop = true :=
      (Quiet.foldl (fun t (v : Victim) => endSlot_quiet t v.leg v.slot v.reason) _ s).estop.trans h
    have h2 : s2.legs = u.legs ∧ s2.dryer = u.dryer ∧ s2.estop = u.estop := by
      have e : s2 = legs.foldl (fun t l => t.raise (flagAllDone l)) u :=
        foldl_settleLeg_of_empty u (foldl_endSlot_empties s reason) legs
      rw [e]
      exact foldl_raise_keeps u flagAllDone legs
    obtain ⟨hl, hd, he⟩ := h2
    have h3 : s3 = s2 := by
      unfold s3
      rw [tryDischarge_of_estop (he.trans hu), ite_self]
    rw [h3]
    exact ⟨(examine_legs_of_estop (he.trans hu)).trans hl, (examine_examined s2).dryer.trans hd⟩

end Legs

/-! ### The stop at the legs and at the dryer -/

section Stop
variable (s : State)

/-- The stop of one leg (R125). -/
def State.stopLeg (l : LegNo) (s : State) : State :=
  (s.setLeg l { s.leg l with lastCarried := .unknown }).raiseIf (!(s.leg l).empty) (flagStopped l)

theorem stopLeg_leg (l m : LegNo) :
    (s.stopLeg l).leg m = if m = l then { s.leg l with lastCarried := .unknown } else s.leg m := by
  rw [← State.leg_setLeg]
  unfold State.stopLeg State.leg
  rw [State.raiseIf_legs]

theorem stopLegs_eq : s.stopLegs = allLegs.foldl (fun t l => t.stopLeg l) s := by rfl

theorem foldl_stopLeg_leg (ls : List LegNo) (m : LegNo) :
    (ls.foldl (fun t l => t.stopLeg l) s).leg m =
      if m ∈ ls then { s.leg m with lastCarried := .unknown } else s.leg m := by
  induction ls generalizing s with
  | nil => rfl
  | cons l ls ih =>
    rw [List.foldl_cons, ih, stopLeg_leg]
    by_cases e : m = l
    · subst e; simp
    · simp [e]

theorem stopLegs_leg (m : LegNo) : s.stopLegs.leg m = { s.leg m with lastCarried := .unknown } := by
  rw [stopLegs_eq, foldl_stopLeg_leg, if_pos (mem_allLegs m)]

/-- A leg that holds a transfer has its STOPPED set. -/
theorem foldl_stopLeg_flag (ls : List LegNo) (m : LegNo)
    (h : m ∈ ls ∧ (s.leg m).empty = false ∨ s.flag (flagStopped m) = true) :
    (ls.foldl (fun t l => t.stopLeg l) s).flag (flagStopped m) = true := by
  induction ls generalizing s with
  | nil => exact h.elim (fun h => nomatch h.1) id
  | cons l ls ih =>
    refine ih _ ?_
    have hf : (s.stopLeg l).flag (flagStopped m) =
        (!(s.leg l).empty && decide (flagStopped m = flagStopped l) || s.flag (flagStopped m)) := State.flag_raiseIf _ _ _ _
    rw [hf]
    rcases h with ⟨hm, he⟩ | h
    · rcases List.mem_cons.1 hm with rfl | hm
      · right; simp [he]
      · left
        refine ⟨hm, ?_⟩
        rw [stopLeg_leg]
        split
        · next e => rw [← e]; exact he
        · exact he
    · right; simp [h]

theorem stopLegs_flag {m : LegNo} (h : (s.leg m).empty = false) : s.stopLegs.flag (flagStopped m) = true := by
  rw [stopLegs_eq]
  exact foldl_stopLeg_flag s allLegs m (.inl ⟨mem_allLegs m, h⟩)

theorem Dryer.stopped_batch (d : Dryer) : d.stopped.batch = d.batch := by unfold Dryer.stopped; split <;> rfl

/-- The state, the return mark and the warm-up of a stopped dryer (R96). -/
theorem Dryer.stopped_eq (d : Dryer) : d.stopped = { d with
    state := match d.state with
      | .drying => .suspended
      | .warming => if d.returnMark = true then .suspended else .off
      | .ready => .off
      | other => other
    returnMark := if d.state = .warming then false else d.returnMark
    warmUp := if d.state = .warming then none else d.warmUp } := by
  cases d with
  | mk state => cases state <;> rfl

/-- The assertion of ESTOP while it is not asserted (R96, R125): everything but the events is said of the state the
legs and the dryer were stopped in. -/
theorem assertEstop_stops (h : s.estop = false) :
    Quiet { s with estop := true } s.assertEstop ∧
      (∀ l, (s.assertEstop.leg l).empty = true ∧ (s.assertEstop.leg l).lastCarried = .unknown ∧
        ((s.leg l).empty = false → s.assertEstop.flag (flagStopped l) = true)) ∧
      ((∀ l k x, (s.leg l).slot k = some x → x.origin ≠ .dryer) → s.assertEstop.dryer = s.dryer.stopped) := by
  unfold State.assertEstop
  rw [if_neg (by simp [h])]
  extract_lets s1
  have hdry : Quiet { s with estop := true } { s with estop := true, dryer := s.dryer.stopped } :=
    .setDryer { s with estop := true } (by rw [Dryer.stopped_batch]; rfl)
  have hq : Quiet { s with estop := true } s1 := hdry.trans (stopLegs_quiet _)
  have hleg (l : LegNo) : s1.leg l = { s.leg l with lastCarried := .unknown } := stopLegs_leg _ l
  obtain ⟨legs, dryer⟩ := endTransfers_all_of_estop s1 hq.estop .estop
  refine ⟨hq.trans (endTransfers_quiet _ _), fun l => ?_, fun own => ?_⟩
  · have hl : (s1.endTransfers (s1.victims (fun _ => true) .estop)).leg l = _ := congrArg (·.get l) legs
    refine ⟨?_, ?_, fun he => (endTransfers_settles _ _).kept _ (stopLegs_flag _ he)⟩
    · rw [hl]; exact foldl_endSlot_empties s1 .estop l
    · rw [hl]
      exact (foldl_endSlot_lastCarried s1 _ l).trans (by rw [hleg])
  · rw [dryer, foldl_endSlot_dryer]
    · exact (stopLegs_sits _).2
    · intro l k x hx
      rw [hleg] at hx
      exact own l k x (by cases k <;> exact hx)

end Stop

/-! ### The loss of main power in a commit -/

/-- An abandoned commit spoils at most the bank it was writing (R189). -/
theorem abandonCommit_bank (s : State) {b : Fin 2} {g : Nat} {x : Settings} (h : s.commit = .writing b g x) {c : Fin 2}
    (hc : c ≠ b) : s.abandonCommit.bank c = s.bank c := by
  unfold State.abandonCommit
  rw [h]
  dsimp only
  split
  · rw [State.bank_setBank, if_neg hc]; rfl
  · rfl

theorem abandonCommit_writing (s : State) (h : s.commit ≠ .idle) : s.abandonCommit = { s with
    commit := .idle, freeCount := s.freeCount + 1, bank0 := s.abandonCommit.bank0, bank1 := s.abandonCommit.bank1 } := by
  unfold State.abandonCommit
  split
  · next e => exact absurd e h
  · dsimp only
    split
    · rw [State.setBank_frame]
    · rfl

/-- Settles O58: ESTOP by what the ends under it leave, the other lines by their one field, and the loss of main power
by the commit it abandons. -/
theorem linesAndPowerChangeTheMachine : Obligations.LinesAndPowerChangeTheMachine := by
  refine ⟨fun s on stopped => ?again, fun s on idle => ?estop, fun s on => ?lines⟩
  case again =>
    show Host.Outcome.next (s.whenPowered State.assertEstop) = _
    rw [State.whenPowered_on on, State.assertEstop, if_pos stopped]
  case estop =>
    obtain ⟨quiet, legs, dryer⟩ := assertEstop_stops s idle
    refine ⟨s.assertEstop, congrArg _ (State.whenPowered_on on _), quiet.toNoGrainMoved, legs, ?_, fun own _ => ?_⟩
    · simp [State.dryerRun, quiet.estop]
    · rw [dryer own]; exact s.dryer.stopped_eq
  case lines =>
    refine ⟨congrArg _ (State.whenPowered_on on _), congrArg _ (State.whenPowered_on on _),
      fun level => congrArg _ (State.whenPowered_on on _), fun p held => ?_, fun rest => ?_, fun writing => ?_⟩
    · show Host.Outcome.next (s.whenPowered (State.assertReset p)) = _
      rw [State.whenPowered_on on, State.assertReset, if_pos held]
    · show Host.Outcome.next (s.whenPowered State.losePower) = _
      rw [State.whenPowered_on on, losePower_idle s rest]
    · refine ⟨s.losePower, congrArg _ (State.whenPowered_on on _), ?_, fun b g x he c hc => abandonCommit_bank s he hc⟩
      unfold State.losePower
      rw [abandonCommit_writing s writing]

end Sys2Proof.Machine
end

section
/-! PROOFS. What the end of the dryer's discharge does to its reservation, and what nothing that follows the end does to
it (R31, R93, R95, R122). -/

namespace Sys2Proof.Machine

/-! ### Operations that leave every holder list -/

/-- Every bin's holders are as they were. -/
def SameHolders (s t : State) : Prop := ∀ b, (t.bin b).holders = (s.bin b).holders

section SameHolders
variable {s t u : State}

theorem SameHolders.refl (s : State) : SameHolders s s := fun _ => rfl

theorem SameHolders.trans (h : SameHolders s t) (k : SameHolders t u) : SameHolders s u :=
  fun b => (k b).trans (h b)

theorem SameHolders.of_bins (h : t.bins = s.bins) : SameHolders s t := fun b => by unfold State.bin; rw [h]

theorem SameHolders.raiseIf (s : State) (c : Bool) (f : Flag) : SameHolders s (s.raiseIf c f) :=
  .of_bins (State.raiseIf_bins _ _ _)

theorem SameHolders.foldl {α : Type} {f : State → α → State} (h : ∀ s a, SameHolders s (f s a)) (l : List α) (s : State) :
    SameHolders s (l.foldl f s) := by
  induction l generalizing s with
  | nil => exact .refl s
  | cons a l ih => exact (h s a).trans (ih _)

theorem SameHolders.setBin (s : State) {b : BinNo} {x : Bin} (h : x.holders = (s.bin b).holders) :
    SameHolders s (s.setBin b x) := by
  intro c
  rw [State.bin_setBin]
  split
  · next e => rw [e]; exact h
  · rfl

theorem reevaluate_sameHolders (s : State) (b : BinNo) : SameHolders s (s.reevaluate b) :=
  .setBin s (Bin.reevaluate_holders _)

theorem takeClaim_sameHolders (s : State) (b : BinNo) (id : Nat) : SameHolders s (s.takeClaim b id) := by
  unfold State.takeClaim; split
  · exact .refl s
  · exact .setBin s rfl

theorem dropClaim_sameHolders (s : State) (b : BinNo) (id : Nat) : SameHolders s (s.dropClaim b id) := by
  unfold State.dropClaim; split
  · exact .setBin s (Bin.reevaluate_holders _)
  · exact .refl s

theorem dropBerthClaim_sameHolders (s : State) (k : BerthNo) (id : Nat) : SameHolders s (s.dropBerthClaim k id) := by
  unfold State.dropBerthClaim; split <;> exact .of_bins rfl

theorem completionTest_sameHolders (s : State) (k : BerthNo) : SameHolders s (s.completionTest k) := by
  unfold State.completionTest; dsimp only; split <;> exact .of_bins rfl

theorem berthEnd_sameHolders (s : State) (k : BerthNo) (reason : EndReason) : SameHolders s (s.berthEnd k reason) := by
  unfold State.berthEnd; dsimp only; split
  · exact .refl s
  · exact .refl s
  · split
    · exact .of_bins rfl
    · exact .of_bins rfl
    · exact completionTest_sameHolders s k
  · split
    · exact .refl s
    · exact completionTest_sameHolders s k

theorem setEntry_sameHolders (s : State) (n : EntryNo) (e : Option Entry) : SameHolders s (s.setEntry n e) := .of_bins rfl

theorem endEntry_sameHolders (s : State) (n : EntryNo) (reason : EntryEnd) : SameHolders s (s.endEntry n reason) := by
  unfold State.endEntry; split <;> exact .of_bins rfl

theorem setTemp_sameHolders (s : State) (b : BinNo) (x : TempFields) :
    SameHolders s (s.setBin b { s.bin b with temp := x }) := .setBin s rfl

theorem evaluateHot_sameHolders (s : State) (b : BinNo) : SameHolders s (s.evaluateHot b) := by
  unfold State.evaluateHot; dsimp only; split
  · split
    · exact (setTemp_sameHolders s b _).trans (.of_bins (autoTurn_bins ..))
    · exact setTemp_sameHolders s b _
  · exact .refl s

theorem passComplete_sameHolders (s : State) (n : EntryNo) (e : Entry) (x : Transfer) :
    SameHolders s (s.passComplete n e x) := by
  unfold State.passComplete
  extract_lets s1 y turned old s2 z old' s3
  have h2 : SameHolders s s2 := (SameHolders.of_bins rfl : SameHolders s s1).trans (.setBin s1 rfl)
  have h3 : SameHolders s s3 := by
    unfold s3; split
    · exact (h2.trans (setTemp_sameHolders s2 e.source _)).trans (evaluateHot_sameHolders _ e.source)
    · exact h2
  split
  · split
    · exact h3.trans (endEntry_sameHolders _ _ _)
    · split
      · exact h3.trans (.of_bins rfl)
      · exact h3
  · exact h3

theorem passEnd_sameHolders (s : State) (n : EntryNo) (reason : EndReason) (x : Transfer) :
    SameHolders s (s.passEnd n reason x) := by
  unfold State.passEnd; split
  · exact .refl s
  · split
    · exact .refl s
    · split
      · exact passComplete_sameHolders s _ _ _
      · exact .of_bins rfl
      · dsimp only; split
        · exact (SameHolders.of_bins rfl : SameHolders s (s.setEntry n _)).trans (endEntry_sameHolders _ _ _)
        · exact .of_bins rfl

end SameHolders

/-! ### A dryer with no discharge left to be told of -/

section Told
variable {s : State}

theorem dischargeEnd_of_portions {b : Batch} (hb : s.dryer.batch = some b) (hp : b.portions ≠ []) :
    SameHolders s s.dischargeEnd := by
  unfold State.dischargeEnd
  simp only [hb, if_neg hp]
  exact .of_bins rfl

/-- A batch all discharged is done, and its reservation released (R95). -/
theorem dischargeEnd_of_empty {b : Batch} (hb : s.dryer.batch = some b) (hp : b.portions = []) :
    s.dischargeEnd.flag flagDischargeDone = true ∧ ∀ h ∈ (s.dischargeEnd.bin b.dest).holders, h.who ≠ .batch := by
  unfold State.dischargeEnd
  simp only [hb, if_pos hp]
  refine ⟨State.flag_raise_same _ _, fun h hh => ?_⟩
  have hh : h ∈ ((s.release b.dest .batch).bin b.dest).holders := hh
  rw [bin_release, if_pos rfl, Bin.reevaluate_holders] at hh
  simpa using (List.mem_filter.1 hh).2

/-- A dryer that its discharge's end would leave as it is takes nothing from a bin either. -/
theorem dischargeEnd_of_fixed (h : s.dryer.discharged = s.dryer) : SameHolders s s.dischargeEnd := by
  cases hb : s.dryer.batch with
  | none =>
    unfold State.dischargeEnd
    simp only [hb]
    exact .of_bins rfl
  | some b =>
    refine dischargeEnd_of_portions hb fun hp => ?_
    have gone : s.dryer.discharged.batch = none := by simp [Dryer.discharged, hb, hp, Option.filter]
    rw [h, hb] at gone
    cases gone

theorem tellEnd_of_fixed (h : s.dryer.discharged = s.dryer) (x : Transfer) (reason : EndReason) :
    SameHolders s (s.tellEnd x reason) := by
  unfold State.tellEnd
  extract_lets s1
  have h1 : SameHolders s s1 := by
    unfold s1; split
    · exact dischargeEnd_of_fixed h
    · exact passEnd_sameHolders s _ _ _
    · exact .refl s
  split
  · exact h1.trans (berthEnd_sameHolders _ _ _)
  · exact h1

end Told

/-! ### The end of a transfer, but for what its origin is told -/

section Ending
variable {s t : State}

/-- What an end does to a reservation reads the holder lists only. -/
theorem SameHolders.endReservation (h : SameHolders s t) (x : Transfer) (reason : EndReason) :
    SameHolders (s.endReservation x reason) (t.endReservation x reason) := by
  intro c
  unfold State.endReservation
  split
  · exact h c
  · next d _ =>
    split
    · unfold State.handOver
      rw [State.bin_setBin, State.bin_setBin]
      split
      · dsimp only; rw [h d]
      · exact h c
    · rw [bin_release, bin_release]
      split
      · rw [Bin.reevaluate_holders, Bin.reevaluate_holders]; dsimp only; rw [h d]
      · exact h c

/-- The end of a transfer (R122): of holders it changes what its reservation does, and then its origin is told. -/
theorem endSlot_ending {l : LegNo} {k : Slot} {x : Transfer} (hx : (s.leg l).slot k = some x) (reason : EndReason) :
    ∃ u : State, s.endSlot l k reason = (u.raiseIf (reason != .complete) (flagAbnormalEnd l)).tellEnd x reason ∧
      u.dryer = s.dryer ∧ SameHolders (s.endReservation x reason) u := by
  unfold State.endSlot
  split
  · next e => rw [hx] at e; cases e
  next y e =>
  obtain rfl : x = y := Option.some.inj (hx.symm.trans e)
  extract_lets old s1 s2 s3 s4 s5
  have h2 : s2.dryer = s.dryer ∧ SameHolders s s2 := by
    unfold s2; split
    · exact ⟨(dropClaim_aside _ _ _).dryer, (SameHolders.of_bins rfl : SameHolders s s1).trans (dropClaim_sameHolders _ _ _)⟩
    · exact ⟨rfl, .of_bins rfl⟩
  have h3 : s3.dryer = s2.dryer ∧ SameHolders s2 s3 := by
    unfold s3; split
    · refine ⟨?_, dropBerthClaim_sameHolders _ _ _⟩
      unfold State.dropBerthClaim; split <;> rfl
    · exact ⟨rfl, .refl _⟩
  have h4 : s4.dryer = s3.dryer := (endReservation_aside _ _ _).dryer
  have h5 : s5.dryer = s4.dryer ∧ SameHolders s4 s5 :=
    ⟨(Aside.foldl (fun u b => .setBin u (Bin.reevaluate_temp _)) _ _ : Aside s4 s5).dryer,
      .foldl (fun u b => reevaluate_sameHolders u b) _ _⟩
  exact ⟨s5, rfl, by rw [h5.1, h4, h3.1, h2.1], ((h2.2.trans h3.2).endReservation x reason).trans h5.2⟩

/-- The end of a berth's transfer leaves every holder list, and a dryer with no discharge to be told of. -/
theorem endSlot_of_berth {l : LegNo} {k : Slot} {x : Transfer} {j : BerthNo} (hx : (s.leg l).slot k = some x)
    (hj : x.berth? = some j) (h : s.dryer.discharged = s.dryer) (reason : EndReason) :
    SameHolders s (s.endSlot l k reason) ∧ (s.endSlot l k reason).dryer = s.dryer := by
  refine ⟨?_, ?_⟩
  · obtain ⟨u, he, hd, hh⟩ := endSlot_ending hx reason
    have none_reserved : s.endReservation x reason = s := by
      unfold Transfer.berth? at hj
      unfold State.endReservation
      split
      · rfl
      · next e => rw [e] at hj; cases hj
    rw [none_reserved] at hh
    rw [he]
    exact (hh.trans (.raiseIf _ _ _)).trans (tellEnd_of_fixed (by rw [State.raiseIf_dryer, hd]; exact h) _ _)
  · rw [endSlot_dryer_eq s reason hx, h, ite_self]

end Ending

/-! ### What succession and the examination leave -/

section Followed
variable {s t u : State}

/-- A transfer is refused the ACTIVE slot only at a berth (R115). -/
theorem replan_berth {x : Transfer} {reason : EndReason} (h : s.replan x = .error reason) : ∃ j, x.berth? = some j := by
  unfold State.replan at h
  split at h
  · cases h
  · next j hj => exact ⟨j, hj⟩

theorem enterActive_bins (s : State) (l : LegNo) (x : Transfer) : (s.enterActive l x).bins = s.bins := by
  rw [enterActive_frame]

/-- Succession, with no discharge to be told of (R123). -/
theorem fillActive_of_fixed (h : s.dryer.discharged = s.dryer) (l : LegNo) (n : Nat) :
    SameHolders s (s.fillActive l n) ∧ (s.fillActive l n).dryer = s.dryer := by
  induction n generalizing s with
  | zero => unfold State.fillActive; exact ⟨.refl s, rfl⟩
  | succ n ih =>
    have advance (x : Transfer) (g : Leg) : SameHolders s (State.fillActive.advance l n x g s) ∧
        (State.fillActive.advance l n x g s).dryer = s.dryer := by
      unfold State.fillActive.advance
      split
      · exact ⟨.of_bins (enterActive_bins _ _ _), enterActive_dryer _ _ _⟩
      · next reason hr =>
        obtain ⟨j, hj⟩ := replan_berth hr
        have hx : ((s.setLeg l { g with active := some x }).leg l).slot .active = some x := by
          rw [State.leg_setLeg, if_pos rfl]; rfl
        obtain ⟨hh, hd⟩ := endSlot_of_berth hx hj h reason
        obtain ⟨ih1, ih2⟩ := ih (by rw [hd]; exact h)
        exact ⟨((SameHolders.of_bins rfl).trans hh).trans ih1, ih2.trans hd⟩
    unfold State.fillActive
    dsimp only
    split
    · exact ⟨.refl s, rfl⟩
    · split
      · exact advance _ _
      · exact advance _ _
      · exact ⟨.refl s, rfl⟩

theorem foldl_settleLeg_of_fixed (h : s.dryer.discharged = s.dryer) (ls : List LegNo) :
    SameHolders s (ls.foldl (fun t l => t.settleLeg l) s) ∧ (ls.foldl (fun t l => t.settleLeg l) s).dryer = s.dryer := by
  induction ls generalizing s with
  | nil => exact ⟨.refl s, rfl⟩
  | cons l ls ih =>
    obtain ⟨hh, hd⟩ := fillActive_of_fixed h l 2
    have settled : SameHolders s (s.settleLeg l) ∧ (s.settleLeg l).dryer = s.dryer :=
      ⟨hh.trans (.raiseIf _ _ _), (State.raiseIf_dryer _ _ _).trans hd⟩
    obtain ⟨ih1, ih2⟩ := ih (s := s.settleLeg l) (by rw [settled.2]; exact h)
    exact ⟨settled.1.trans ih1, ih2.trans settled.2⟩

/-- A bin that is reserved keeps its holders, and the batch comes to none. -/
structure KeepsHolders (b : BinNo) (s t : State) : Prop where
  kept : (s.bin b).holders ≠ [] → (t.bin b).holders = (s.bin b).holders
  batch : ∀ h ∈ (t.bin b).holders, h.who = .batch → h ∈ (s.bin b).holders

theorem SameHolders.keepsHolders (h : SameHolders s t) (b : BinNo) : KeepsHolders b s t :=
  ⟨fun _ => h b, fun x hx _ => by rwa [h b] at hx⟩

theorem KeepsHolders.trans {b : BinNo} (h : KeepsHolders b s t) (k : KeepsHolders b t u) : KeepsHolders b s u where
  kept hne := (k.kept (by rwa [h.kept hne])).trans (h.kept hne)
  batch x hx hw := h.batch x (k.batch x hx hw) hw

/-- A launch from a bin goes to a bin that nothing has reserved (R109). -/
theorem launchChecks_unreserved {r : LaunchRequest} {g : Grant} {a d : BinNo} (hs : r.source = .bin a)
    (hd : r.dest = .bin d) (h : s.launchChecks r = .ok g) : (s.bin d).holders = [] := by
  refine Bin.holders_of_unowned ?_
  have passes := firstFailure_eq_none.1 (launchChecks_ok s h).1
  have turn : r.selfTurn = true → a = d := by simp [LaunchRequest.selfTurn, hs, hd, Source.bin?, Dest.bin?]
  have claims : ∀ c ∈ s.claimChecks r, c.1 = false := fun c hc =>
    passes c (List.mem_append_left _ (List.mem_append_right _ hc))
  by_cases hturn : r.selfTurn = true
  · have unclaimed : (s.bin a).claim = none ∧ (s.bin a).fillOwner = .none := by
      simpa [State.claimChecks, hs, hd, hturn] using fun c => claims c
    rw [← turn hturn]
    exact unclaimed.2
  · have unclaimed : ((s.bin a).claim = none ∧ (s.bin a).fillOwner.isTransfer = false) ∧
        (s.bin d).claim = none ∧ (s.bin d).fillOwner = .none := by
      simpa [State.claimChecks, hs, hd, hturn] using fun c => claims c
    exact unclaimed.2.2

theorem reserve_keepsHolders (s : State) {d : BinNo} (free : (s.bin d).holders = []) (id : Nat) (i : Identity) (kg n : Nat)
    (b : BinNo) : KeepsHolders b s (s.reserve d (.transfer id) i kg n) := by
  unfold State.reserve
  split
  · exact (SameHolders.refl s).keepsHolders b
  · by_cases e : b = d
    · subst e
      refine ⟨fun hne => absurd free hne, fun x hx hw => ?_⟩
      rw [State.bin_setBin, if_pos rfl] at hx
      simp only [Bin.reserveFor, free, List.nil_append, List.mem_singleton] at hx
      rw [hx] at hw
      cases hw
    · have same : ((s.setBin d ((s.bin d).reserveFor (.transfer id) i kg n)).bin b).holders = (s.bin b).holders := by
        rw [State.bin_setBin, if_neg e]
      exact ⟨fun _ => same, fun x hx _ => by rwa [same] at hx⟩

/-- A launch from a bin to a bin reserves where nothing was reserved (R109, R114). -/
theorem commitLaunch_keepsHolders {r : LaunchRequest} {g : Grant} {a d : BinNo} (hs : r.source = .bin a)
    (hd : r.dest = .bin d) (h : s.launchChecks r = .ok g) (b : BinNo) : KeepsHolders b s (s.commitLaunch r g) := by
  have claimed : KeepsHolders b s (s.claimed r g) := by
    unfold State.claimed State.holdFor
    have source : (s.granted r g).source = .bin a := hs
    have dest : (s.granted r g).dest = .bin d := hd
    rw [source, dest]
    dsimp only
    rw [if_neg nofun]
    have taken : SameHolders s
        (({ s with nextTransfer := wrapNext Config.maxShortNo s.nextId } : State).takeClaim a (s.granted r g).id) :=
      (SameHolders.of_bins rfl).trans (takeClaim_sameHolders _ _ _)
    exact (taken.keepsHolders b).trans
      (reserve_keepsHolders _ ((taken d).trans (launchChecks_unreserved hs hd h)) _ _ _ _ b)
  have placed (c : BinNo) := commitLaunch_bin s r g c
  exact ⟨fun hne => by rw [placed, claimed.kept hne], fun x hx hw => claimed.batch x (by rwa [placed] at hx) hw⟩

theorem launchPass_keepsHolders (s : State) (n : EntryNo) (e : Entry) (b : BinNo) :
    KeepsHolders b s (s.launchPass n e) := by
  unfold State.launchPass
  extract_lets kg r
  obtain ⟨code, limit, -, h⟩ | ⟨g, hg, h⟩ := s.launch_cases r
  · rw [h]
    dsimp only
    split
    · exact (SameHolders.refl s).keepsHolders b
    · exact (SameHolders.refl s).keepsHolders b
    all_goals exact (endEntry_sameHolders s _ _).keepsHolders b
  · rw [h]
    exact (commitLaunch_keepsHolders (r := r) (a := e.source) (d := e.dest) rfl rfl hg b).trans
      ((setEntry_sameHolders _ _ _).keepsHolders b)

theorem examine_keepsHolders (s : State) (b : BinNo) : KeepsHolders b s s.examine := by
  unfold State.examine
  generalize allEntries = ns
  induction ns generalizing s with
  | nil => exact (SameHolders.refl s).keepsHolders b
  | cons n ns ih =>
    refine KeepsHolders.trans ?_ (ih _)
    unfold State.examineEntry
    split
    · exact (SameHolders.refl s).keepsHolders b
    · split
      · exact launchPass_keepsHolders s _ _ b
      · exact (SameHolders.refl s).keepsHolders b

end Followed

/-! ### The dryer through ends and what follows them -/

section Dryers
variable {s : State} {D : Dryer → Prop}

theorem endSlot_dryer_of (hD : ∀ d, D d → D d.discharged) (h : D s.dryer) (l : LegNo) (k : Slot) (reason : EndReason) :
    D (s.endSlot l k reason).dryer := by
  cases hx : (s.leg l).slot k with
  | none => rw [endSlot_empty s _ hx]; exact h
  | some x =>
    rw [endSlot_dryer_eq s reason hx]
    split
    · exact hD _ h
    · exact h

theorem foldl_endSlot_dryer_of (hD : ∀ d, D d → D d.discharged) (h : D s.dryer) (vs : List Victim) :
    D (vs.foldl (fun t v => t.endSlot v.leg v.slot v.reason) s).dryer := by
  induction vs generalizing s with
  | nil => exact h
  | cons v vs ih => exact ih (endSlot_dryer_of hD h v.leg v.slot v.reason)

theorem fillActive_dryer_of (hD : ∀ d, D d → D d.discharged) (h : D s.dryer) (l : LegNo) (n : Nat) :
    D (s.fillActive l n).dryer := by
  induction n generalizing s with
  | zero => unfold State.fillActive; exact h
  | succ n ih =>
    have advance (x : Transfer) (g : Leg) : D (State.fillActive.advance l n x g s).dryer := by
      unfold State.fillActive.advance
      split
      · rw [enterActive_dryer]; exact h
      · exact ih (endSlot_dryer_of (s := s.setLeg l { g with active := some x }) hD h l .active _)
    unfold State.fillActive
    dsimp only
    split
    · exact h
    · split
      · exact advance _ _
      · exact advance _ _
      · exact h

theorem foldl_settleLeg_dryer_of (hD : ∀ d, D d → D d.discharged) (h : D s.dryer) (ls : List LegNo) :
    D (ls.foldl (fun t l => t.settleLeg l) s).dryer := by
  induction ls generalizing s with
  | nil => exact h
  | cons l ls ih =>
    refine ih ?_
    unfold State.settleLeg
    rw [State.raiseIf_dryer]
    exact fillActive_dryer_of hD h l 2

/-- A dryer that does not wait to discharge tries no launch (R93). -/
theorem dischargeDue_of_not_waiting (before : State) (h : s.dryer.state ≠ .dischargeWait) :
    dischargeDue before s = false := by
  unfold dischargeDue
  split
  · rfl
  · simp [h]

/-- Ends, and what follows them, of a dryer that does not come to wait: the legs' slots are settled, and the schedules
are examined. -/
theorem endTransfers_of_not_waiting (hD : ∀ d, D d → D d.discharged) (hw : ∀ d, D d → d.state ≠ .dischargeWait)
    (h : D s.dryer) {vs : List Victim} (hvs : vs ≠ []) : ∃ legs : List LegNo, s.endTransfers vs =
      (legs.foldl (fun t l => t.settleLeg l) (vs.foldl (fun t v => t.endSlot v.leg v.slot v.reason) s)).examine := by
  unfold State.endTransfers
  rw [if_neg hvs]
  extract_lets s1 legs s2 s3
  have settled : D s2.dryer := foldl_settleLeg_dryer_of hD (foldl_endSlot_dryer_of hD h vs) legs
  have idle : s3 = s2 := by
    unfold s3
    rw [dischargeDue_of_not_waiting s (hw _ settled)]
    rfl
  exact ⟨legs, by rw [idle]⟩

/-- What the ends leave true of such a dryer, all that follows them does. -/
theorem endTransfers_dryer_of (hD : ∀ d, D d → D d.discharged) (hw : ∀ d, D d → d.state ≠ .dischargeWait)
    (h : D s.dryer) (vs : List Victim) : D (s.endTransfers vs).dryer := by
  by_cases hvs : vs = []
  · unfold State.endTransfers
    rw [if_pos hvs]
    exact h
  · obtain ⟨legs, e⟩ := endTransfers_of_not_waiting hD hw h hvs
    rw [e, (examine_examined _).dryer]
    exact foldl_settleLeg_dryer_of hD (foldl_endSlot_dryer_of hD h vs) legs

end Dryers

end Sys2Proof.Machine
end

section
/-! PROOFS. Dryer Fault: the dryer in FAULT through the end of its discharge and all that follows it (R95, R98, R122). -/

namespace Sys2Proof.Machine

/-! ### The dryer in FAULT -/

/-- The dryer's record as it enters FAULT (R98). -/
def Dryer.faulted (d : Dryer) : Dryer :=
  { d with state := .fault, warmUp := none, returnMark := false, autoDischarge := false }

/-- What of a faulted dryer's record the end of a discharge does not change. -/
def Dryer.StandsFaulted (d : Dryer) : Prop :=
  d.state = .fault ∧ d.warmUp = none ∧ d.returnMark = false ∧ d.autoDischarge = false

/-- The state as the dryer enters FAULT, its discharge not ended yet. -/
def State.enterFault (s : State) : State := (s.setDryer s.dryer.faulted).raise flagDryerFault

section Fault
variable {s : State}

theorem faultDryer_eq (s : State) :
    s.faultDryer = s.enterFault.endTransfers (s.enterFault.dischargeVictims .aborted) := rfl

/-- Dryer Fault by the dryer's state (R98). -/
theorem actDryerFault_eq (st : StationNo) (s : State) : actDryerFault st () s =
    if s.dryer.state = .off then (s, ⟨.state, []⟩)
    else if s.dryer.state = .fault then (s.raise flagDryerFault, ⟨.ok, []⟩)
    else (s.faultDryer, ⟨.ok, []⟩) := by
  unfold actDryerFault
  cases hs : s.dryer.state with
  | off => simp [refuse]
  | fault | warming | ready | drying | dischargeWait | discharging | suspended => simp [accept]

theorem Dryer.StandsFaulted.discharged {d : Dryer} (h : d.StandsFaulted) : d.discharged.StandsFaulted := by
  obtain ⟨fault, warmUp, mark, -⟩ := h
  refine ⟨?_, warmUp, mark, rfl⟩
  unfold Dryer.discharged
  simp only [fault]
  split <;> simp

theorem Dryer.StandsFaulted.not_waiting {d : Dryer} (h : d.StandsFaulted) : d.state ≠ .dischargeWait := by
  rw [h.1]; nofun

theorem Dryer.faulted_standsFaulted (d : Dryer) : d.faulted.StandsFaulted := ⟨rfl, rfl, rfl, rfl⟩

/-- The discharge of a faulted dryer ends once. -/
theorem Dryer.faulted_discharged_fixed (d : Dryer) : d.faulted.discharged.discharged = d.faulted.discharged := by
  cases hb : d.batch with
  | none => simp [Dryer.discharged, Dryer.faulted, hb]
  | some b => by_cases hp : b.portions = [] <;> simp [Dryer.discharged, Dryer.faulted, hb, hp, Option.filter]

/-- A batch with grain in it outlives the end of its discharge (R95). -/
theorem Dryer.faulted_discharged_of_portions {d : Dryer} {b : Batch} (hb : d.batch = some b) (hp : b.portions ≠ []) :
    d.faulted.discharged = { d.faulted with discharge := none } := by
  simp [Dryer.discharged, Dryer.faulted, hb, hp, Option.filter]

theorem Dryer.faulted_discharged_of_empty {d : Dryer} {b : Batch} (hb : d.batch = some b) (hp : b.portions = []) :
    d.faulted.discharged = { d.faulted with discharge := none, batch := none } := by
  simp [Dryer.discharged, Dryer.faulted, hb, hp, Option.filter]

theorem enterFault_quiet (s : State) : Quiet s s.enterFault :=
  (Quiet.setDryer s (d := s.dryer.faulted) rfl).trans (.raise _ _)

/-- Entering FAULT, whatever the end of a discharge meets (R98). -/
theorem faultDryer_faults (s : State) : NoGrainMoved s s.faultDryer ∧ s.faultDryer.flag flagDryerFault = true ∧
    s.faultDryer.dryer.StandsFaulted := by
  rw [faultDryer_eq]
  exact ⟨((enterFault_quiet s).trans (endTransfers_quiet _ _)).toNoGrainMoved,
    (endTransfers_settles _ _).kept _ (State.flag_raise_same _ _),
    endTransfers_dryer_of (D := Dryer.StandsFaulted) (fun _ => Dryer.StandsFaulted.discharged) (fun _ => Dryer.StandsFaulted.not_waiting)
      s.dryer.faulted_standsFaulted _⟩

theorem faultDryer_of_undischarged (h : s.dryer.discharge = none) : s.faultDryer = s.enterFault := by
  have none_live : s.enterFault.dischargeVictims .aborted = [] := by
    unfold State.dischargeVictims
    rw [show s.enterFault.dryer.discharge = none from h]
  rw [faultDryer_eq, none_live]
  rfl

end Fault

/-! ### The end of the live discharge -/

section Live
variable {s : State}

theorem dischargeVictims_of_live {id : Nat} (h : s.dryer.discharge = some id) (reason : EndReason) :
    s.dischargeVictims reason = s.victims (fun x => x.id == id) reason := by
  unfold State.dischargeVictims
  rw [h]

/-- The one transfer of the dryer, by its slot. -/
theorem DischargeLaw.slot (h : DischargeLaw s) (hi : IdLaw s) {id : Nat} {b : Batch} (hd : s.dryer.discharge = some id)
    (hb : s.dryer.batch = some b) : ∃ l k x, (s.leg l).slot k = some x ∧ x.id = id ∧ x.origin = .dryer ∧
      x.dest = .bin b.dest ∧ ∀ m j y, (s.leg m).slot j = some y → y.id = id → m = l ∧ j = k := by
  have tied := h.tied hi
  obtain ⟨x, hx, hid⟩ := h.live id hd
  obtain ⟨l, k, hk⟩ := s.mem_live.1 hx
  have ours {m : LegNo} {j : Slot} {y : Transfer} (hy : (s.leg m).slot j = some y) (e : y.id = id) : y.origin = .dryer :=
    (tied.named (m, j) y.trip (State.trips_of_slot hy)).2 (by rw [hd]; exact congrArg some e.symm)
  have route := (h.route x hx (ours hk hid)).2
  rw [hb] at route
  refine ⟨l, k, x, hk, hid, ours hk hid, (Option.some.inj route).symm, fun m j y hy e => ?_⟩
  have same := tied.one (m, j) (l, k) y.trip x.trip (State.trips_of_slot hy) (State.trips_of_slot hk) (ours hy e) (ours hk hid)
  exact ⟨congrArg Prod.fst same, congrArg Prod.snd same⟩

/-- Ends of one slot, however often it is named, are one end. -/
theorem foldl_endSlot_of_one {v : Victim} {vs : List Victim} (hv : ∀ w ∈ vs, w = v) (hne : vs ≠ []) :
    vs.foldl (fun t w => t.endSlot w.leg w.slot w.reason) s = s.endSlot v.leg v.slot v.reason := by
  induction vs generalizing s with
  | nil => exact absurd rfl hne
  | cons w ws ih =>
    have e : w = v := hv w (List.mem_cons_self ..)
    subst e
    rw [List.foldl_cons]
    by_cases hws : ws = []
    · rw [hws]; rfl
    · rw [ih (fun u hu => hv u (List.mem_cons_of_mem _ hu)) hws]
      refine endSlot_empty _ _ ?_
      rw [endSlot_slot, if_pos ⟨rfl, rfl⟩]

/-- The holders of a bin when a transfer's reservation has been handed back to the batch (R31). -/
def handedBack (id : Nat) (hs : List Holder) : List Holder :=
  hs.map fun h => if h.who = .transfer id then { h with who := .batch } else h

/-- The end of the dryer's discharge with another reason than COMPLETE, before the dryer is told (R95, R122). -/
theorem endSlot_handsBack {l : LegNo} {k : Slot} {x : Transfer} {d : BinNo} {reason : EndReason}
    (hx : (s.leg l).slot k = some x) (ho : x.origin = .dryer) (hd : x.dest = .bin d) (hr : reason ≠ .complete) :
    ∃ u : State, s.endSlot l k reason = u.dischargeEnd ∧ u.dryer = s.dryer ∧ u.flag (flagAbnormalEnd l) = true ∧
      (u.bin d).holders = handedBack x.id (s.bin d).holders := by
  obtain ⟨u, he, hdry, hh⟩ := endSlot_ending hx reason
  have back : s.endReservation x reason = s.handOver d (.transfer x.id) .batch := by
    unfold State.endReservation
    rw [hd]
    exact if_pos ⟨ho, hr⟩
  have told (w : State) : w.tellEnd x reason = w.dischargeEnd := by
    unfold State.tellEnd Transfer.berth?
    rw [ho, hd]
  refine ⟨u.raise (flagAbnormalEnd l), ?_, hdry, State.flag_raise_same _ _, ?_⟩
  · rw [he, told]
    have abnormal : (reason != .complete) = true := by simpa using hr
    rw [abnormal]
    rfl
  · show (u.bin d).holders = _
    rw [hh d, back]
    unfold State.handOver
    rw [State.bin_setBin, if_pos rfl]
    rfl

/-- The end of the live discharge as the dryer enters FAULT, and all that follows it. -/
theorem faultDryer_of_discharging (h : DischargeLaw s) (hi : IdLaw s) {id : Nat} {b : Batch}
    (hd : s.dryer.discharge = some id) (hb : s.dryer.batch = some b) :
    ∃ (l : LegNo) (u : State) (legs : List LegNo),
      (∀ m k x, (s.leg m).slot k = some x → x.id = id → m = l) ∧
      s.faultDryer = (legs.foldl (fun t l => t.settleLeg l) u.dischargeEnd).examine ∧
      u.dryer = s.dryer.faulted ∧ u.flag (flagAbnormalEnd l) = true ∧
      (u.bin b.dest).holders = handedBack id (s.bin b.dest).holders := by
  obtain ⟨l, k, x, hx, hid, ho, hdest, unique⟩ := h.slot hi hd hb
  have victims := dischargeVictims_of_live (s := s.enterFault) hd .aborted
  have one : ∀ w ∈ s.enterFault.dischargeVictims .aborted, w = { leg := l, slot := k, reason := .aborted } := by
    intro w hw
    rw [victims] at hw
    obtain ⟨m, j, y, hy, e, rfl⟩ := (State.mem_victims _).1 hw
    obtain ⟨rfl, rfl⟩ := unique m j y hy (by simpa using e)
    rfl
  have some_live : s.enterFault.dischargeVictims .aborted ≠ [] := by
    rw [victims]
    exact List.ne_nil_of_mem ((State.mem_victims _).2 ⟨l, k, x, hx, by simpa using hid, rfl⟩)
  obtain ⟨legs, he⟩ := endTransfers_of_not_waiting (s := s.enterFault) (D := Dryer.StandsFaulted) (fun _ => Dryer.StandsFaulted.discharged)
    (fun _ => Dryer.StandsFaulted.not_waiting) s.dryer.faulted_standsFaulted some_live
  rw [foldl_endSlot_of_one one some_live] at he
  obtain ⟨u, hu, hdry, hflag, hh⟩ := endSlot_handsBack (s := s.enterFault) hx ho hdest (reason := .aborted) nofun
  rw [hu] at he
  rw [hid] at hh
  exact ⟨l, u, legs, fun m j y hy e => (unique m j y hy e).1, he, hdry, hflag, hh⟩

/-- What follows the end of a faulted dryer's discharge keeps what the end has left. -/
theorem followed_of_fixed {w : State} (h : w.dryer.discharged = w.dryer) (legs : List LegNo) :
    let t := (legs.foldl (fun t l => t.settleLeg l) w).examine
    t.dryer = w.dryer ∧ Settles w t ∧ ∀ b, KeepsHolders b w t := by
  intro t
  obtain ⟨hh, hd⟩ := foldl_settleLeg_of_fixed h legs
  exact ⟨(examine_examined _).dryer.trans hd,
    (Settles.foldl (fun t l => settleLeg_settles t l) legs w).trans (examine_settles _),
    fun b => (hh.keepsHolders b).trans (examine_keepsHolders _ b)⟩

/-- With its discharge ended, no slot holds a transfer of the dryer (R92, R95). -/
theorem faultDryer_clears (h : DischargeLaw s) (hi : IdLaw s) (hd : s.faultDryer.dryer.discharge = none) :
    ∀ y ∈ s.faultDryer.live, y.origin ≠ .dryer := by
  have ended : DryerStands True False s.faultDryer := faultDryer_stands s fun _ => h.tied hi
  intro y hy
  obtain ⟨l, k, hk⟩ := (State.mem_live _).1 hy
  exact (ended.tied trivial).absent hd (State.trips_of_slot hk)

/-- The dryer, its batch and the reservation after Dryer Fault in DISCHARGING (R31, R95, R98, R122). -/
theorem faultDryer_ends_discharge (h : DischargeLaw s) (hi : IdLaw s) {id : Nat} {b : Batch}
    (hd : s.dryer.discharge = some id) (hb : s.dryer.batch = some b) :
    (∀ y ∈ s.faultDryer.live, y.origin ≠ .dryer) ∧
      (∀ l k x, (s.leg l).slot k = some x → x.id = id → s.faultDryer.flag (flagAbnormalEnd l) = true) ∧
      (b.portions ≠ [] → s.faultDryer.dryer = { s.dryer.faulted with discharge := none } ∧
        ((s.bin b.dest).holders ≠ [] →
          (s.faultDryer.bin b.dest).holders = handedBack id (s.bin b.dest).holders)) ∧
      (b.portions = [] → s.faultDryer.dryer = { s.dryer.faulted with discharge := none, batch := none } ∧
        s.faultDryer.flag flagDischargeDone = true ∧ ∀ h ∈ (s.faultDryer.bin b.dest).holders, h.who ≠ .batch) := by
  obtain ⟨l, u, legs, unique, he, hdry, hflag, hh⟩ := faultDryer_of_discharging h hi hd hb
  have hub : u.dryer.batch = some b := by rw [hdry]; exact hb
  have told : u.dischargeEnd.dryer = s.dryer.faulted.discharged := by rw [dischargeEnd_discharged, hdry]
  obtain ⟨same, settles, holders⟩ := followed_of_fixed (w := u.dischargeEnd)
    (by rw [told]; exact s.dryer.faulted_discharged_fixed) legs
  rw [← he] at same settles holders
  have dryer : s.faultDryer.dryer = s.dryer.faulted.discharged := same.trans told
  refine ⟨faultDryer_clears h hi (by rw [dryer]; rfl), fun m k x hx e => ?_, fun hp => ⟨?_, fun hne => ?_⟩,
    fun hp => ⟨?_, ?_, fun y hy who => ?_⟩⟩
  · rw [unique m k x hx e]
    exact settles.kept _ ((dischargeEnd_settles u).kept _ hflag)
  · rw [dryer, Dryer.faulted_discharged_of_portions hb hp]
  · have kept : (u.dischargeEnd.bin b.dest).holders = handedBack id (s.bin b.dest).holders :=
      (dischargeEnd_of_portions hub hp b.dest).trans hh
    rw [(holders b.dest).kept (by rw [kept]; simpa [handedBack] using hne), kept]
  · rw [dryer, Dryer.faulted_discharged_of_empty hb hp]
  · exact settles.kept _ (dischargeEnd_of_empty hub hp).1
  · exact (dischargeEnd_of_empty hub hp).2 y ((holders b.dest).batch y hy who) who

end Live

/-- Settles O42: Dryer Fault by the dryer's state, and in DISCHARGING by the end of the one transfer of the dryer. -/
theorem dryerFaultKeepsTheGrain : Obligations.DryerFaultKeepsTheGrain := by
  intro s f h hp
  have act {t : State} {a : Answer} (e : actDryerFault f.station () s = (t, a)) :
      exec (.dryerFault f) s = answered 0x4F#8 f t a := answered_of_act h (decodeNothing_nil hp) e
  refine ⟨fun off => act ?_, fun fault => act ?_, fun off fault => ?_⟩
  · rw [actDryerFault_eq, if_pos off]
  · rw [actDryerFault_eq, if_neg (by rw [fault]; nofun), if_pos fault]
  · obtain ⟨quiet, flag, state, warmUp, mark, auto⟩ := faultDryer_faults s
    refine ⟨s.faultDryer, act ?_, quiet, flag, state, warmUp, mark, auto, faultDryer_of_undischarged,
      fun hi hl id b hd hb => faultDryer_ends_discharge hl hi hd hb⟩
    rw [actDryerFault_eq, if_neg off, if_neg fault]

end Sys2Proof.Machine
end
